-- ==== Sys2Proof/Word.lean ====
section
/-! DEFINITION. The words of the ULS-7816: the widths the manual names, and nothing else. -/

namespace Sys2Proof

/-- A byte of memory (R2). -/
abbrev Byte := BitVec 8
/-- A scalar register, port or latch value (R54, R66). -/
abbrev W64 := BitVec 64
/-- A vector, landing or wide port value of 32 lanes of 32 bits, lane 0 lowest (R2). -/
abbrev Wide := BitVec 1024
/-- One move (R50). -/
abbrev MoveWord := BitVec 24
/-- One bundle of eight moves, slot 0 in bits 23-0 (R2, R50). -/
abbrev Bundle := BitVec 192

end Sys2Proof
end

