-- ==== Sys2Proof/Syntax.lean ====
section
/-! DEFINITION. The instructions of the machine, one constructor per row of spec/opcode_table.json.
Encoded moves carry the operands their word gives (R55-R62); device steps, host commands and events
find the place they act on in the machine's event operand. -/

namespace Sys2Proof

/-- The read specials of R57, codes 0x0E0 to 0x0F5. -/
inductive Special where
  | zero | one | tick | stepc | tid | sid | wid | wf0 | wf1 | wf2 | wf3 | wf4 | wf5
  | lc0 | lc1 | lk | oar | flags | limm | vrc | ksel | metaWord
deriving DecidableEq, Repr

/-- A move's source (R56). -/
inductive Src where
  | m (i : BitVec 7)
  | s (i : BitVec 4)
  | l (i : BitVec 4)
  | b (i : BitVec 4)
  | w (i : BitVec 4)
  | v (i : BitVec 5)
  | special (k : Special)
  | imm (i : BitVec 9)
deriving DecidableEq, Repr

/-- A plain move's register destination (R58). -/
inductive Dst where
  | m (i : BitVec 7)
  | s (i : BitVec 4)
  | v (i : BitVec 5)
deriving DecidableEq, Repr

/-- What every trigger move carries: its S bit, its source and its W bit (R55). -/
structure Trig where
  sync : Bool
  src  : Src
  w    : Bool
deriving DecidableEq, Repr

/-- The instructions: one constructor per row of the opcode table, the encoded moves first. A device step,
host command or event carries no operand of its own: the place it acts on (a tile, a request, a packet)
and the data the outside brings are the machine's event operand (`State.ev`). -/
inductive Instr where
  /-- MOVE (R70): A plain move copies a source into an m, s or v register under the interlocks. -/
  | move (sync : Bool) (src : Src) (dst : Dst)
  /-- OPERAND_PORT_WRITE (R52): A move writes an operand port o0 to o3 of a unit, which keeps its value until written again. -/
  | operandPortWrite (sync : Bool) (src : Src) (unit : BitVec 4) (port : BitVec 2)
  /-- LOOP_COUNTER_WRITE (R59): A move sets loop counter lc0 or lc1 from bits 31-0. -/
  | loopCounterWrite (sync : Bool) (src : Src) (second : Bool)
  /-- LK_WRITE (R59): A move sets the link register from bits 11-0. -/
  | lkWrite (sync : Bool) (src : Src)
  /-- FLAGS_WRITE (R60): A move clears the sticky flags written with ones, clearing oar with OOR. -/
  | flagsWrite (sync : Bool) (src : Src)
  /-- VRC_WRITE (R44): A move sets the vector rounding mode and generator state, storing 1 for a zero state and RNE for mode 0b11. -/
  | vrcWrite (sync : Bool) (src : Src)
  /-- ALARM_WRITE (R221): A move arms the alarm with a deadline tick, or disarms it with 0. -/
  | alarmWrite (sync : Bool) (src : Src)
  /-- KSEL_WRITE (R59): A move sets the kernel slot used by spawn and enq from bits 15-0. -/
  | kselWrite (sync : Bool) (src : Src)
  /-- LONG_IMMEDIATE_PREFIX (R61): A prefix supplies 22 bits of payload to the limm read of the move above its chain. -/
  | longImmediatePrefix (payload : BitVec 22)
  /-- NOP (R62): Does nothing, or with S set is a pure sync. -/
  | nop (sync : Bool)
  /-- YIELD (R203): The strand gives up the core once its in-flight results have emerged, keeping all its state. -/
  | yield (sync : Bool)
  /-- SUSPEND_R (R204): After its landings and commit, the run ends and its record is requeued READY with n carried values. -/
  | suspendR (sync : Bool) (n : BitVec 2)
  /-- SUSPEND_F (R365): After its landings and commit, the run ends and its record is deferred on the future cell named by s15. -/
  | suspendF (sync : Bool) (n : BitVec 2) (k : BitVec 2)
  /-- SUSPEND_P (R204): After its landings and commit, the run ends and its record is parked on the park ring. -/
  | suspendP (sync : Bool) (n : BitVec 2)
  /-- EXIT (R205): After its landings and commit, the run ends, freeing its pool slot and pins and counting a task toward launch completion. -/
  | exit (sync : Bool)
  /-- MARK (R222): Once no open request is outstanding, gated stores are performed, the log emptied and a new checkpoint taken. -/
  | mark (sync : Bool)
  /-- WAITK (R314): Holds its slot until every key in the mask is complete, and holds later accesses until after it issues. -/
  | waitk (sync : Bool) (mask : BitVec 8)
  /-- BR (R196): Branches to the bundle index plus the signed offset after one delay bundle. -/
  | br (t : Trig)
  /-- BRZ (R196): Branches when ctl.o0 is zero. -/
  | brz (t : Trig)
  /-- BRNZ (R196): Branches when ctl.o0 is non-zero. -/
  | brnz (t : Trig)
  /-- BRN (R196): Branches when bit 63 of ctl.o0 is 1. -/
  | brn (t : Trig)
  /-- BRNN (R196): Branches when bit 63 of ctl.o0 is 0. -/
  | brnn (t : Trig)
  /-- JMP (R196): Jumps to the bundle index in bits 11-0 after one delay bundle. -/
  | jmp (t : Trig)
  /-- CALL (R196): Jumps like jmp and writes the return index into lk. -/
  | call (t : Trig)
  /-- RET (R196): Jumps to the index in lk after one delay bundle. -/
  | ret (t : Trig)
  /-- LOOP0 (R197): Sets up hardware loop 0 over the next b bundles with the trip count in ctl.o0. -/
  | loop0 (t : Trig)
  /-- LOOP1 (R197): Sets up hardware loop 1 over the next b bundles with the trip count in ctl.o0. -/
  | loop1 (t : Trig)
  /-- LEXIT (R198): Ends hardware loop t after the delay bundle, passing control past its body. -/
  | lexit (t : Trig)
  /-- TRAP (R214): Raises the software trap, cause 4, with the code as DETAIL. -/
  | trap (t : Trig)
  /-- BRK (R214): Raises the breakpoint, cause 5, with the code as DETAIL. -/
  | brk (t : Trig)
  /-- SLEEP (R200): Yields the core until the tick reaches the wake tick. -/
  | sleep (t : Trig)
  /-- WAITL (R201): Yields the core until no landing entry names a register in the mask, landing masked entries on arrival. -/
  | waitl (t : Trig)
  /-- FENCE (R206): Orders later accesses after earlier ones at a scope as acquire, release or full, committing gated stores for release and full. -/
  | fence (t : Trig)
  /-- RDSR (R207): Reads system register t into b1 at trigger + 2. -/
  | rdsr (t : Trig)
  /-- WRSR (R207): Writes o0 to system register t, ignored for unassigned or read-only registers. -/
  | wrsr (t : Trig)
  /-- RFT (R218): Leaves the handler, restoring the frame or taking a pending cause or rolling back, and lowering DEPTH. -/
  | rft (t : Trig)
  /-- SCLR (R210): Clears ceil(c/16) scratchpad granules from t, stalling slot 0 as many steps. -/
  | sclr (t : Trig)
  /-- FMTB (R211): Sets the strand's format-table base from t bits 18-7. -/
  | fmtb (t : Trig)
  /-- BCLAIM (R462): Records a boost claim for the strand's cluster where the kernel's class and balance allow. -/
  | bclaim (t : Trig)
  /-- BREL (R462): Withdraws the strand's boost claim. -/
  | brel (t : Trig)
  /-- EVSEL (R466): Assigns a source to an event counter and clears it. -/
  | evsel (t : Trig)
  /-- EVRD (R213): Returns event counter t, zero-extended from 48 bits, at trigger + 2. -/
  | evrd (t : Trig)
  /-- ADD (R153): Integer a + t modulo 2^64 on INA or INB. -/
  | add (t : Trig) (inb : Bool)
  /-- SUB (R153): Integer a - t modulo 2^64. -/
  | sub (t : Trig) (inb : Bool)
  /-- AND (R153): Bitwise a AND t. -/
  | and (t : Trig) (inb : Bool)
  /-- OR (R153): Bitwise a OR t. -/
  | or (t : Trig) (inb : Bool)
  /-- XOR (R153): Bitwise a XOR t. -/
  | xor (t : Trig) (inb : Bool)
  /-- ANDN (R153): Bitwise a AND NOT t. -/
  | andn (t : Trig) (inb : Bool)
  /-- SHL (R153): a shifted left by t AND 63. -/
  | shl (t : Trig) (inb : Bool)
  /-- SHR (R153): a shifted right logically by t AND 63. -/
  | shr (t : Trig) (inb : Bool)
  /-- SAR (R153): a shifted right arithmetically by t AND 63. -/
  | sar (t : Trig) (inb : Bool)
  /-- ROL (R153): a rotated left by t AND 63. -/
  | rol (t : Trig) (inb : Bool)
  /-- MIN (R153): Signed minimum of a and t. -/
  | min (t : Trig) (inb : Bool)
  /-- MAX (R153): Signed maximum of a and t. -/
  | max (t : Trig) (inb : Bool)
  /-- MINU (R153): Unsigned minimum of a and t. -/
  | minu (t : Trig) (inb : Bool)
  /-- MAXU (R153): Unsigned maximum of a and t. -/
  | maxu (t : Trig) (inb : Bool)
  /-- CEQ (R153): 1 if a = t, else 0. -/
  | ceq (t : Trig) (inb : Bool)
  /-- CNE (R153): 1 if a differs from t, else 0. -/
  | cne (t : Trig) (inb : Bool)
  /-- CLT (R153): 1 if a < t signed, else 0. -/
  | clt (t : Trig) (inb : Bool)
  /-- CLTU (R153): 1 if a < t unsigned, else 0. -/
  | cltu (t : Trig) (inb : Bool)
  /-- CLE (R153): 1 if a <= t signed, else 0. -/
  | cle (t : Trig) (inb : Bool)
  /-- CLEU (R153): 1 if a <= t unsigned, else 0. -/
  | cleu (t : Trig) (inb : Bool)
  /-- SEL (R153): o1 when a is non-zero, otherwise t. -/
  | sel (t : Trig) (inb : Bool)
  /-- MOV (R153): Returns t. -/
  | mov (t : Trig) (inb : Bool)
  /-- CLZ (R153): Leading zeros of t, 64 for zero. -/
  | clz (t : Trig) (inb : Bool)
  /-- POPC (R153): Number of one bits of t. -/
  | popc (t : Trig) (inb : Bool)
  /-- ADDW (R153): (a + t) mod 2^32, sign-extended from bit 31. -/
  | addw (t : Trig) (inb : Bool)
  /-- SUBW (R153): (a - t) mod 2^32, sign-extended from bit 31. -/
  | subw (t : Trig) (inb : Bool)
  /-- BFX (R154): Extracts a bit field of a, optionally sign-extended. -/
  | bfx (t : Trig) (inb : Bool)
  /-- BFI (R154): Inserts a field of o1 into a. -/
  | bfi (t : Trig) (inb : Bool)
  /-- MUL (R155): Low 64 bits of a x t, latency 3. -/
  | mul (t : Trig)
  /-- MULH (R155): High 64 bits of the signed 128-bit product. -/
  | mulh (t : Trig)
  /-- MULHU (R155): High 64 bits of the unsigned 128-bit product. -/
  | mulhu (t : Trig)
  /-- MULW (R155): Exact signed product of the low 32 bits of a and t. -/
  | mulw (t : Trig)
  /-- DIV (R156): Signed a / t truncated, latency 20, setting DZ on a zero divisor. -/
  | div (t : Trig)
  /-- DIVU (R156): Unsigned a / t truncated, setting DZ on a zero divisor. -/
  | divu (t : Trig)
  /-- REM (R156): Signed remainder with the sign of a. -/
  | rem (t : Trig)
  /-- REMU (R156): Unsigned remainder. -/
  | remu (t : Trig)
  /-- MAD (R155): Low 64 bits of a x o1 + t. -/
  | mad (t : Trig)
  /-- XA (R160): Returns a pinned or open handle for offset a of extent entry j. -/
  | xa (t : Trig)
  /-- XAB (R160): Returns the contiguous bytes available from offset a of entry j. -/
  | xab (t : Trig)
  /-- XLEN (R160): Returns LEN of extent entry j. -/
  | xlen (t : Trig)
  /-- IDX (R160): Returns base + index x element size modulo 2^64. -/
  | idx (t : Trig)
  /-- OPENX (R163): Advances a handle and primes the translation of an open handle, faulting with rollback when no leaf exists. -/
  | openx (t : Trig)
  /-- HDL (R161): Returns a pinned handle for a virtual range that one slot covers, or an open handle. -/
  | hdl (t : Trig)
  /-- LDB (R169): Loads a scratchpad byte zero-extended, latency 3. -/
  | ldb (t : Trig)
  /-- LDBS (R169): Loads a scratchpad byte sign-extended. -/
  | ldbs (t : Trig)
  /-- LDH (R169): Loads 2 scratchpad bytes zero-extended. -/
  | ldh (t : Trig)
  /-- LDHS (R169): Loads 2 scratchpad bytes sign-extended. -/
  | ldhs (t : Trig)
  /-- LDW (R169): Loads 4 scratchpad bytes zero-extended. -/
  | ldw (t : Trig)
  /-- LDWS (R169): Loads 4 scratchpad bytes sign-extended. -/
  | ldws (t : Trig)
  /-- LDD (R169): Loads 8 scratchpad bytes. -/
  | ldd (t : Trig)
  /-- LDV (R169): Loads 128 contiguous scratchpad bytes, latency 4. -/
  | ldv (t : Trig)
  /-- LDVS (R170): Loads eight strided granules, stalling for bank conflicts. -/
  | ldvs (t : Trig)
  /-- LDVG (R171): Gathers 32 lanes at signed offsets, stalling k - 1 steps for bank conflicts. -/
  | ldvg (t : Trig)
  /-- STB (R169): Stores the low byte of o0 to the scratchpad. -/
  | stb (t : Trig)
  /-- STH (R169): Stores the low 2 bytes of o0. -/
  | sth (t : Trig)
  /-- STW (R169): Stores the low 4 bytes of o0. -/
  | stw (t : Trig)
  /-- STD (R169): Stores the low 8 bytes of o0. -/
  | std (t : Trig)
  /-- STV (R169): Stores all 128 bytes of o0. -/
  | stv (t : Trig)
  /-- STVM (R169): Stores the lanes of o0 selected by the mask in o2. -/
  | stvm (t : Trig)
  /-- STVS (R170): Stores eight strided granules of o0. -/
  | stvs (t : Trig)
  /-- STVX (R170): Scatters the lanes of o0 at signed offsets from o1. -/
  | stvx (t : Trig)
  /-- LDX (R172): Remote 8-byte load through a handle, landing in a w register. -/
  | ldx (t : Trig)
  /-- LDXV (R172): Remote 128-byte load through a handle, landing in a w register. -/
  | ldxv (t : Trig)
  /-- STX (R172): Remote 8-byte store through a handle, landing its acknowledgement. -/
  | stx (t : Trig)
  /-- STXV (R172): Remote 128-byte store through a handle, landing its acknowledgement. -/
  | stxv (t : Trig)
  /-- LTAG (R174): Lands the compression tag of the line at a handle. -/
  | ltag (t : Trig)
  /-- SEND (R317): Sends up to 256 bytes of payload to a scratchpad on the message network. -/
  | send (t : Trig)
  /-- COPY (R318): Checks two tensor shape records and enqueues a tensor copy on a walk-engine queue with its key and promise. -/
  | copy (t : Trig)
  /-- STREAM (R320): Opens a stream into the strand's ring, turning the key RING and sending freed-slot notices. -/
  | stream (t : Trig)
  /-- FREE (R321): Empties the ring's head slot and sends a notice after the earlier scratchpad accesses. -/
  | free (t : Trig)
  /-- CLOSE (R322): Ends a ring key's stream, at once when END is set, otherwise through CLOSING. -/
  | close (t : Trig)
  /-- GATHR (R319): Enqueues a gather of indexed rows into a destination tensor. -/
  | gathr (t : Trig)
  /-- KEXP (R323): Adds producer expectations to a key's entries. -/
  | kexp (t : Trig)
  /-- KCLR (R324): Resets the masked keys to PLAIN with no entries. -/
  | kclr (t : Trig)
  /-- KRD (R325): Returns a key's status word at trigger + 2. -/
  | krd (t : Trig)
  /-- QFENCE (R326): Orders later commands of the masked queues after every earlier one. -/
  | qfence (t : Trig)
  /-- PROMISE (R327): Lands a key's promised completion tick and arms its watch. -/
  | promise (t : Trig)
  /-- AADD (R355): Sends an atomic add to the word at a handle, landing the old value. -/
  | aadd (t : Trig)
  /-- AMIN (R355): Sends an atomic signed minimum. -/
  | amin (t : Trig)
  /-- AMAX (R355): Sends an atomic signed maximum. -/
  | amax (t : Trig)
  /-- AAND (R355): Sends an atomic AND. -/
  | aand (t : Trig)
  /-- AOR (R355): Sends an atomic OR. -/
  | aor (t : Trig)
  /-- AXOR (R355): Sends an atomic XOR. -/
  | axor (t : Trig)
  /-- ASWP (R355): Sends an atomic swap. -/
  | aswp (t : Trig)
  /-- ACAS (R355): Sends an atomic compare-and-swap against o1. -/
  | acas (t : Trig)
  /-- AFADD (R355): Sends an atomic add of two FP32 lanes. -/
  | afadd (t : Trig)
  /-- RED (R357): Sends a 128-byte reduction into memory with no return. -/
  | red (t : Trig)
  /-- FRD (R362): Sends a future-cell read, landing its state word and value. -/
  | frd (t : Trig)
  /-- FWR (R363): Sends a future-cell fill with value t, landing a status. -/
  | fwr (t : Trig)
  /-- FRST (R364): Sends a future-cell reset, landing the old state word. -/
  | frst (t : Trig)
  /-- BARR (R373): Sends a barrier arrival without waiting, landing phase and count. -/
  | barr (t : Trig)
  /-- BARW (R376): Sends a barrier arrival and sleeps until its phase is released. -/
  | barw (t : Trig)
  /-- BARD (R372): Sends a barrier drop, judged against the strand's arrival record. -/
  | bard (t : Trig)
  /-- BARTW (R377): Sends a timed barrier arrival and sleeps until release or deadline, landing the outcome. -/
  | bartw (t : Trig)
  /-- BARQ (R378): Sends a barrier query that counts nothing. -/
  | barq (t : Trig)
  /-- CAPNEW (R337): Writes a fresh capsule head at a buffer and makes it current. -/
  | capnew (t : Trig)
  /-- CAPSEND (R339): Checks and sends the capsule at t toward stop CUR as a module-scope release. -/
  | capsend (t : Trig)
  /-- CAPINS (R336): Inserts a stop at position p of the current capsule. -/
  | capins (t : Trig)
  /-- CAPDEL (R336): Deletes stop p of the current capsule. -/
  | capdel (t : Trig)
  /-- CAPSET (R336): Writes a selected head field of the current capsule. -/
  | capset (t : Trig)
  /-- CAPFORK (R337): Copies the capsule to a fork buffer with a new fork index and count. -/
  | capfork (t : Trig)
  /-- CAPNXT (R344): Ends the visit after its waits and sends the arrival capsule to its next stop. -/
  | capnxt (t : Trig)
  /-- CAPFIN (R344): Ends the visit and the capsule, storing its data block at AUX1 when set. -/
  | capfin (t : Trig)
  /-- CAPRD (R336): Reads a selected field of the current capsule at trigger + 2. -/
  | caprd (t : Trig)
  /-- NEXTW (R122): Lands the next work identifier of a resident launch, or null, in the next rotating w register at trigger + 12. -/
  | nextw (t : Trig)
  /-- SPAWN (R123): Adds up to 65,535 tasks to the launch through the spawn queue. -/
  | spawn (t : Trig)
  /-- REGROUP (R135): Ends the run and requeues the task under new low fields of its identifier. -/
  | regroup (t : Trig)
  /-- ENQ (R145): Copies a 64-byte item into a launch, ready, tile, fault or park queue of the context. -/
  | enq (t : Trig)
  /-- ADD_F32 (R178): Lane-wise FP32 add. -/
  | addF32 (t : Trig)
  /-- SUB_F32 (R178): Lane-wise FP32 subtract. -/
  | subF32 (t : Trig)
  /-- MUL_F32 (R178): Lane-wise FP32 multiply. -/
  | mulF32 (t : Trig)
  /-- FMA_F32 (R178): Lane-wise FP32 fused multiply-add. -/
  | fmaF32 (t : Trig)
  /-- MIN_F32 (R179): Lane-wise FP32 minimum. -/
  | minF32 (t : Trig)
  /-- MAX_F32 (R179): Lane-wise FP32 maximum. -/
  | maxF32 (t : Trig)
  /-- ABS_F32 (R178): Lane-wise FP32 absolute value. -/
  | absF32 (t : Trig)
  /-- ADD_H (R178): Element-wise FP16 add. -/
  | addH (t : Trig)
  /-- MUL_H (R178): Element-wise FP16 multiply. -/
  | mulH (t : Trig)
  /-- FMA_H (R178): Element-wise FP16 fused multiply-add. -/
  | fmaH (t : Trig)
  /-- MULWL_H (R178): Exact FP32 products of the low 32 FP16 elements. -/
  | mulwlH (t : Trig)
  /-- MULWH_H (R178): Exact FP32 products of the high 32 FP16 elements. -/
  | mulwhH (t : Trig)
  /-- ADD_B (R178): Element-wise BF16 add. -/
  | addB (t : Trig)
  /-- FMA_B (R178): Element-wise BF16 fused multiply-add. -/
  | fmaB (t : Trig)
  /-- ADD_I32 (R178): Lane-wise 32-bit integer add. -/
  | addI32 (t : Trig)
  /-- SUB_I32 (R178): Lane-wise 32-bit integer subtract. -/
  | subI32 (t : Trig)
  /-- MUL_I32 (R178): Lane-wise low 32 bits of the product. -/
  | mulI32 (t : Trig)
  /-- DOT4_I8 (R178): Lane-wise sum of four signed byte products. -/
  | dot4I8 (t : Trig)
  /-- ADDS_I8 (R178): Byte-wise saturating signed add. -/
  | addsI8 (t : Trig)
  /-- VEC_AND (R178): Vector bitwise AND. -/
  | vecAnd (t : Trig)
  /-- VEC_OR (R178): Vector bitwise OR. -/
  | vecOr (t : Trig)
  /-- VEC_XOR (R178): Vector bitwise XOR. -/
  | vecXor (t : Trig)
  /-- VEC_SHL (R178): Lane-wise shift left. -/
  | vecShl (t : Trig)
  /-- VEC_SHR (R178): Lane-wise logical shift right. -/
  | vecShr (t : Trig)
  /-- VEC_SAR (R178): Lane-wise arithmetic shift right. -/
  | vecSar (t : Trig)
  /-- VEC_SEL (R178): Lane-wise select of B where A is non-zero, else T. -/
  | vecSel (t : Trig)
  /-- CMPEQ_F32 (R180): Lane-wise FP32 equality mask. -/
  | cmpeqF32 (t : Trig)
  /-- CMPLT_F32 (R180): Lane-wise FP32 less-than mask. -/
  | cmpltF32 (t : Trig)
  /-- CMPLE_F32 (R180): Lane-wise FP32 less-or-equal mask. -/
  | cmpleF32 (t : Trig)
  /-- CMPEQ_I32 (R180): Lane-wise 32-bit pattern equality mask. -/
  | cmpeqI32 (t : Trig)
  /-- CMPLT_I32 (R180): Lane-wise signed less-than mask. -/
  | cmpltI32 (t : Trig)
  /-- CVTL_F32_H (R181): Widens the low 32 FP16 elements to FP32 exactly. -/
  | cvtlF32H (t : Trig)
  /-- CVTH_F32_H (R181): Widens the high 32 FP16 elements to FP32 exactly. -/
  | cvthF32H (t : Trig)
  /-- CVT_H_F32 (R182): Narrows FP32 lanes to FP16 under vrc. -/
  | cvtHF32 (t : Trig)
  /-- CVT_B_F32 (R182): Narrows FP32 lanes to BF16 under vrc. -/
  | cvtBF32 (t : Trig)
  /-- CVT_E4_F32 (R181): Narrows FP32 lanes to saturating E4M3 under vrc. -/
  | cvtE4F32 (t : Trig)
  /-- CVT_F32_E4 (R181): Widens E4M3 bytes to FP32 exactly. -/
  | cvtF32E4 (t : Trig)
  /-- CVT_I32_F32 (R181): Converts FP32 lanes to INT32 under vrc with saturation. -/
  | cvtI32F32 (t : Trig)
  /-- CVT_F32_I32 (R181): Converts INT32 lanes to FP32 under vrc. -/
  | cvtF32I32 (t : Trig)
  /-- RSUM_F32 (R183): Pairwise tree sum of the 32 FP32 lanes into lane 0. -/
  | rsumF32 (t : Trig)
  /-- RMAX_F32 (R183): Largest FP32 lane into lane 0. -/
  | rmaxF32 (t : Trig)
  /-- RSUM_I32 (R183): Sum of the 32 integer lanes modulo 2^32 into lane 0. -/
  | rsumI32 (t : Trig)
  /-- BCAST (R184): Broadcasts a 32-bit scalar to every lane. -/
  | bcast (t : Trig)
  /-- INS (R184): Replaces one lane of a vector with a scalar. -/
  | ins (t : Trig)
  /-- EXT (R184): Extracts one lane into lane 0. -/
  | ext (t : Trig)
  /-- IOTA (R184): Lane i holds start + i. -/
  | iota (t : Trig)
  /-- MSK (R184): Lanes below the count hold all ones. -/
  | msk (t : Trig)
  /-- RSQ (R185): Correctly rounded reciprocal square root, holding the special-function pool 8 steps. -/
  | rsq (t : Trig)
  /-- RCP (R185): Correctly rounded reciprocal. -/
  | rcp (t : Trig)
  /-- EXP2 (R185): Correctly rounded 2^x. -/
  | exp2 (t : Trig)
  /-- LOG2 (R185): Correctly rounded base-2 logarithm. -/
  | log2 (t : Trig)
  /-- TANH (R185): Correctly rounded hyperbolic tangent. -/
  | tanh (t : Trig)
  /-- SIGM (R185): Correctly rounded logistic sigmoid. -/
  | sigm (t : Trig)
  /-- PERM (R187): Permutes 32-bit lanes by per-lane indices. -/
  | perm (t : Trig)
  /-- ROT (R187): Rotates lanes toward lane 0 by n. -/
  | rot (t : Trig)
  /-- CMP24 (R188): Compresses 64 FP16 elements 2:4 with their indices. -/
  | cmp24 (t : Trig)
  /-- CMP48 (R188): Compresses 64 FP16 elements 4:8 with their indices. -/
  | cmp48 (t : Trig)
  /-- EXPD (R189): Expands kept values and indices back to 64 elements. -/
  | expd (t : Trig)
  /-- TRSET (R191): Sets the transposer's shape and clears its block. -/
  | trset (t : Trig)
  /-- TRIN (R192): Writes one row of the transposer block at trigger + 1. -/
  | trin (t : Trig)
  /-- TROUT (R193): Returns one column of the transposer block. -/
  | trout (t : Trig)
  /-- PUSH (R235): Pops one token per entry lane and pushes a vector through the active plane into a freshly cleared accumulator row. -/
  | push (t : Trig)
  /-- PUSHA (R235): Pushes a vector through the active plane, accumulating into its row. -/
  | pusha (t : Trig)
  /-- SHIFT (R229): Issues a bubble beat. -/
  | shift (t : Trig)
  /-- LOADW (R236): Fills a row of the retired plane from the north weight port. -/
  | loadw (t : Trig)
  /-- LOADM (R237): Writes a row of sparse index registers of the retired plane. -/
  | loadm (t : Trig)
  /-- SWAP (R238): Starts a diagonal wavefront that makes the shadow plane active. -/
  | swap (t : Trig)
  /-- DRAIN (R232): Issues a drain beat of an accumulator row with its marks and clear flag. -/
  | drain (t : Trig)
  /-- ACLR (R244): Sends a clear of an accumulator row in order with the beats. -/
  | aclr (t : Trig)
  /-- AMODE (R234): Sets the array mode, refused when it would reorder entries of the two latencies. -/
  | amode (t : Trig)
  /-- SCALA (R240): Sets or disables the activation-scale override. -/
  | scala (t : Trig)
  /-- SCALW (R240): Sets the shadow plane's weight scale. -/
  | scalw (t : Trig)
  /-- SLOAD (R279): Starts loading every node's shadow plane from a slate-store slot, locally or region-wide. -/
  | sload (t : Trig)
  /-- SPART (R279): Starts loading the shadow planes of the nodes named in the mask. -/
  | spart (t : Trig)
  /-- FIRE (R281): Begins a pass, snapshotting the format-table entry and injecting switch tokens on both sides. -/
  | fire (t : Trig)
  /-- SWTOK (R282): Injects a switch token of the current pass on one side or both. -/
  | swtok (t : Trig)
  /-- CDRAIN (R288): Sets the drain mark of the named nodes. -/
  | cdrain (t : Trig)
  /-- CTRAP (R292): Returns the node trap currently raised. -/
  | ctrap (t : Trig)
  /-- CRES (R293): Resumes the raised node with a substituted value and raises the next held node. -/
  | cres (t : Trig)
  /-- CABORT (R294): Starts ending the slate, discarding tokens and stopping walks. -/
  | cabort (t : Trig)
  /-- CSTAT (R295): Returns the collar status, acting as an acquire of sink writes when SWP reads 0. -/
  | cstat (t : Trig)
  /-- NPAR (R289): Writes one shadow parameter register of a node, or clears its status bits. -/
  | npar (t : Trig)
  /-- BUNDLE_DECODE (R64): A slot fetches and decodes its next bundle, and every illegal encoding in the bundle is trapped before any move of it issues. -/
  | bundleDecode
  /-- BUNDLE_RELOAD_DONE (R23): The reloaded bundle arrives and raises the code-store parity report, or the run ends faulted with CODE 13 on an uncorrectable line. -/
  | bundleReloadDone
  /-- RESULT_EMERGE (R68): A unit result reaches its bypass latch, and unless W was set its last-result register, at trigger plus latency, setting any flags it carries. -/
  | resultEmerge
  /-- LANDING (R76): At its due step a timed request writes its data to its landing register, or the core domain freezes if the data has not arrived. -/
  | landing
  /-- LANDING_DATA_ARRIVAL (R76): Reply data reaches the core's landing buffer; it waits for its due step, unfreezes a frozen core, or lands at once for a strand sleeping in waitl. -/
  | landingDataArrival
  /-- LANDING_TIMEOUT (R220): After 4,096 ticks of freeze or of a stalled read of a late entry, cause 10 is raised on the requesting strand and the entry is marked LATE. -/
  | landingTimeout
  /-- TRAP_ENTRY (R215): A cause is taken: the frame is written, in-flight state frozen, loops recorded, operand ports set aside, DEPTH raised, and the trap vector issues next step. -/
  | trapEntry
  /-- PAGE_FAULT_REPORT (R165): An abandoned open request reports cause 8 to its strand, taken against the restart mark or set pending in the frame. -/
  | pageFaultReport
  /-- ALARM_EXPIRY (R221): The tick reaches an armed alarm deadline, raising cause 6 and disarming the alarm. -/
  | alarmExpiry
  /-- SLEEP_WAKE (R200): The tick reaches the wake tick of a strand sleeping in sleep, and the strand becomes YIELDED. -/
  | sleepWake
  /-- STRAND_SWITCH (R152): Once a yielding bundle completes, the core clears latches and operand ports and issues from the next ready strand in rotation. -/
  | strandSwitch
  /-- IMPLICIT_MARK (R224): With every slot stalled and one stalled on a full gated-store buffer or log, the core commits a checkpoint once no open request is outstanding. -/
  | implicitMark
  /-- RECORD_ARRIVAL (R194): A dispatched record makes a free strand resident, setting its registers, extent table and first checkpoint. -/
  | recordArrival
  /-- STRAND_RELEASE (R194): A suspended strand's last outstanding landing resolves, its gated stores commit, its record is written back or freed and its pins released. -/
  | strandRelease
  /-- PAGE_WALK_COMPLETE (R408): A translation-unit page walk finishes, filling the TLB, setting A or D, and releasing a stalled openx or open store or faulting it. -/
  | pageWalkComplete
  /-- HOST_ENQUEUE (R142): A 64-byte posted write to a launch-queue window appends a launch record, or is dropped and counted as full or malformed. -/
  | hostEnqueue
  /-- QSTAT_WRITE (R143): A write of ones to OVF or MAL of QSTAT clears them, and clearing OVF zeroes DROPS. -/
  | qstatWrite
  /-- LAUNCH_DEQUEUE (R141): The dispatcher takes a launch record from a launch queue, checks it and opens a generator. -/
  | launchDequeue
  /-- RECORD_GENERATE (R140): A launch or spawn generator lazily creates the next continuation record of its range in the record pool. -/
  | recordGenerate
  /-- DISPATCH (R149): For a free strand the dispatcher chooses a record by tile queue, priority, context round robin and placement, translates and pins its extents and sends it. -/
  | dispatch
  /-- GANG_DISPATCH (R129): A waiting gang group whose G members can all be placed at once has its strands reserved and all its records sent in one round. -/
  | gangDispatch
  /-- AGING_PROMOTION (R150): A ready record that has waited the aging interval is moved one priority higher with AGE and ETK updated. -/
  | agingPromotion
  /-- CODE_LOAD_DONE (R117): A tile's code segment load completes, also writing the format-table template, slates and handler table, or fails on an uncorrectable line. -/
  | codeLoadDone
  /-- LAUNCH_COMPLETION (R120): A launch whose generator is exhausted and whose records and strands are gone has its completion cell filled and its MSI-X sent. -/
  | launchCompletion
  /-- FAULT_RING_RECHECK (R387): Every 1,024 ticks the Mordant rereads CIDX of a ring holding an entry and writes the held entry when space has come free. -/
  | faultRingRecheck
  /-- SWITCH_TOKEN_TAKE (R284): A node or PORT takes a switch token, passes it on to its old destinations, flips if SVAL is 1, adopts the snapshot and restarts its walk. -/
  | switchTokenTake
  /-- DECODE_TOKEN (R254): DECODE converts input elements to the mode's format, repacks them and attaches masks, marks and scales. -/
  | decodeToken
  /-- PARITY_REPAIR_DONE (R296): A repair's replay completes with suppressed outputs and the node returns to ACTIVE, or raises node cause 6. -/
  | parityRepairDone
  /-- NORM_ROW (R257): NORM computes the RMS normalisation of a buffered row, cooperating across lanes, and emits it. -/
  | normRow
  /-- GATE_TOKEN (R258): GATE passes, scales, bitmap-masks or clamps each element of a token. -/
  | gateToken
  /-- PROMOTE_ENTRY (R235): A push's column sums reach PROMOTE and update or replace accumulator row ROW with the scaled fused add. -/
  | promoteEntry
  /-- DRAIN_AT_PROMOTE (R243): A drain reaches PROMOTE, which emits the row's four accumulators as one token to AFFINE and clears them if CLR is set. -/
  | drainAtPromote
  /-- ACLR_AT_PROMOTE (R244): An aclr entry reaches PROMOTE and sets accumulator row ROW to +0. -/
  | aclrAtPromote
  /-- SWAP_AT_PE (R238): A swap's wavefront reaches a PE, which makes its shadow plane active at the end of that step. -/
  | swapAtPe
  /-- AFFINE_TOKEN (R260): AFFINE applies a fused scale and bias from its node-store table to each FP32 element. -/
  | affineToken
  /-- ACTIVATE_TOKEN (R261): ACTIVATE applies ReLU, leaky ReLU or a 256-segment table function to each FP32 element. -/
  | activateToken
  /-- CONVERT_TOKEN (R262): CONVERT narrows FP32 elements under its rounding mode and saturation and packs them into output tokens. -/
  | convertToken
  /-- CORNER_BLOCK (R263): CORNER fills a square block row by row and emits its columns as rows. -/
  | cornerBlock
  /-- REDUCE_TOKEN (R264): REDUCE sums or maxes FP32 tokens across its inputs or along one burst. -/
  | reduceToken
  /-- SMAX_BURST (R265): SMAX computes a base-2 softmax of a buffered FP32 burst. -/
  | smaxBurst
  /-- JOIN_TOKEN (R266): JOIN interleaves, concatenates or sums the tokens of its inputs A and B. -/
  | joinToken
  /-- PORT_SCRATCHPAD_READ (R21): A source PORT reads up to 32 B of its walk from the scratchpad banks, retrying next step when it loses arbitration. -/
  | portScratchpadRead
  /-- PORT_SCRATCHPAD_WRITE (R21): A sink PORT writes up to 32 B of its walk to the scratchpad banks, retrying next step when it loses arbitration. -/
  | portScratchpadWrite
  /-- PORT_NETWORK_IN (R301): A network-in or weight-feed PORT takes tokens from its walk engine or peer into its node-store buffer and returns freed-slot notices. -/
  | portNetworkIn
  /-- PORT_NETWORK_OUT (R301): A network-out PORT sends its tokens to its walk engine, a peer PORT or a ring, appending ordering tokens when ORDT is set. -/
  | portNetworkOut
  /-- DONE_TOKEN (R268): A done token reaches a following PORT and raises its count for the emitting PORT. -/
  | doneToken
  /-- ORDERING_TOKEN (R269): An ordering token reaches a network-in PORT and counts as a done token when FNET is set, or is discarded. -/
  | orderingToken
  /-- SLATE_LOAD_DONE (R278): A local sload or spart finishes, setting SST READY with SVAL for the named nodes, or FAILED on an uncorrectable word. -/
  | slateLoadDone
  /-- REGION_LOAD_REQUEST (R280): A region-wide load request reaches a tile, which loads the slot and enters PREPARED. -/
  | regionLoadRequest
  /-- REGION_LOAD_REPORT (R280): A tile's load report reaches the coordinator, which sends commit or withhold once every report is in. -/
  | regionLoadReport
  /-- REGION_COMMIT (R280): A commit reaches a PREPARED tile, which becomes READY with SVAL set for the named nodes. -/
  | regionCommit
  /-- REGION_WITHHOLD (R280): A withhold reaches a PREPARED tile, which becomes FAILED with SVAL cleared. -/
  | regionWithhold
  /-- CABORT_COMPLETE (R294): A collar abort finishes: every node is OFF, walks stopped, SST EMPTY and ACT 0. -/
  | cabortComplete
  /-- WALK_COMMAND_START (R304): A walk engine begins the next command of its queue, a stream walk leaving the queue once begun. -/
  | walkCommandStart
  /-- WALK_BURST (R304): A walk engine moves one burst of a command or stream, given credit, translating pages as it goes. -/
  | walkBurst
  /-- FREED_SLOT_NOTICE (R302): A freed-slot notice reaches a producer and raises its credit count by one. -/
  | freedSlotNotice
  /-- STREAM_BURST_ARRIVAL (R303): A burst reaches its consumer PORT, memory writer or ring slot, which checks its marks and fills the slot. -/
  | streamBurstArrival
  /-- COPY_DELIVERY (R305): A destination engine writes its copy of a copy or gather into its tile's scratchpad in stream order. -/
  | copyDelivery
  /-- SEND_DELIVERY (R317): A send payload reaches its destination engine, which writes it at SADR and credits the named key. -/
  | sendDelivery
  /-- KEY_CREDIT (R312): A producer's credit reaches a key and adds its granules to GOT of its entry, completing the key when all expectations are met. -/
  | keyCredit
  /-- CLOSE_ACK (R322): A producer's acknowledgement of a stop turns a CLOSING key PLAIN with no entries. -/
  | closeAck
  /-- PROMISE_WATCH_EXPIRY (R328): An armed watch's tick arrives with its key incomplete, raising cause 11 and revising the key's promise. -/
  | promiseWatchExpiry
  /-- ROUTER_FORWARD (R11): A router forwards a packet one hop by dimension order, arbitrating virtual networks and capsule priorities. -/
  | routerForward
  /-- CAPSULE_PARK_TIMEOUT (R348): A capsule that has stood 65,536 ticks at the head of one router input is parked with code 0xFFFD. -/
  | capsuleParkTimeout
  /-- CAPSULE_ARRIVAL (R342): A capsule at its VISIT tile takes the lowest free arrival slot, is written and checked, and becomes ARRIVED or is diverted. -/
  | capsuleArrival
  /-- CAPSULE_VISIT_START (R343): The free capsule strand takes the oldest ARRIVED capsule and starts its handler in the fresh visit state. -/
  | capsuleVisitStart
  /-- MEET_ARRIVAL (R345): A capsule or stand-in reaches its MEET Mordant and joins or creates the meet entry keyed by CTX and MTAG. -/
  | meetArrival
  /-- CAPSULE_RETURN_DELIVERY (R332): A capsule reaches its RETURN tile, whose engine 4 writes the data or whole capsule and credits the key. -/
  | capsuleReturnDelivery
  /-- REMOTE_ACCESS_PERFORM (R353): A plain remote load or store is performed at its home Mordant or controller and its reply sent. -/
  | remoteAccessPerform
  /-- MORDANT_ATOMIC (R355): An atomic request is performed at its home on the aligned 8-byte word and the old value is returned. -/
  | mordantAtomic
  /-- MORDANT_RED (R357): A red request combines its 128-byte vector into memory as one Mordant operation. -/
  | mordantRed
  /-- FRD_PERFORM (R362): A future read is performed at the home and returns the cell's state word and value. -/
  | frdPerform
  /-- FWR_PERFORM (R360): A fill is performed at the home, making the cell FULL and starting its walk, and returns its status. -/
  | fwrPerform
  /-- FRST_PERFORM (R364): A future reset empties a cell with no waiting records, or is refused, returning the old state word. -/
  | frstPerform
  /-- FUTURE_DEFERRAL (R365): A deferred record reaches its cell's home and is linked at HEAD, or readied at once with the value of a FULL cell. -/
  | futureDeferral
  /-- FILL_WALK_STEP (R361): The fill's walk checks and readies the next listed record, depositing VAL in its receive slot. -/
  | fillWalkStep
  /-- BARRIER_ARRIVAL (R374): An arrival or drop is counted at the home Mordant and the phase is completed when A reaches E. -/
  | barrierArrival
  /-- BARQ_PERFORM (R378): A barrier query returns words 0x00 and 0x08 with WIN in bit 31. -/
  | barqPerform
  /-- TIMED_WAITER_DEADLINE (R379): A timed waiter's deadline passes with its phase incomplete, and it receives TIMEOUT and is removed. -/
  | timedWaiterDeadline
  /-- RIDGE_RELEASE (R380): A die's Ridge controller receives a barrier release at T0 and schedules a notice per tile column. -/
  | ridgeRelease
  /-- RELEASE_NOTICE_EMIT (R380): At T0 plus the column's phase times delta, the Ridge emits a release notice to the column's tiles. -/
  | releaseNoticeEmit
  /-- RELEASE_WINDOW_END (R371): The tick reaches TCMP + 2 + (P - 1) x delta and the barrier leaves its release window. -/
  | releaseWindowEnd
  /-- BARRIER_WAKE (R376): A release notice or reply completes the pair for a strand sleeping in barw or bartw, which becomes YIELDED with its outcome landed. -/
  | barrierWake
  /-- HBM_READ (R417): An HBM controller reads a line's sectors by its tag and decodes them to plain bytes. -/
  | hbmRead
  /-- HBM_WRITE (R419): An HBM controller writes a line whole under the compression choice, or merges a partial write. -/
  | hbmWrite
  /-- REVIVAL_DONE (R415): The zero fill of a revived page completes, TLBs drop the page and held writes proceed. -/
  | revivalDone
  /-- RECLAIM_DONE (R414): A reclaim completes, writing V 0 and freeing the frame once requests to it are performed. -/
  | reclaimDone
  /-- MIGRATION_COPY_START (R414): A DRAINING page whose pin count is 0 and whose earlier writes are performed enters COPYING. -/
  | migrationCopyStart
  /-- MIGRATION_COPY_DONE (R414): A page copy completes, the new STABLE entry is written, TLBs invalidated and held writes resume. -/
  | migrationCopyDone
  /-- SHOOTDOWN_COMPLETE (R408): Every die's TLB has dropped the pages of a shootdown and the command's result is returned. -/
  | shootdownComplete
  /-- BURST_APPLY (R436): A held cross-die write burst whose stamp the destination clock satisfies is applied, including replica granules by Lamport pair. -/
  | burstApply
  /-- APPLIED_NOTICE (R436): An applied notice reaches a die and advances its clock entry for the origin. -/
  | appliedNotice
  /-- ZPORT_BURST_SEND (R450): A Z port sends a cross-module burst once its die's clock satisfies the stamp, and the receiving port re-stamps it. -/
  | zportBurstSend
  /-- FREEZE_START (R392): At freeze tick F the home dispatcher stops dispatching to the region and sends freeze markers. -/
  | freezeStart
  /-- FREEZE_MARKER (R392): A freeze marker reaches a tile, which stops its core domain, array, collar, walk engines and timers. -/
  | freezeMarker
  /-- FREEZE_COMPLETE (R394): Every tile has stopped and every die's packet count is 0, so the context becomes FROZEN and claims are withdrawn. -/
  | freezeComplete
  /-- EVICT_DONE (R397): The image has been written to memory and the context becomes EVICTED with its clusters released. -/
  | evictDone
  /-- FLIT_RECEIVE (R443): A link end receives a flit, accepting it in sequence with a good CRC or discarding it and requesting replay. -/
  | flitReceive
  /-- REPLAY_REQUEST_RECEIVE (R443): A sender receives a replay request, counts a replay and resends from the named flit. -/
  | replayRequestReceive
  /-- LANE_FAILING (R444): A lane exceeds 16 parity errors in the replay window and the link retrains, sparing or retiring lanes. -/
  | laneFailing
  /-- REPLAY_THRESHOLD_FENCE (R445): A link counting more than RTHR replays within RWIN is fenced and its traffic tunnelled. -/
  | replayThresholdFence
  /-- LINK_TRAINING_DONE (R445): Training ends at full width (UP), half width (DEGRADED) or, after three failures, FENCED. -/
  | linkTrainingDone
  /-- LINK_DRAIN_ACKNOWLEDGED (R445): Every flit sent on a DRAINING link is acknowledged and the link becomes FENCED. -/
  | linkDrainAcknowledged
  /-- CLOCK_GATE (R454): A tile's core domain that has been quiet for 64 ticks gates its clock. -/
  | clockGate
  /-- WAKE_REQUEST (R455): A packet, deadline or dispatch for a tile cancels a gate hold or queues the gated tile at the in-rush arbiter. -/
  | wakeRequest
  /-- INRUSH_ADMIT (R455): Every 4 ticks the cluster's in-rush arbiter admits up to 8 waking tiles in request order. -/
  | inrushAdmit
  /-- CURRENT_SAMPLE (R457): Every 64 ticks the cluster current monitor samples the matrix rail and raises or lowers the split level. -/
  | currentSample
  /-- BOOST_CLAIM_ARRIVAL (R459): A claim or release reaches the boost arbiter and is recorded for the next boundary. -/
  | boostClaimArrival
  /-- BOOST_BOUNDARY (R460): At each 10,500-tick boundary the arbiter charges, falls or frees grants, grants new claimants and refills balances. -/
  | boostBoundary
  /-- RAIL_SETTLED (R453): The matrix rail settles at its new voltage and granted clusters take their boost frequency. -/
  | railSettled
  /-- SENSOR_SAMPLE (R464): Every 2,100 ticks a cluster's sensors are sampled and range, stuck and disagreement checks mark or clear them as suspect. -/
  | sensorSample
  /-- MODULE_RESET (R478): PERST# on port A, RESET or power-on clears all state except fuses and starts bring-up. -/
  | moduleReset
  /-- PORT_B_RESET (R468): PERST# on port B resets only port B's link and function. -/
  | portBReset
  /-- BRINGUP_STEP_DONE (R478): A bring-up step completes or fails and PHASE advances, reaching READY or FAILED. -/
  | bringupStepDone
  /-- ELECTION_WINDOW_END (R474): The ownership election window closes and the lowest claiming master becomes owner, or the module stays unowned. -/
  | electionWindowEnd
  /-- OWNER_LOST (R474): The owner's port enters D3hot or its link is down for 2^31 ticks, and the module becomes UNOWNED. -/
  | ownerLost
  /-- HOST_MEMORY_READ (R472): A BAR4 read reaches physical memory through WBASE, or reads zero outside the permitted ranges. -/
  | hostMemoryRead
  /-- HOST_MEMORY_WRITE (R472): A BAR4 write from the owner reaches physical memory through WBASE, or is dropped. -/
  | hostMemoryWrite
  /-- REGISTER_WRITE (R6): A write to a control register without behaviour of its own, such as WBASE, stores its writable fields. -/
  | registerWrite
  /-- CLAIM (R474): A master claims ownership, recorded during an election, granted when unowned, or refused with status 3. -/
  | claim
  /-- HANDOVER (R474): The owner passes ownership to a present master when the command executes. -/
  | handover
  /-- RESET (R477): The owner resets the module, discarding queued commands. -/
  | reset
  /-- STATUS (R477): Any master reads a context's state, completed launches and last unreported Mordant error. -/
  | status
  /-- CTX_CREATE (R386): The owner creates a context with its priority, queues, rings, pool, spill area and aging interval. -/
  | ctxCreate
  /-- CTX_BIND (R399): The owner binds a context to a region, restoring an image when one is named after its checks. -/
  | ctxBind
  /-- CTX_FREEZE (R391): The owner starts a freeze with notice lead L, fixing F and raising pre-emption notices. -/
  | ctxFreeze
  /-- CTX_THAW (R398): The owner restarts a bound or frozen context, delivering channel state first and opening its queues. -/
  | ctxThaw
  /-- CTX_EVICT (R397): The owner starts writing a frozen context's image to the given address. -/
  | ctxEvict
  /-- CTX_DESTROY (R402): The owner destroys a context, releasing pins, closing queues, retiring kernels and freeing clusters. -/
  | ctxDestroy
  /-- QUEUE_PAUSE (R138): The owner pauses the masked launch queues of a context. -/
  | queuePause
  /-- QUEUE_RESUME (R138): The owner resumes the masked launch queues of a context. -/
  | queueResume
  /-- KERNEL_INSTALL (R115): The owner installs a kernel image, writing its F fields, checking it in order, measuring it and assigning a slot. -/
  | kernelInstall
  /-- KERNEL_REMOVE (R119): The owner removes an installed kernel, retiring it and freeing its slot, or is refused while it is busy. -/
  | kernelRemove
  /-- PT_ROOT (R403): The owner sets a context's page-table root. -/
  | ptRoot
  /-- TLB_SHOOTDOWN (R408): The owner starts a TLB shootdown of a context's pages on every die. -/
  | tlbShootdown
  /-- PAGE_MIGRATE (R414): The owner starts migrating a live page to a new frame, making it DRAINING. -/
  | pageMigrate
  /-- PAGE_RECLAIM (R414): The owner reclaims an unpinned discarded page, making it RECLAIMING, or is refused. -/
  | pageReclaim
  /-- RAW_READ (R421): The owner reads a line's tag and stored sectors. -/
  | rawRead
  /-- SENSOR_READ (R465): Any master reads a cluster's temperatures, rail currents and suspect and forcing marks. -/
  | sensorRead
  /-- COUNTER_READ (R451): Any master reads an energy account or a link counter, clearing link counters. -/
  | counterRead
  /-- EVENT_READ (R477): Any master reads the oldest unread event-log entry. -/
  | eventRead
  /-- LINK_TRAIN (R445): Link control action 0 trains a DOWN link. -/
  | linkTrain
  /-- LINK_RETRAIN (R445): Link control action 1 retrains a link. -/
  | linkRetrain
  /-- LINK_RETRAIN_LANE_RESET (R444): Link control action 2 retrains a link and clears its lane retirements. -/
  | linkRetrainLaneReset
  /-- LINK_DRAIN (R445): Link control action 3 drains an X or Z link into DRAINING, tunnelling new flits; a Y link is refused. -/
  | linkDrain
  /-- LINK_SET_RWIN_RTHR (R445): Link control action 4 sets a link's replay window and threshold. -/
  | linkSetRwinRthr
  /-- LINK_EVENT_MSIX_ENABLE (R451): Link control action 5 enables MSI-X notification of a link's events. -/
  | linkEventMsixEnable
  /-- ATTEST (R480): Any master has a signed attestation report with its nonce and the kernel measurements built in its output buffer. -/
  | attest
  /-- IDENTITY_CERT (R479): Any master has the identity certificate placed in its output buffer. -/
  | identityCert
  /-- OUTPUT_READ (R480): Any master reads up to 240 bytes of its output buffer from an offset. -/
  | outputRead
  /-- MBGO_WRITE (R475): A master's write to MBGO accepts a command from its request buffer, sets BUSY and queues it for the MCP, or sets OVR when a command is already in flight, and unknown opcodes end with status 1. -/
  | mbgoWrite
  /-- HOST_LINK_DOWN (R468): A PCI Express port's link goes down, so device requests to host space leave through the other port and the owner-loss count of 2^31 ticks begins for that port. -/
  | hostLinkDown
  /-- HOST_LINK_UP (R478): A PCI Express port's link trains and comes up, restoring its path for host requests and ending any running owner-loss count. -/
  | hostLinkUp
  /-- MEET_ENTRY_CLEAR (R345): The owner clears a waiting meet entry through firmware, freeing the entry that a diverted fork left waiting. -/
  | meetEntryClear
deriving DecidableEq, Repr

end Sys2Proof
end

