-- ==== Sys2Proof/WellFormed.lean ====
section
/-! DEFINITION. Which instructions are well formed: every operand within the range the manual numbers it in
(R5, R18, R63), and a receive slot below the carried count (R63). -/

namespace Sys2Proof

/-- The ranges of R5 and R63 on every operand of every instruction. -/
def Instr.wellFormed : Instr → Bool
  | .suspendF _ n k => decide (k.toNat ≤ n.toNat)
  | .move _ _ _ => true
  | .operandPortWrite _ _ _ _ => true
  | .loopCounterWrite _ _ _ => true
  | .lkWrite _ _ => true
  | .flagsWrite _ _ => true
  | .vrcWrite _ _ => true
  | .alarmWrite _ _ => true
  | .kselWrite _ _ => true
  | .longImmediatePrefix _ => true
  | .nop _ => true
  | .yield _ => true
  | .suspendR _ _ => true
  | .suspendP _ _ => true
  | .exit _ => true
  | .mark _ => true
  | .waitk _ _ => true
  | .br _ => true
  | .brz _ => true
  | .brnz _ => true
  | .brn _ => true
  | .brnn _ => true
  | .jmp _ => true
  | .call _ => true
  | .ret _ => true
  | .loop0 _ => true
  | .loop1 _ => true
  | .lexit _ => true
  | .trap _ => true
  | .brk _ => true
  | .sleep _ => true
  | .waitl _ => true
  | .fence _ => true
  | .rdsr _ => true
  | .wrsr _ => true
  | .rft _ => true
  | .sclr _ => true
  | .fmtb _ => true
  | .bclaim _ => true
  | .brel _ => true
  | .evsel _ => true
  | .evrd _ => true
  | .add _ _ => true
  | .sub _ _ => true
  | .and _ _ => true
  | .or _ _ => true
  | .xor _ _ => true
  | .andn _ _ => true
  | .shl _ _ => true
  | .shr _ _ => true
  | .sar _ _ => true
  | .rol _ _ => true
  | .min _ _ => true
  | .max _ _ => true
  | .minu _ _ => true
  | .maxu _ _ => true
  | .ceq _ _ => true
  | .cne _ _ => true
  | .clt _ _ => true
  | .cltu _ _ => true
  | .cle _ _ => true
  | .cleu _ _ => true
  | .sel _ _ => true
  | .mov _ _ => true
  | .clz _ _ => true
  | .popc _ _ => true
  | .addw _ _ => true
  | .subw _ _ => true
  | .bfx _ _ => true
  | .bfi _ _ => true
  | .mul _ => true
  | .mulh _ => true
  | .mulhu _ => true
  | .mulw _ => true
  | .div _ => true
  | .divu _ => true
  | .rem _ => true
  | .remu _ => true
  | .mad _ => true
  | .xa _ => true
  | .xab _ => true
  | .xlen _ => true
  | .idx _ => true
  | .openx _ => true
  | .hdl _ => true
  | .ldb _ => true
  | .ldbs _ => true
  | .ldh _ => true
  | .ldhs _ => true
  | .ldw _ => true
  | .ldws _ => true
  | .ldd _ => true
  | .ldv _ => true
  | .ldvs _ => true
  | .ldvg _ => true
  | .stb _ => true
  | .sth _ => true
  | .stw _ => true
  | .std _ => true
  | .stv _ => true
  | .stvm _ => true
  | .stvs _ => true
  | .stvx _ => true
  | .ldx _ => true
  | .ldxv _ => true
  | .stx _ => true
  | .stxv _ => true
  | .ltag _ => true
  | .send _ => true
  | .copy _ => true
  | .stream _ => true
  | .free _ => true
  | .close _ => true
  | .gathr _ => true
  | .kexp _ => true
  | .kclr _ => true
  | .krd _ => true
  | .qfence _ => true
  | .promise _ => true
  | .aadd _ => true
  | .amin _ => true
  | .amax _ => true
  | .aand _ => true
  | .aor _ => true
  | .axor _ => true
  | .aswp _ => true
  | .acas _ => true
  | .afadd _ => true
  | .red _ => true
  | .frd _ => true
  | .fwr _ => true
  | .frst _ => true
  | .barr _ => true
  | .barw _ => true
  | .bard _ => true
  | .bartw _ => true
  | .barq _ => true
  | .capnew _ => true
  | .capsend _ => true
  | .capins _ => true
  | .capdel _ => true
  | .capset _ => true
  | .capfork _ => true
  | .capnxt _ => true
  | .capfin _ => true
  | .caprd _ => true
  | .nextw _ => true
  | .spawn _ => true
  | .regroup _ => true
  | .enq _ => true
  | .addF32 _ => true
  | .subF32 _ => true
  | .mulF32 _ => true
  | .fmaF32 _ => true
  | .minF32 _ => true
  | .maxF32 _ => true
  | .absF32 _ => true
  | .addH _ => true
  | .mulH _ => true
  | .fmaH _ => true
  | .mulwlH _ => true
  | .mulwhH _ => true
  | .addB _ => true
  | .fmaB _ => true
  | .addI32 _ => true
  | .subI32 _ => true
  | .mulI32 _ => true
  | .dot4I8 _ => true
  | .addsI8 _ => true
  | .vecAnd _ => true
  | .vecOr _ => true
  | .vecXor _ => true
  | .vecShl _ => true
  | .vecShr _ => true
  | .vecSar _ => true
  | .vecSel _ => true
  | .cmpeqF32 _ => true
  | .cmpltF32 _ => true
  | .cmpleF32 _ => true
  | .cmpeqI32 _ => true
  | .cmpltI32 _ => true
  | .cvtlF32H _ => true
  | .cvthF32H _ => true
  | .cvtHF32 _ => true
  | .cvtBF32 _ => true
  | .cvtE4F32 _ => true
  | .cvtF32E4 _ => true
  | .cvtI32F32 _ => true
  | .cvtF32I32 _ => true
  | .rsumF32 _ => true
  | .rmaxF32 _ => true
  | .rsumI32 _ => true
  | .bcast _ => true
  | .ins _ => true
  | .ext _ => true
  | .iota _ => true
  | .msk _ => true
  | .rsq _ => true
  | .rcp _ => true
  | .exp2 _ => true
  | .log2 _ => true
  | .tanh _ => true
  | .sigm _ => true
  | .perm _ => true
  | .rot _ => true
  | .cmp24 _ => true
  | .cmp48 _ => true
  | .expd _ => true
  | .trset _ => true
  | .trin _ => true
  | .trout _ => true
  | .push _ => true
  | .pusha _ => true
  | .shift _ => true
  | .loadw _ => true
  | .loadm _ => true
  | .swap _ => true
  | .drain _ => true
  | .aclr _ => true
  | .amode _ => true
  | .scala _ => true
  | .scalw _ => true
  | .sload _ => true
  | .spart _ => true
  | .fire _ => true
  | .swtok _ => true
  | .cdrain _ => true
  | .ctrap _ => true
  | .cres _ => true
  | .cabort _ => true
  | .cstat _ => true
  | .npar _ => true
  | .bundleDecode => true
  | .bundleReloadDone => true
  | .resultEmerge => true
  | .landing => true
  | .landingDataArrival => true
  | .landingTimeout => true
  | .trapEntry => true
  | .pageFaultReport => true
  | .alarmExpiry => true
  | .sleepWake => true
  | .strandSwitch => true
  | .implicitMark => true
  | .recordArrival => true
  | .strandRelease => true
  | .pageWalkComplete => true
  | .hostEnqueue => true
  | .qstatWrite => true
  | .launchDequeue => true
  | .recordGenerate => true
  | .dispatch => true
  | .gangDispatch => true
  | .agingPromotion => true
  | .codeLoadDone => true
  | .launchCompletion => true
  | .faultRingRecheck => true
  | .switchTokenTake => true
  | .decodeToken => true
  | .parityRepairDone => true
  | .normRow => true
  | .gateToken => true
  | .promoteEntry => true
  | .drainAtPromote => true
  | .aclrAtPromote => true
  | .swapAtPe => true
  | .affineToken => true
  | .activateToken => true
  | .convertToken => true
  | .cornerBlock => true
  | .reduceToken => true
  | .smaxBurst => true
  | .joinToken => true
  | .portScratchpadRead => true
  | .portScratchpadWrite => true
  | .portNetworkIn => true
  | .portNetworkOut => true
  | .doneToken => true
  | .orderingToken => true
  | .slateLoadDone => true
  | .regionLoadRequest => true
  | .regionLoadReport => true
  | .regionCommit => true
  | .regionWithhold => true
  | .cabortComplete => true
  | .walkCommandStart => true
  | .walkBurst => true
  | .freedSlotNotice => true
  | .streamBurstArrival => true
  | .copyDelivery => true
  | .sendDelivery => true
  | .keyCredit => true
  | .closeAck => true
  | .promiseWatchExpiry => true
  | .routerForward => true
  | .capsuleParkTimeout => true
  | .capsuleArrival => true
  | .capsuleVisitStart => true
  | .meetArrival => true
  | .capsuleReturnDelivery => true
  | .remoteAccessPerform => true
  | .mordantAtomic => true
  | .mordantRed => true
  | .frdPerform => true
  | .fwrPerform => true
  | .frstPerform => true
  | .futureDeferral => true
  | .fillWalkStep => true
  | .barrierArrival => true
  | .barqPerform => true
  | .timedWaiterDeadline => true
  | .ridgeRelease => true
  | .releaseNoticeEmit => true
  | .releaseWindowEnd => true
  | .barrierWake => true
  | .hbmRead => true
  | .hbmWrite => true
  | .revivalDone => true
  | .reclaimDone => true
  | .migrationCopyStart => true
  | .migrationCopyDone => true
  | .shootdownComplete => true
  | .burstApply => true
  | .appliedNotice => true
  | .zportBurstSend => true
  | .freezeStart => true
  | .freezeMarker => true
  | .freezeComplete => true
  | .evictDone => true
  | .flitReceive => true
  | .replayRequestReceive => true
  | .laneFailing => true
  | .replayThresholdFence => true
  | .linkTrainingDone => true
  | .linkDrainAcknowledged => true
  | .clockGate => true
  | .wakeRequest => true
  | .inrushAdmit => true
  | .currentSample => true
  | .boostClaimArrival => true
  | .boostBoundary => true
  | .railSettled => true
  | .sensorSample => true
  | .moduleReset => true
  | .portBReset => true
  | .bringupStepDone => true
  | .electionWindowEnd => true
  | .ownerLost => true
  | .hostMemoryRead => true
  | .hostMemoryWrite => true
  | .registerWrite => true
  | .claim => true
  | .handover => true
  | .reset => true
  | .status => true
  | .ctxCreate => true
  | .ctxBind => true
  | .ctxFreeze => true
  | .ctxThaw => true
  | .ctxEvict => true
  | .ctxDestroy => true
  | .queuePause => true
  | .queueResume => true
  | .kernelInstall => true
  | .kernelRemove => true
  | .ptRoot => true
  | .tlbShootdown => true
  | .pageMigrate => true
  | .pageReclaim => true
  | .rawRead => true
  | .sensorRead => true
  | .counterRead => true
  | .eventRead => true
  | .linkTrain => true
  | .linkRetrain => true
  | .linkRetrainLaneReset => true
  | .linkDrain => true
  | .linkSetRwinRthr => true
  | .linkEventMsixEnable => true
  | .attest => true
  | .identityCert => true
  | .outputRead => true
  | .mbgoWrite => true
  | .hostLinkDown => true
  | .hostLinkUp => true
  | .meetEntryClear => true

end Sys2Proof
end

