-- ==== Sys2Proof/Decode.lean ====
section
/-! DEFINITION. Decoding a 24-bit move (R55-R64), its encoder, and the legality of a whole bundle (R61, R64, R87,
R199). Decoding is total: a word that is no legal move is rejected by the name of the trap R64 gives it. -/

namespace Sys2Proof

/-- Why a move is rejected: the four decode traps of R64. -/
inductive DecodeError where
  | illegalForm
  | illegalSource
  | illegalDestination
  | slotOwnership
deriving DecidableEq, Repr

/-- The trap cause of a decode error (R105). -/
def DecodeError.cause : DecodeError → Nat
  | .illegalForm => 0
  | .illegalSource => 1
  | .illegalDestination => 2
  | .slotOwnership => 3

/-- The read specials in code order from 0x0E0 (R57). -/
def specialList : List Special :=
  [.zero, .one, .tick, .stepc, .tid, .sid, .wid, .wf0, .wf1, .wf2, .wf3, .wf4, .wf5,
   .lc0, .lc1, .lk, .oar, .flags, .limm, .vrc, .ksel, .metaWord]

/-- R56: the source a code names; 0x0F6 to 0x1FF name none. -/
def decodeSrc (c : BitVec 10) : Option Src :=
  if c.getLsbD 9 then some (.imm (c.extractLsb' 0 9))
  else if c.toNat < 0x080 then some (.m (c.extractLsb' 0 7))
  else if c.toNat < 0x090 then some (.s (c.extractLsb' 0 4))
  else if c.toNat < 0x0A0 then some (.l (c.extractLsb' 0 4))
  else if c.toNat < 0x0B0 then some (.b (c.extractLsb' 0 4))
  else if c.toNat < 0x0C0 then some (.w (c.extractLsb' 0 4))
  else if c.toNat < 0x0E0 then some (.v (c.extractLsb' 0 5))
  else (specialList[c.toNat - 0x0E0]?).map .special

/-- The code of a read special (R57). -/
def encodeSpecial : Special → BitVec 10
  | .zero => 0x0E0 | .one => 0x0E1 | .tick => 0x0E2 | .stepc => 0x0E3 | .tid => 0x0E4 | .sid => 0x0E5
  | .wid => 0x0E6 | .wf0 => 0x0E7 | .wf1 => 0x0E8 | .wf2 => 0x0E9 | .wf3 => 0x0EA | .wf4 => 0x0EB
  | .wf5 => 0x0EC | .lc0 => 0x0ED | .lc1 => 0x0EE | .lk => 0x0EF | .oar => 0x0F0 | .flags => 0x0F1
  | .limm => 0x0F2 | .vrc => 0x0F3 | .ksel => 0x0F4 | .metaWord => 0x0F5

/-- R56: the code of a source. -/
def encodeSrc : Src → BitVec 10
  | .m i => 0b000#3 ++ i
  | .s i => 0b001000#6 ++ i
  | .l i => 0b001001#6 ++ i
  | .b i => 0b001010#6 ++ i
  | .w i => 0b001011#6 ++ i
  | .v i => 0b00110#5 ++ i
  | .special k => encodeSpecial k
  | .imm i => 0b1#1 ++ i

/-- R58: the code of a register destination. -/
def encodeDst : Dst → BitVec 10
  | .m i => 0b000#3 ++ i
  | .s i => 0b001000#6 ++ i
  | .v i => 0b00110#5 ++ i

/-- CTL, unit 0: its assigned triggers from port 4 upward (R85, R88-R103). -/
def unitCtlTriggers : List (Trig → Instr) :=
  [.br, .brz, .brnz, .brn, .brnn, .jmp, .call, .ret, .loop0, .loop1, .lexit, .trap, .brk, .sleep,
   .waitl]

/-- SYS, unit 1: its assigned triggers from port 4 upward (R85, R88-R103). -/
def unitSysTriggers : List (Trig → Instr) :=
  [.fence, .rdsr, .wrsr, .rft, .sclr, .fmtb, .bclaim, .brel, .evsel, .evrd]

/-- INA, unit 2: its assigned triggers from port 4 upward (R85, R88-R103). -/
def unitInaTriggers : List (Trig → Instr) :=
  [fun t => .add t false, fun t => .sub t false, fun t => .and t false, fun t => .or t false,
   fun t => .xor t false, fun t => .andn t false, fun t => .shl t false, fun t => .shr t false,
   fun t => .sar t false, fun t => .rol t false, fun t => .min t false, fun t => .max t false,
   fun t => .minu t false, fun t => .maxu t false, fun t => .ceq t false, fun t => .cne t false,
   fun t => .clt t false, fun t => .cltu t false, fun t => .cle t false, fun t => .cleu t false,
   fun t => .sel t false, fun t => .mov t false, fun t => .clz t false, fun t => .popc t false,
   fun t => .addw t false, fun t => .subw t false, fun t => .bfx t false, fun t => .bfi t false]

/-- INB, unit 3: its assigned triggers from port 4 upward (R85, R88-R103). -/
def unitInbTriggers : List (Trig → Instr) :=
  [fun t => .add t true, fun t => .sub t true, fun t => .and t true, fun t => .or t true,
   fun t => .xor t true, fun t => .andn t true, fun t => .shl t true, fun t => .shr t true,
   fun t => .sar t true, fun t => .rol t true, fun t => .min t true, fun t => .max t true,
   fun t => .minu t true, fun t => .maxu t true, fun t => .ceq t true, fun t => .cne t true,
   fun t => .clt t true, fun t => .cltu t true, fun t => .cle t true, fun t => .cleu t true,
   fun t => .sel t true, fun t => .mov t true, fun t => .clz t true, fun t => .popc t true,
   fun t => .addw t true, fun t => .subw t true, fun t => .bfx t true, fun t => .bfi t true]

/-- IMD, unit 4: its assigned triggers from port 4 upward (R85, R88-R103). -/
def unitImdTriggers : List (Trig → Instr) :=
  [.mul, .mulh, .mulhu, .mulw, .div, .divu, .rem, .remu, .mad]

/-- ADR, unit 5: its assigned triggers from port 4 upward (R85, R88-R103). -/
def unitAdrTriggers : List (Trig → Instr) :=
  [.xa, .xab, .xlen, .idx, .openx, .hdl]

/-- LDS, unit 6: its assigned triggers from port 4 upward (R85, R88-R103). -/
def unitLdsTriggers : List (Trig → Instr) :=
  [.ldb, .ldbs, .ldh, .ldhs, .ldw, .ldws, .ldd, .ldv, .ldvs, .ldvg, .stb, .sth, .stw, .std, .stv,
   .stvm, .stvs, .stvx, .ldx, .ldxv, .stx, .stxv, .ltag]

/-- MSG, unit 7: its assigned triggers from port 4 upward (R85, R88-R103). -/
def unitMsgTriggers : List (Trig → Instr) :=
  [.send, .copy, .stream, .free, .close, .gathr, .kexp, .kclr, .krd, .qfence, .promise]

/-- SYN, unit 8: its assigned triggers from port 4 upward (R85, R88-R103). -/
def unitSynTriggers : List (Trig → Instr) :=
  [.aadd, .amin, .amax, .aand, .aor, .axor, .aswp, .acas, .afadd, .red, .frd, .fwr, .frst, .barr,
   .barw, .bard, .bartw, .barq]

/-- WRK, unit 9: its assigned triggers from port 4 upward (R85, R88-R103). -/
def unitWrkTriggers : List (Trig → Instr) :=
  [.capnew, .capsend, .capins, .capdel, .capset, .capfork, .capnxt, .capfin, .caprd, .nextw,
   .spawn, .regroup, .enq]

/-- VEC, unit 10: its assigned triggers from port 4 upward (R85, R88-R103). -/
def unitVecTriggers : List (Trig → Instr) :=
  [.addF32, .subF32, .mulF32, .fmaF32, .minF32, .maxF32, .absF32, .addH, .mulH, .fmaH, .mulwlH,
   .mulwhH, .addB, .fmaB, .addI32, .subI32, .mulI32, .dot4I8, .addsI8, .vecAnd, .vecOr, .vecXor,
   .vecShl, .vecShr, .vecSar, .vecSel]

/-- VCV, unit 11: its assigned triggers from port 4 upward (R85, R88-R103). -/
def unitVcvTriggers : List (Trig → Instr) :=
  [.cmpeqF32, .cmpltF32, .cmpleF32, .cmpeqI32, .cmpltI32, .cvtlF32H, .cvthF32H, .cvtHF32, .cvtBF32,
   .cvtE4F32, .cvtF32E4, .cvtI32F32, .cvtF32I32, .rsumF32, .rmaxF32, .rsumI32, .bcast, .ins, .ext,
   .iota, .msk]

/-- VAX, unit 12: its assigned triggers from port 4 upward (R85, R88-R103). -/
def unitVaxTriggers : List (Trig → Instr) :=
  [.rsq, .rcp, .exp2, .log2, .tanh, .sigm, .perm, .rot, .cmp24, .cmp48, .expd]

/-- TRN, unit 13: its assigned triggers from port 4 upward (R85, R88-R103). -/
def unitTrnTriggers : List (Trig → Instr) :=
  [.trset, .trin, .trout]

/-- MTX, unit 14: its assigned triggers from port 4 upward (R85, R88-R103). -/
def unitMtxTriggers : List (Trig → Instr) :=
  [.push, .pusha, .shift, .loadw, .loadm, .swap, .drain, .aclr, .amode, .scala, .scalw]

/-- COL, unit 15: its assigned triggers from port 4 upward (R85, R88-R103). -/
def unitColTriggers : List (Trig → Instr) :=
  [.sload, .spart, .fire, .swtok, .cdrain, .ctrap, .cres, .cabort, .cstat, .npar]

/-- The triggers of unit u (R85). -/
def unitTriggers (u : Nat) : List (Trig → Instr) :=
  match u with
  | 0 => unitCtlTriggers
  | 1 => unitSysTriggers
  | 2 => unitInaTriggers
  | 3 => unitInbTriggers
  | 4 => unitImdTriggers
  | 5 => unitAdrTriggers
  | 6 => unitLdsTriggers
  | 7 => unitMsgTriggers
  | 8 => unitSynTriggers
  | 9 => unitWrkTriggers
  | 10 => unitVecTriggers
  | 11 => unitVcvTriggers
  | 12 => unitVaxTriggers
  | 13 => unitTrnTriggers
  | 14 => unitMtxTriggers
  | 15 => unitColTriggers
  | _ => []

/-- R55, R58, R59, R64: the form-00 move with these fields. -/
def decodePlain (sync : Bool) (src : Src) (w : Bool) (d : BitVec 10) : Except DecodeError Instr :=
  if d.getLsbD 9 then
    let unit := d.extractLsb' 5 4
    let port := d.extractLsb' 0 5
    if port.toNat < 4 then
      if w then .error .illegalDestination else .ok (.operandPortWrite sync src unit (d.extractLsb' 0 2))
    else
      match (unitTriggers unit.toNat)[port.toNat - 4]? with
      | some f => .ok (f { sync := sync, src := src, w := w })
      | none => .error .illegalDestination
  else if w then .error .illegalDestination
  else if d.toNat < 0x080 then .ok (.move sync src (.m (d.extractLsb' 0 7)))
  else if d.toNat < 0x090 then .ok (.move sync src (.s (d.extractLsb' 0 4)))
  else if d.toNat < 0x0C0 then .error .illegalDestination
  else if d.toNat < 0x0E0 then .ok (.move sync src (.v (d.extractLsb' 0 5)))
  else
    match d.toNat with
    | 0x0E0 => .ok (.loopCounterWrite sync src false)
    | 0x0E1 => .ok (.loopCounterWrite sync src true)
    | 0x0E2 => .ok (.lkWrite sync src)
    | 0x0E3 => .ok (.flagsWrite sync src)
    | 0x0E4 => .ok (.vrcWrite sync src)
    | 0x0E5 => .ok (.alarmWrite sync src)
    | 0x0E6 => .ok (.kselWrite sync src)
    | _ => .error .illegalDestination

/-- R62, R63: the control item with this op and argument. -/
def decodeControl (sync : Bool) (op : BitVec 5) (arg : BitVec 16) : Except DecodeError Instr :=
  let n := arg.extractLsb' 2 2
  let k := arg.extractLsb' 4 2
  match op.toNat with
  | 0 => if arg = 0 then .ok (.nop sync) else .error .illegalForm
  | 1 => if arg = 0 then .ok (.yield sync) else .error .illegalForm
  | 2 =>
    if arg.extractLsb' 6 10 ≠ 0 then .error .illegalForm
    else match (arg.extractLsb' 0 2).toNat with
      | 0 => if k = 0 then .ok (.suspendR sync n) else .error .illegalForm
      | 1 => if k.toNat ≤ n.toNat then .ok (.suspendF sync n k) else .error .illegalForm
      | 2 => if k = 0 then .ok (.suspendP sync n) else .error .illegalForm
      | _ => .error .illegalForm
  | 3 => if arg = 0 then .ok (.exit sync) else .error .illegalForm
  | 4 => if arg = 0 then .ok (.mark sync) else .error .illegalForm
  | 5 => if arg.extractLsb' 8 8 = 0 then .ok (.waitk sync (arg.extractLsb' 0 8)) else .error .illegalForm
  | _ => .error .illegalForm

/-- R55-R64: the instruction a move word stands for, or the trap that rejects it. -/
def decodeMove (x : MoveWord) : Except DecodeError Instr :=
  match (x.extractLsb' 22 2).toNat with
  | 0 =>
    match decodeSrc (x.extractLsb' 11 10) with
    | none => .error .illegalSource
    | some src => decodePlain (x.getLsbD 21) src (x.getLsbD 10) (x.extractLsb' 0 10)
  | 1 => .ok (.longImmediatePrefix (x.extractLsb' 0 22))
  | 2 => decodeControl (x.getLsbD 21) (x.extractLsb' 16 5) (x.extractLsb' 0 16)
  | _ => .error .illegalForm

/-- R55: the word of a form-00 move. -/
def plainWord (sync : Bool) (src : Src) (w : Bool) (d : BitVec 10) : MoveWord :=
  0b00#2 ++ BitVec.ofBool sync ++ encodeSrc src ++ BitVec.ofBool w ++ d

/-- R55, R85: the word of a trigger move. -/
def trigWord (t : Trig) (d : BitVec 10) : MoveWord := plainWord t.sync t.src t.w d

/-- R62: the word of a control item. -/
def controlWord (sync : Bool) (op : BitVec 5) (arg : BitVec 16) : MoveWord :=
  0b10#2 ++ BitVec.ofBool sync ++ op ++ arg

/-- The word of an instruction, from the encoding tables of R55-R63 and R85-R103; an instruction
that the opcode table gives no encoding (a device step, host command or event) has none. -/
def encode : Instr → Option MoveWord
  | .br t => some (trigWord t 0x204)
  | .brz t => some (trigWord t 0x205)
  | .brnz t => some (trigWord t 0x206)
  | .brn t => some (trigWord t 0x207)
  | .brnn t => some (trigWord t 0x208)
  | .jmp t => some (trigWord t 0x209)
  | .call t => some (trigWord t 0x20a)
  | .ret t => some (trigWord t 0x20b)
  | .loop0 t => some (trigWord t 0x20c)
  | .loop1 t => some (trigWord t 0x20d)
  | .lexit t => some (trigWord t 0x20e)
  | .trap t => some (trigWord t 0x20f)
  | .brk t => some (trigWord t 0x210)
  | .sleep t => some (trigWord t 0x211)
  | .waitl t => some (trigWord t 0x212)
  | .fence t => some (trigWord t 0x224)
  | .rdsr t => some (trigWord t 0x225)
  | .wrsr t => some (trigWord t 0x226)
  | .rft t => some (trigWord t 0x227)
  | .sclr t => some (trigWord t 0x228)
  | .fmtb t => some (trigWord t 0x229)
  | .bclaim t => some (trigWord t 0x22a)
  | .brel t => some (trigWord t 0x22b)
  | .evsel t => some (trigWord t 0x22c)
  | .evrd t => some (trigWord t 0x22d)
  | .add t inb => some (trigWord t (if inb then 0x264 else 0x244))
  | .sub t inb => some (trigWord t (if inb then 0x265 else 0x245))
  | .and t inb => some (trigWord t (if inb then 0x266 else 0x246))
  | .or t inb => some (trigWord t (if inb then 0x267 else 0x247))
  | .xor t inb => some (trigWord t (if inb then 0x268 else 0x248))
  | .andn t inb => some (trigWord t (if inb then 0x269 else 0x249))
  | .shl t inb => some (trigWord t (if inb then 0x26a else 0x24a))
  | .shr t inb => some (trigWord t (if inb then 0x26b else 0x24b))
  | .sar t inb => some (trigWord t (if inb then 0x26c else 0x24c))
  | .rol t inb => some (trigWord t (if inb then 0x26d else 0x24d))
  | .min t inb => some (trigWord t (if inb then 0x26e else 0x24e))
  | .max t inb => some (trigWord t (if inb then 0x26f else 0x24f))
  | .minu t inb => some (trigWord t (if inb then 0x270 else 0x250))
  | .maxu t inb => some (trigWord t (if inb then 0x271 else 0x251))
  | .ceq t inb => some (trigWord t (if inb then 0x272 else 0x252))
  | .cne t inb => some (trigWord t (if inb then 0x273 else 0x253))
  | .clt t inb => some (trigWord t (if inb then 0x274 else 0x254))
  | .cltu t inb => some (trigWord t (if inb then 0x275 else 0x255))
  | .cle t inb => some (trigWord t (if inb then 0x276 else 0x256))
  | .cleu t inb => some (trigWord t (if inb then 0x277 else 0x257))
  | .sel t inb => some (trigWord t (if inb then 0x278 else 0x258))
  | .mov t inb => some (trigWord t (if inb then 0x279 else 0x259))
  | .clz t inb => some (trigWord t (if inb then 0x27a else 0x25a))
  | .popc t inb => some (trigWord t (if inb then 0x27b else 0x25b))
  | .addw t inb => some (trigWord t (if inb then 0x27c else 0x25c))
  | .subw t inb => some (trigWord t (if inb then 0x27d else 0x25d))
  | .bfx t inb => some (trigWord t (if inb then 0x27e else 0x25e))
  | .bfi t inb => some (trigWord t (if inb then 0x27f else 0x25f))
  | .mul t => some (trigWord t 0x284)
  | .mulh t => some (trigWord t 0x285)
  | .mulhu t => some (trigWord t 0x286)
  | .mulw t => some (trigWord t 0x287)
  | .div t => some (trigWord t 0x288)
  | .divu t => some (trigWord t 0x289)
  | .rem t => some (trigWord t 0x28a)
  | .remu t => some (trigWord t 0x28b)
  | .mad t => some (trigWord t 0x28c)
  | .xa t => some (trigWord t 0x2a4)
  | .xab t => some (trigWord t 0x2a5)
  | .xlen t => some (trigWord t 0x2a6)
  | .idx t => some (trigWord t 0x2a7)
  | .openx t => some (trigWord t 0x2a8)
  | .hdl t => some (trigWord t 0x2a9)
  | .ldb t => some (trigWord t 0x2c4)
  | .ldbs t => some (trigWord t 0x2c5)
  | .ldh t => some (trigWord t 0x2c6)
  | .ldhs t => some (trigWord t 0x2c7)
  | .ldw t => some (trigWord t 0x2c8)
  | .ldws t => some (trigWord t 0x2c9)
  | .ldd t => some (trigWord t 0x2ca)
  | .ldv t => some (trigWord t 0x2cb)
  | .ldvs t => some (trigWord t 0x2cc)
  | .ldvg t => some (trigWord t 0x2cd)
  | .stb t => some (trigWord t 0x2ce)
  | .sth t => some (trigWord t 0x2cf)
  | .stw t => some (trigWord t 0x2d0)
  | .std t => some (trigWord t 0x2d1)
  | .stv t => some (trigWord t 0x2d2)
  | .stvm t => some (trigWord t 0x2d3)
  | .stvs t => some (trigWord t 0x2d4)
  | .stvx t => some (trigWord t 0x2d5)
  | .ldx t => some (trigWord t 0x2d6)
  | .ldxv t => some (trigWord t 0x2d7)
  | .stx t => some (trigWord t 0x2d8)
  | .stxv t => some (trigWord t 0x2d9)
  | .ltag t => some (trigWord t 0x2da)
  | .send t => some (trigWord t 0x2e4)
  | .copy t => some (trigWord t 0x2e5)
  | .stream t => some (trigWord t 0x2e6)
  | .free t => some (trigWord t 0x2e7)
  | .close t => some (trigWord t 0x2e8)
  | .gathr t => some (trigWord t 0x2e9)
  | .kexp t => some (trigWord t 0x2ea)
  | .kclr t => some (trigWord t 0x2eb)
  | .krd t => some (trigWord t 0x2ec)
  | .qfence t => some (trigWord t 0x2ed)
  | .promise t => some (trigWord t 0x2ee)
  | .aadd t => some (trigWord t 0x304)
  | .amin t => some (trigWord t 0x305)
  | .amax t => some (trigWord t 0x306)
  | .aand t => some (trigWord t 0x307)
  | .aor t => some (trigWord t 0x308)
  | .axor t => some (trigWord t 0x309)
  | .aswp t => some (trigWord t 0x30a)
  | .acas t => some (trigWord t 0x30b)
  | .afadd t => some (trigWord t 0x30c)
  | .red t => some (trigWord t 0x30d)
  | .frd t => some (trigWord t 0x30e)
  | .fwr t => some (trigWord t 0x30f)
  | .frst t => some (trigWord t 0x310)
  | .barr t => some (trigWord t 0x311)
  | .barw t => some (trigWord t 0x312)
  | .bard t => some (trigWord t 0x313)
  | .bartw t => some (trigWord t 0x314)
  | .barq t => some (trigWord t 0x315)
  | .capnew t => some (trigWord t 0x324)
  | .capsend t => some (trigWord t 0x325)
  | .capins t => some (trigWord t 0x326)
  | .capdel t => some (trigWord t 0x327)
  | .capset t => some (trigWord t 0x328)
  | .capfork t => some (trigWord t 0x329)
  | .capnxt t => some (trigWord t 0x32a)
  | .capfin t => some (trigWord t 0x32b)
  | .caprd t => some (trigWord t 0x32c)
  | .nextw t => some (trigWord t 0x32d)
  | .spawn t => some (trigWord t 0x32e)
  | .regroup t => some (trigWord t 0x32f)
  | .enq t => some (trigWord t 0x330)
  | .addF32 t => some (trigWord t 0x344)
  | .subF32 t => some (trigWord t 0x345)
  | .mulF32 t => some (trigWord t 0x346)
  | .fmaF32 t => some (trigWord t 0x347)
  | .minF32 t => some (trigWord t 0x348)
  | .maxF32 t => some (trigWord t 0x349)
  | .absF32 t => some (trigWord t 0x34a)
  | .addH t => some (trigWord t 0x34b)
  | .mulH t => some (trigWord t 0x34c)
  | .fmaH t => some (trigWord t 0x34d)
  | .mulwlH t => some (trigWord t 0x34e)
  | .mulwhH t => some (trigWord t 0x34f)
  | .addB t => some (trigWord t 0x350)
  | .fmaB t => some (trigWord t 0x351)
  | .addI32 t => some (trigWord t 0x352)
  | .subI32 t => some (trigWord t 0x353)
  | .mulI32 t => some (trigWord t 0x354)
  | .dot4I8 t => some (trigWord t 0x355)
  | .addsI8 t => some (trigWord t 0x356)
  | .vecAnd t => some (trigWord t 0x357)
  | .vecOr t => some (trigWord t 0x358)
  | .vecXor t => some (trigWord t 0x359)
  | .vecShl t => some (trigWord t 0x35a)
  | .vecShr t => some (trigWord t 0x35b)
  | .vecSar t => some (trigWord t 0x35c)
  | .vecSel t => some (trigWord t 0x35d)
  | .cmpeqF32 t => some (trigWord t 0x364)
  | .cmpltF32 t => some (trigWord t 0x365)
  | .cmpleF32 t => some (trigWord t 0x366)
  | .cmpeqI32 t => some (trigWord t 0x367)
  | .cmpltI32 t => some (trigWord t 0x368)
  | .cvtlF32H t => some (trigWord t 0x369)
  | .cvthF32H t => some (trigWord t 0x36a)
  | .cvtHF32 t => some (trigWord t 0x36b)
  | .cvtBF32 t => some (trigWord t 0x36c)
  | .cvtE4F32 t => some (trigWord t 0x36d)
  | .cvtF32E4 t => some (trigWord t 0x36e)
  | .cvtI32F32 t => some (trigWord t 0x36f)
  | .cvtF32I32 t => some (trigWord t 0x370)
  | .rsumF32 t => some (trigWord t 0x371)
  | .rmaxF32 t => some (trigWord t 0x372)
  | .rsumI32 t => some (trigWord t 0x373)
  | .bcast t => some (trigWord t 0x374)
  | .ins t => some (trigWord t 0x375)
  | .ext t => some (trigWord t 0x376)
  | .iota t => some (trigWord t 0x377)
  | .msk t => some (trigWord t 0x378)
  | .rsq t => some (trigWord t 0x384)
  | .rcp t => some (trigWord t 0x385)
  | .exp2 t => some (trigWord t 0x386)
  | .log2 t => some (trigWord t 0x387)
  | .tanh t => some (trigWord t 0x388)
  | .sigm t => some (trigWord t 0x389)
  | .perm t => some (trigWord t 0x38a)
  | .rot t => some (trigWord t 0x38b)
  | .cmp24 t => some (trigWord t 0x38c)
  | .cmp48 t => some (trigWord t 0x38d)
  | .expd t => some (trigWord t 0x38e)
  | .trset t => some (trigWord t 0x3a4)
  | .trin t => some (trigWord t 0x3a5)
  | .trout t => some (trigWord t 0x3a6)
  | .push t => some (trigWord t 0x3c4)
  | .pusha t => some (trigWord t 0x3c5)
  | .shift t => some (trigWord t 0x3c6)
  | .loadw t => some (trigWord t 0x3c7)
  | .loadm t => some (trigWord t 0x3c8)
  | .swap t => some (trigWord t 0x3c9)
  | .drain t => some (trigWord t 0x3ca)
  | .aclr t => some (trigWord t 0x3cb)
  | .amode t => some (trigWord t 0x3cc)
  | .scala t => some (trigWord t 0x3cd)
  | .scalw t => some (trigWord t 0x3ce)
  | .sload t => some (trigWord t 0x3e4)
  | .spart t => some (trigWord t 0x3e5)
  | .fire t => some (trigWord t 0x3e6)
  | .swtok t => some (trigWord t 0x3e7)
  | .cdrain t => some (trigWord t 0x3e8)
  | .ctrap t => some (trigWord t 0x3e9)
  | .cres t => some (trigWord t 0x3ea)
  | .cabort t => some (trigWord t 0x3eb)
  | .cstat t => some (trigWord t 0x3ec)
  | .npar t => some (trigWord t 0x3ed)
  | .move sync src dst => some (plainWord sync src false (encodeDst dst))
  | .operandPortWrite sync src unit port => some (plainWord sync src false (0b1#1 ++ unit ++ 0b000#3 ++ port))
  | .loopCounterWrite sync src second => some (plainWord sync src false (if second then 0x0E1 else 0x0E0))
  | .lkWrite sync src => some (plainWord sync src false 0x0E2)
  | .flagsWrite sync src => some (plainWord sync src false 0x0E3)
  | .vrcWrite sync src => some (plainWord sync src false 0x0E4)
  | .alarmWrite sync src => some (plainWord sync src false 0x0E5)
  | .kselWrite sync src => some (plainWord sync src false 0x0E6)
  | .longImmediatePrefix payload => some (0b01#2 ++ payload)
  | .nop sync => some (controlWord sync 0 0)
  | .yield sync => some (controlWord sync 1 0)
  | .suspendR sync n => some (controlWord sync 2 (0#12 ++ n ++ 0b00#2))
  | .suspendF sync n k => some (controlWord sync 2 (0#10 ++ k ++ n ++ 0b01#2))
  | .suspendP sync n => some (controlWord sync 2 (0#12 ++ n ++ 0b10#2))
  | .exit sync => some (controlWord sync 3 0)
  | .mark sync => some (controlWord sync 4 0)
  | .waitk sync mask => some (controlWord sync 5 (0#8 ++ mask))
  | .bundleDecode => none
  | .bundleReloadDone => none
  | .resultEmerge => none
  | .landing => none
  | .landingDataArrival => none
  | .landingTimeout => none
  | .trapEntry => none
  | .pageFaultReport => none
  | .alarmExpiry => none
  | .sleepWake => none
  | .strandSwitch => none
  | .implicitMark => none
  | .recordArrival => none
  | .strandRelease => none
  | .pageWalkComplete => none
  | .hostEnqueue => none
  | .qstatWrite => none
  | .launchDequeue => none
  | .recordGenerate => none
  | .dispatch => none
  | .gangDispatch => none
  | .agingPromotion => none
  | .codeLoadDone => none
  | .launchCompletion => none
  | .faultRingRecheck => none
  | .switchTokenTake => none
  | .decodeToken => none
  | .parityRepairDone => none
  | .normRow => none
  | .gateToken => none
  | .promoteEntry => none
  | .drainAtPromote => none
  | .aclrAtPromote => none
  | .swapAtPe => none
  | .affineToken => none
  | .activateToken => none
  | .convertToken => none
  | .cornerBlock => none
  | .reduceToken => none
  | .smaxBurst => none
  | .joinToken => none
  | .portScratchpadRead => none
  | .portScratchpadWrite => none
  | .portNetworkIn => none
  | .portNetworkOut => none
  | .doneToken => none
  | .orderingToken => none
  | .slateLoadDone => none
  | .regionLoadRequest => none
  | .regionLoadReport => none
  | .regionCommit => none
  | .regionWithhold => none
  | .cabortComplete => none
  | .walkCommandStart => none
  | .walkBurst => none
  | .freedSlotNotice => none
  | .streamBurstArrival => none
  | .copyDelivery => none
  | .sendDelivery => none
  | .keyCredit => none
  | .closeAck => none
  | .promiseWatchExpiry => none
  | .routerForward => none
  | .capsuleParkTimeout => none
  | .capsuleArrival => none
  | .capsuleVisitStart => none
  | .meetArrival => none
  | .capsuleReturnDelivery => none
  | .remoteAccessPerform => none
  | .mordantAtomic => none
  | .mordantRed => none
  | .frdPerform => none
  | .fwrPerform => none
  | .frstPerform => none
  | .futureDeferral => none
  | .fillWalkStep => none
  | .barrierArrival => none
  | .barqPerform => none
  | .timedWaiterDeadline => none
  | .ridgeRelease => none
  | .releaseNoticeEmit => none
  | .releaseWindowEnd => none
  | .barrierWake => none
  | .hbmRead => none
  | .hbmWrite => none
  | .revivalDone => none
  | .reclaimDone => none
  | .migrationCopyStart => none
  | .migrationCopyDone => none
  | .shootdownComplete => none
  | .burstApply => none
  | .appliedNotice => none
  | .zportBurstSend => none
  | .freezeStart => none
  | .freezeMarker => none
  | .freezeComplete => none
  | .evictDone => none
  | .flitReceive => none
  | .replayRequestReceive => none
  | .laneFailing => none
  | .replayThresholdFence => none
  | .linkTrainingDone => none
  | .linkDrainAcknowledged => none
  | .clockGate => none
  | .wakeRequest => none
  | .inrushAdmit => none
  | .currentSample => none
  | .boostClaimArrival => none
  | .boostBoundary => none
  | .railSettled => none
  | .sensorSample => none
  | .moduleReset => none
  | .portBReset => none
  | .bringupStepDone => none
  | .electionWindowEnd => none
  | .ownerLost => none
  | .hostMemoryRead => none
  | .hostMemoryWrite => none
  | .registerWrite => none
  | .claim => none
  | .handover => none
  | .reset => none
  | .status => none
  | .ctxCreate => none
  | .ctxBind => none
  | .ctxFreeze => none
  | .ctxThaw => none
  | .ctxEvict => none
  | .ctxDestroy => none
  | .queuePause => none
  | .queueResume => none
  | .kernelInstall => none
  | .kernelRemove => none
  | .ptRoot => none
  | .tlbShootdown => none
  | .pageMigrate => none
  | .pageReclaim => none
  | .rawRead => none
  | .sensorRead => none
  | .counterRead => none
  | .eventRead => none
  | .linkTrain => none
  | .linkRetrain => none
  | .linkRetrainLaneReset => none
  | .linkDrain => none
  | .linkSetRwinRthr => none
  | .linkEventMsixEnable => none
  | .attest => none
  | .identityCert => none
  | .outputRead => none
  | .mbgoWrite => none
  | .hostLinkDown => none
  | .hostLinkUp => none
  | .meetEntryClear => none

/-- The instruction the decoder reads from a table row's bits. Every encoded row is one 24-bit move
(R50); the remaining rows have no encoding. -/
def decodeTableWord (nbits w : Nat) : Option Instr :=
  if nbits = 24 && decide (w < 2 ^ 24) then
    match decodeMove (BitVec.ofNat 24 w) with
    | .ok i => some i
    | .error _ => none
  else none

/-! ### Fields read straight from a word -/

/-- The move of slot k of a bundle (R2). -/
def bundleMove (b : Bundle) (k : Nat) : MoveWord := b.extractLsb' (24 * k) 24

/-- The bundle whose slot k holds the k-th word, absent words 0. -/
def packBundle (ws : List MoveWord) : Bundle :=
  ws.foldr (fun w acc => (acc <<< 24) ||| w.setWidth 192) 0

/-- A form-01 word (R61). -/
def isPrefix (x : MoveWord) : Bool := x.extractLsb' 22 2 = 0b01#2

/-- A form-00 word whose source is `limm` (R61). -/
def readsLimm (x : MoveWord) : Bool := x.extractLsb' 22 2 = 0b00#2 && x.extractLsb' 11 10 = 0x0F2#10

/-- A form-00 word whose destination is a trigger port (R58). -/
def isTriggerWord (x : MoveWord) : Bool :=
  x.extractLsb' 22 2 = 0b00#2 && x.getLsbD 9 && decide (4 ≤ (x.extractLsb' 0 5).toNat)

/-- The unit of a unit-space destination (R58). -/
def wordUnit (x : MoveWord) : Nat := (x.extractLsb' 5 4).toNat

/-- The port of a unit-space destination (R58). -/
def wordPort (x : MoveWord) : Nat := (x.extractLsb' 0 5).toNat

/-- R51: the slot that owns a unit's trigger ports. -/
def unitSlot (u : Nat) : Nat :=
  match u with
  | 0 | 1 | 2 => 0
  | 3 | 4 => 1
  | 5 => 2
  | 6 => 3
  | 7 | 8 | 9 => 4
  | 10 | 11 => 5
  | 12 | 13 => 6
  | _ => 7

/-- R61: the number of prefixes directly below slot k. -/
def prefixesBelow (b : Bundle) : Nat → Nat
  | 0 => 0
  | k + 1 => if isPrefix (bundleMove b k) then prefixesBelow b k + 1 else 0

/-- The payload of a prefix (R61). -/
def payload (x : MoveWord) : Nat := (x.extractLsb' 0 22).toNat

/-- R61: the value of `limm` for the consumer in slot k: one prefix sign-extends 22 bits, two sign-extend 44,
three give the low 64 bits of the 66-bit concatenation. With no chain below (never decoded), 0. -/
def limmValue (b : Bundle) (k : Nat) : W64 :=
  match prefixesBelow b k with
  | 0 => 0
  | 1 => (BitVec.ofNat 22 (payload (bundleMove b (k - 1)))).signExtend 64
  | 2 => (BitVec.ofNat 44 (payload (bundleMove b (k - 2)) * 2 ^ 22 + payload (bundleMove b (k - 1)))).signExtend 64
  | _ => BitVec.ofNat 64 (payload (bundleMove b (k - 3)) * 2 ^ 44 + payload (bundleMove b (k - 2)) * 2 ^ 22
           + payload (bundleMove b (k - 1)))

/-! ### Trigger classes and bundle legality -/

/-- The classes of R87, with the three control items that count with them. -/
inductive MoveClass where
  | transfer | yielding | ending | trapClass | yieldOp | suspendOp | exitOp
deriving DecidableEq, Repr

/-- R87: the class of an instruction, if it has one. -/
def Instr.moveClass : Instr → Option MoveClass
  | .br _ | .brz _ | .brnz _ | .brn _ | .brnn _ | .jmp _ | .call _ | .ret _ | .lexit _ => some .transfer
  | .sleep _ | .waitl _ | .barw _ | .bartw _ => some .yielding
  | .regroup _ | .capnxt _ | .capfin _ => some .ending
  | .trap _ | .brk _ | .rft _ => some .trapClass
  | .yield _ => some .yieldOp
  | .suspendR _ _ | .suspendF _ _ _ | .suspendP _ _ => some .suspendOp
  | .exit _ => some .exitOp
  | _ => none

/-- R199: the four trigger classes barred from a loop's last two bundles. -/
def MoveClass.isTriggerClass : MoveClass → Bool
  | .transfer | .yielding | .ending | .trapClass => true
  | .yieldOp | .suspendOp | .exitOp => false

/-- What the decoder must know of a bundle's place: whether it is a delay bundle (R87), and whether it is the last
bundle of an active loop's body or the bundle before it (R199). -/
structure BundlePlace where
  delay    : Bool
  loopTail : Bool
deriving DecidableEq, Repr

/-- R61: the fault of slot k's part in a prefix chain. -/
def chainFault (b : Bundle) (k : Nat) : Bool :=
  let x := bundleMove b k
  if isPrefix x then
    -- the first prefix of a chain answers for the whole chain
    let first := prefixesBelow b k = 0
    let n := (List.range 8).foldl (fun n j => if j = k + n && isPrefix (bundleMove b j) then n + 1 else n) 0
    first && (decide (3 < n) || decide (8 ≤ k + n) || !readsLimm (bundleMove b (k + n)))
  else readsLimm x && prefixesBelow b k = 0

/-- R51, R62: whether slot k may hold the word. -/
def slotFault (k : Nat) (x : MoveWord) (i : Instr) : Option DecodeError :=
  if isTriggerWord x then
    if unitSlot (wordUnit x) = k then none else some .slotOwnership
  else match i with
    | .yield _ | .suspendR _ _ | .suspendF _ _ _ | .suspendP _ _ | .exit _ | .mark _ =>
      if k = 0 then none else some .illegalForm
    | _ => none

/-- The instructions of a bundle that decode, slot by slot. -/
def bundleInstrs (b : Bundle) : List (Option Instr) :=
  (List.range 8).map fun k => (decodeMove (bundleMove b k)).toOption

/-- R87: the classes that a bundle holds. -/
def bundleClasses (b : Bundle) : List MoveClass :=
  (bundleInstrs b).filterMap fun i => i.bind Instr.moveClass

/-- Whether a bundle holds `mark` (R87). -/
def bundleHasMark (b : Bundle) : Bool :=
  (bundleInstrs b).any fun i => match i with | some (.mark _) => true | _ => false

/-- R87, R199: whether the classed item of slot k breaks a rule on where it stands. [Assumption 15: DEDUCED.] -/
def classFault (b : Bundle) (p : BundlePlace) (i : Instr) : Bool :=
  match i.moveClass with
  | some c => decide (1 < (bundleClasses b).length) || p.delay || bundleHasMark b || (p.loopTail && c.isTriggerClass)
  | none => (match i with | .mark _ => true | _ => false) && decide (0 < (bundleClasses b).length)

/-- R64: the fault of slot k, if any. Within one move the lowest-numbered cause stands. [Assumption 15: DEDUCED.] -/
def moveFault (b : Bundle) (p : BundlePlace) (k : Nat) : Option DecodeError :=
  let x := bundleMove b k
  if chainFault b k then some .illegalForm
  else match decodeMove x with
    | .error .illegalForm => some .illegalForm
    | .error e => some e
    | .ok i => if classFault b p i then some .illegalForm else slotFault k x i

/-- R64: the lowest-numbered offending slot of a bundle with its cause. [Assumption 15: DEDUCED.] -/
def bundleFault (b : Bundle) (p : BundlePlace) : Option (Nat × DecodeError) :=
  (List.range 8).findSome? fun k => (moveFault b p k).map fun e => (k, e)

/-- R72, R87: whether a bundle is a full sync point. -/
def isFullSync (b : Bundle) : Bool := !(bundleClasses b).isEmpty

/-- R196, R198: whether a bundle holds a transfer, so that a delay bundle follows it. -/
def holdsTransfer (b : Bundle) : Bool := (bundleClasses b).contains .transfer

end Sys2Proof
end

