-- ==== Sys2Proof/Machine/Fp.lean ====
section
/-! DEFINITION. Number formats, rounding and exact arithmetic (R30-R43, R176, R185). Values are computed
exactly as signed integers times powers of two and rounded once. -/

namespace Sys2Proof.Machine

/-! ### Formats -/

/-- A floating-point element format (R30): exponent bias, fraction bits, width, the magnitude code of the largest finite
value, the code of infinity where the format has one, and the canonical NaN (R31). -/
structure Fmt where
  width   : Nat
  bias    : Int
  frac    : Nat
  maxCode : Nat
  infCode : Option Nat
  nanCode : Nat
deriving DecidableEq, Repr

def fp32 : Fmt := ⟨32, 127, 23, 0x7F7FFFFF, some 0x7F800000, 0x7FC00000⟩
def fp16 : Fmt := ⟨16, 15, 10, 0x7BFF, some 0x7C00, 0x7E00⟩
def bf16 : Fmt := ⟨16, 127, 7, 0x7F7F, some 0x7F80, 0x7FC0⟩
def e4m3 : Fmt := ⟨8, 7, 3, 0x7E, none, 0x7F⟩
def e5m2 : Fmt := ⟨8, 15, 2, 0x7B, some 0x7C, 0x7E⟩

/-- An exact value: NaN, an infinity, or ±m·2^e. A zero keeps its sign. -/
inductive Num where
  | nan
  | inf (neg : Bool)
  | fin (neg : Bool) (m : Nat) (e : Int)
deriving DecidableEq, Repr

namespace Num
/-- The sign bit; NaN counts as positive (R31). -/
def neg : Num → Bool
  | .nan => false
  | .inf s => s
  | .fin s _ _ => s

def isZero : Num → Bool
  | .fin _ m _ => m == 0
  | _ => false

def isNan : Num → Bool
  | .nan => true
  | _ => false

def isInf : Num → Bool
  | .inf _ => true
  | _ => false

def negate : Num → Num
  | .nan => .nan
  | .inf s => .inf !s
  | .fin s m e => .fin (!s) m e
end Num

/-- The value of a code of a format (R30). -/
def Fmt.decode (f : Fmt) (code : Nat) : Num :=
  let s := code.testBit (f.width - 1)
  let mag := code % 2 ^ (f.width - 1)
  if f.infCode = some mag then .inf s
  else if f.maxCode < mag then .nan
  else
    let ex := mag / 2 ^ f.frac
    let fr := mag % 2 ^ f.frac
    if ex = 0 then .fin s fr (1 - f.bias - f.frac)
    else .fin s (2 ^ f.frac + fr) (ex - f.bias - f.frac)

/-! ### Rounding -/

/-- The four rounding modes of R40. -/
inductive Round where
  | rne | rtz | rna | sr16
deriving DecidableEq, Repr

/-- Sticky-flag masks in the layout of R60. -/
def flagDZ  : BitVec 10 := 0x001
def flagOOR : BitVec 10 := 0x002
def flagMIS : BitVec 10 := 0x004
def flagINV : BitVec 10 := 0x008
def flagOVF : BitVec 10 := 0x010
def flagUNF : BitVec 10 := 0x020
def flagINX : BitVec 10 := 0x040
def flagSAT : BitVec 10 := 0x080
def flagNUL : BitVec 10 := 0x100
def flagDBL : BitVec 10 := 0x200

/-- The mask when the condition holds. -/
def flagIf (c : Bool) (f : BitVec 10) : BitVec 10 := if c then f else 0

/-- R40: the kept multiple m of ulp = 2^q for |x| = n·2^e, and whether anything was discarded. -/
def roundMult (mode : Round) (rnd : Nat) (n : Nat) (e q : Int) : Nat × Bool :=
  if q ≤ e then (n * 2 ^ (e - q).toNat, false)
  else
    let sh := (q - e).toNat
    let k := n / 2 ^ sh
    let r := n % 2 ^ sh
    let half := 2 ^ sh
    let up := match mode with
      | .rtz => false
      | .rne => decide (half < 2 * r) || (decide (2 * r = half) && k % 2 == 1)
      | .rna => decide (half ≤ 2 * r)
      | .sr16 => decide (65536 ≤ r * 65536 / 2 ^ sh + rnd)
    (if up then k + 1 else k, r != 0)

/-- The exponent of the leading bit of n·2^e (n ≠ 0). -/
def leadExp (n : Nat) (e : Int) : Int := n.log2 + e

/-- R40: the exponent of a format's ulp at n·2^e, clamped at the smallest normal. -/
def Fmt.ulpExp (f : Fmt) (n : Nat) (e : Int) : Int :=
  max (leadExp n e - f.frac) (1 - f.bias - f.frac)

/-- A rounded magnitude as a code with unbounded exponent, with its inexactness. -/
def Fmt.roundCode (f : Fmt) (mode : Round) (rnd : Nat) (n : Nat) (e : Int) : Nat × Bool :=
  if n = 0 then (0, false)
  else
    let q := f.ulpExp n e
    let (k, inx) := roundMult mode rnd n e q
    let field := (q - (1 - f.bias - f.frac)).toNat
    (field * 2 ^ f.frac + k, inx)

/-- A sign put on a magnitude code. -/
def Fmt.withSign (f : Fmt) (s : Bool) (mag : Nat) : Nat := if s then 2 ^ (f.width - 1) + mag else mag

/-- R43: what a magnitude beyond the largest finite value becomes. Saturation applies to the 8-bit formats; the wide formats
overflow to infinity except under RTZ. -/
def Fmt.overflowCode (f : Fmt) (mode : Round) (sat : Bool) (s : Bool) : Nat :=
  if mode = .rtz || sat then f.withSign s f.maxCode
  else match f.infCode with
    | some c => f.withSign s c
    | none => f.nanCode

/-- R43: what an infinite input becomes. -/
def Fmt.infinityCode (f : Fmt) (sat : Bool) (s : Bool) : Nat :=
  if sat then f.withSign s f.maxCode
  else match f.infCode with
    | some c => f.withSign s c
    | none => f.nanCode

/-- R40, R43, R176: a value narrowed to a format, with `OVF`, `UNF`, `INX` and, when saturating, `SAT`. -/
def Fmt.narrow (f : Fmt) (mode : Round) (sat : Bool) (rnd : Nat) (x : Num) : Nat × BitVec 10 :=
  match x with
  | .nan => (f.nanCode, 0)
  | .inf s => (f.infinityCode sat s, flagIf sat flagSAT)
  | .fin s n e =>
    let (c, inx) := f.roundCode mode rnd n e
    if f.maxCode < c then (f.overflowCode mode sat s, flagOVF ||| flagINX ||| flagIf sat flagSAT)
    else (f.withSign s c, flagIf (inx && decide (c < 2 ^ f.frac)) flagUNF ||| flagIf inx flagINX)

/-- RNE narrowing, the rounding of all arithmetic that is no conversion (R41, R176). -/
def Fmt.rne (f : Fmt) (x : Num) : Nat × BitVec 10 := f.narrow .rne false 0 x

/-! ### Exact arithmetic -/

/-- The exact sum of two finite values; an exact zero sum of opposite signs is +0 (IEEE 754-2019 under RNE). -/
def finAdd (s1 : Bool) (m1 : Nat) (e1 : Int) (s2 : Bool) (m2 : Nat) (e2 : Int) : Num :=
  let e := min e1 e2
  let a : Int := m1 * 2 ^ (e1 - e).toNat
  let b : Int := m2 * 2 ^ (e2 - e).toNat
  let r := (if s1 then -a else a) + (if s2 then -b else b)
  if r = 0 then .fin (s1 && s2) 0 e else .fin (decide (r < 0)) r.natAbs e

/-- R176: an exact sum with its invalid flag. -/
def numAdd (x y : Num) : Num × BitVec 10 :=
  match x, y with
  | .nan, _ => (.nan, 0)
  | _, .nan => (.nan, 0)
  | .inf s, .inf t => if s = t then (.inf s, 0) else (.nan, flagINV)
  | .inf s, _ => (.inf s, 0)
  | _, .inf t => (.inf t, 0)
  | .fin s m e, .fin t n f => (finAdd s m e t n f, 0)

/-- R176: an exact product with its invalid flag. -/
def numMul (x y : Num) : Num × BitVec 10 :=
  match x, y with
  | .nan, _ => (.nan, 0)
  | _, .nan => (.nan, 0)
  | .inf s, .inf t => (.inf (s != t), 0)
  | .inf s, .fin t n _ => if n = 0 then (.nan, flagINV) else (.inf (s != t), 0)
  | .fin s n _, .inf t => if n = 0 then (.nan, flagINV) else (.inf (s != t), 0)
  | .fin s m e, .fin t n f => (.fin (s != t) (m * n) (e + f), 0)

/-- R176: the exact x·y + z; an invalid product sets `INV` even when z is NaN. -/
def numFma (x y z : Num) : Num × BitVec 10 :=
  let (p, f1) := numMul x y
  let (r, f2) := numAdd p z
  (r, f1 ||| f2)

/-- Rounding of an exact result under RNE, its flags joined with those of the operation. -/
def Fmt.finish (f : Fmt) (r : Num × BitVec 10) : Nat × BitVec 10 :=
  let (c, g) := f.rne r.1
  (c, r.2 ||| g)

def Fmt.add (f : Fmt) (a b : Nat) : Nat × BitVec 10 := f.finish (numAdd (f.decode a) (f.decode b))
def Fmt.sub (f : Fmt) (a b : Nat) : Nat × BitVec 10 := f.finish (numAdd (f.decode a) (f.decode b).negate)
def Fmt.mul (f : Fmt) (a b : Nat) : Nat × BitVec 10 := f.finish (numMul (f.decode a) (f.decode b))
def Fmt.fma (f : Fmt) (a b c : Nat) : Nat × BitVec 10 :=
  f.finish (numFma (f.decode a) (f.decode b) (f.decode c))

/-- The order of two non-NaN values with -0 below +0 (R179). -/
def numLt (x y : Num) : Bool :=
  match x, y with
  | .nan, _ => false
  | _, .nan => false
  | .inf s, .inf t => s && !t
  | .inf s, _ => s
  | _, .inf t => !t
  | .fin s m e, .fin t n f =>
    match finAdd s m e (!t) n f with
    | .fin d k _ => if k = 0 then decide (m = 0) && s && !t else d
    | _ => false

/-- Numeric equality of R180: +0 = -0, NaN equals nothing. -/
def numEq (x y : Num) : Bool :=
  match x, y with
  | .nan, _ => false
  | _, .nan => false
  | .inf s, .inf t => s == t
  | .fin s m e, .fin t n f =>
    match finAdd s m e (!t) n f with
    | .fin _ k _ => k == 0
    | _ => false
  | _, _ => false

/-- R180: x < y with +0 = -0. -/
def numLess (x y : Num) : Bool := numLt x y && !numEq x y

/-- R179: the smaller operand, NaN if either is. -/
def Fmt.minOf (f : Fmt) (a b : Nat) : Nat :=
  let x := f.decode a; let y := f.decode b
  if x.isNan || y.isNan then f.nanCode else if numLt y x then b else a

/-- R179: the larger operand, NaN if either is. -/
def Fmt.maxOf (f : Fmt) (a b : Nat) : Nat :=
  let x := f.decode a; let y := f.decode b
  if x.isNan || y.isNan then f.nanCode else if numLt x y then b else a

/-- R43, R40: a value rounded to a signed integer of `bits` bits, with `INX`, `SAT` and `INV` (R181). -/
def numToInt (bits : Nat) (mode : Round) (rnd : Nat) (x : Num) : Int × BitVec 10 :=
  let hi : Int := 2 ^ (bits - 1) - 1
  let lo : Int := -(2 ^ (bits - 1))
  match x with
  | .nan => (0, flagINV)
  | .inf s => (if s then lo else hi, flagSAT)
  | .fin s n e =>
    let (k, inx) := roundMult mode rnd n e 0
    let v : Int := if s then -(k : Int) else k
    if v < lo then (lo, flagSAT ||| flagIf inx flagINX)
    else if hi < v then (hi, flagSAT ||| flagIf inx flagINX)
    else (v, flagIf inx flagINX)

/-- An integer as an exact value. -/
def intNum (v : Int) : Num := .fin (decide (v < 0)) v.natAbs 0

/-! ### The xorshift generator (R42) -/

/-- One advance of the generator. -/
def xorshift (x : BitVec 32) : BitVec 32 :=
  let x := x ^^^ (x <<< 13)
  let x := x ^^^ (x >>> 17)
  x ^^^ (x <<< 5)

/-- R42: a generator state as it is stored; zero would stay zero, so 1 is stored. -/
def generatorState (x : BitVec 32) : BitVec 32 := if x = 0 then 1 else x

/-- R42: the random word of a state just advanced to. -/
def randomWord (x : BitVec 32) : Nat := (x >>> 16).toNat

/-! ### Special functions (R185)

The reciprocal and the reciprocal square root are exact integer computations with a sticky bit. The transcendental functions
are evaluated in fixed point with `fxBits` fraction bits, far beyond what separates any FP32 argument's exact value
from a rounding boundary. -/

/-- The integer square root, bit by bit from bit k. -/
def isqrtBits (n : Nat) : Nat → Nat → Nat
  | 0, r => r
  | k + 1, r => let c := r + 2 ^ k; isqrtBits n k (if c * c ≤ n then c else r)

/-- ⌊√n⌋. -/
def isqrt (n : Nat) : Nat := isqrtBits n (n.log2 / 2 + 1) 0

/-- A non-negative value q·2^e with a mark that something non-zero lies below q. -/
def sticky (neg : Bool) (q : Nat) (e : Int) (more : Bool) : Num :=
  .fin neg (2 * q + (if more then 1 else 0)) (e - 1)

/-- The quotient a/b·2^e to 160 bits. -/
def divNum (neg : Bool) (a b : Nat) (e : Int) : Num :=
  let q := a * 2 ^ 320 / b
  sticky neg q (e - 320) (a * 2 ^ 320 % b != 0)

/-- R185: 1/x. [Assumption 21: PRESUMED.] -/
def numRcp (x : Num) : Num × BitVec 10 :=
  match x with
  | .nan => (.nan, 0)
  | .inf s => (.fin s 0 0, 0)
  | .fin s 0 _ => (.inf s, 0)
  | .fin s m e => (divNum s 1 m (-e), 0)

/-- R185: 1/√x. [Assumption 21: PRESUMED.] -/
def numRsq (x : Num) : Num × BitVec 10 :=
  match x with
  | .nan => (.nan, 0)
  | .inf true => (.nan, flagINV)
  | .inf false => (.fin false 0 0, 0)
  | .fin s 0 _ => (.inf s, 0)
  | .fin true _ _ => (.nan, flagINV)
  | .fin false m e =>
    -- make the exponent even, then 1/√(m·2^e) = √(2^400/m)·2^(-200 - e/2)
    let m := if e % 2 = 0 then m else 2 * m
    let e := if e % 2 = 0 then e else e - 1
    let q := isqrt (2 ^ 400 / m)
    (sticky false q (-200 - e / 2) (q * q * m != 2 ^ 400), 0)

/-- Fraction bits of the fixed-point evaluation. -/
def fxBits : Nat := 256
def fxOne : Nat := 2 ^ fxBits
/-- ⌊ln 2 · 2^256⌋. -/
def fxLn2 : Nat := 80260960185991308862233904206310070533990667611589946606122867505419956976171

/-- Σ z^k/k!, from term k on, in fixed point: the exponential's Taylor series. -/
def expSeries (z : Nat) : Nat → Nat → Nat → Nat → Nat
  | 0, _, _, acc => acc
  | fuel + 1, k, term, acc =>
    let t := term * z / fxOne / k
    expSeries z fuel (k + 1) t (acc + t)

/-- 2^f for 0 ≤ f < 1 in fixed point. [Assumption 21: PRESUMED.] -/
def fxExp2 (f : Nat) : Nat := expSeries (f * fxLn2 / fxOne) 70 1 fxOne fxOne

/-- 2^x for x = ±m·2^e with |x| below 512, as a mantissa in fixed point and a power of two. -/
def exp2Parts (neg : Bool) (m : Nat) (e : Int) : Nat × Int :=
  -- |x| in fixed point, then split into integer and fraction
  let a : Nat := if 0 ≤ e then m * 2 ^ e.toNat * fxOne else m * fxOne / 2 ^ (-e).toNat
  let more := decide (e < 0) && decide (m * fxOne % 2 ^ (-e).toNat ≠ 0)
  if neg then
    let up := a + (if more then 1 else 0)
    let n := (up + fxOne - 1) / fxOne
    (fxExp2 (n * fxOne - up), -(n : Int))
  else (fxExp2 (a % fxOne), (a / fxOne : Nat))

/-- Whether |m·2^e| is at least b. -/
def atLeast (m : Nat) (e : Int) (b : Nat) : Bool :=
  if 0 ≤ e then decide (b ≤ m * 2 ^ e.toNat) else decide (b * 2 ^ (-e).toNat ≤ m)

/-- Whether m·2^e is an integer. -/
def isIntegral (m : Nat) (e : Int) : Bool := decide (0 ≤ e) || decide (m % 2 ^ (-e).toNat = 0)

/-- R185: 2^x. An integral x is exact; a magnitude of 512 or more lies far beyond the format and is
given as a power that overflows or underflows. [Assumption 21: PRESUMED.] -/
def numExp2 (x : Num) : Num × BitVec 10 :=
  match x with
  | .nan => (.nan, 0)
  | .inf s => (if s then .fin false 0 0 else .inf false, 0)
  | .fin s m e =>
    if atLeast m e 512 then (.fin false 1 (if s then -512 else 512), 0)
    else if isIntegral m e then
      let n : Int := if 0 ≤ e then m * 2 ^ e.toNat else m / 2 ^ (-e).toNat
      (.fin false 1 (if s then -n else n), 0)
    else
      let (f, n) := exp2Parts s m e
      (sticky false f (n - fxBits) true, 0)

/-- Σ z^(2k+1)/(2k+1) in fixed point: the series of the inverse hyperbolic tangent. -/
def atanhSeries (z2 : Nat) : Nat → Nat → Nat → Nat → Nat
  | 0, _, _, acc => acc
  | fuel + 1, k, power, acc => atanhSeries z2 fuel (k + 2) (power * z2 / fxOne) (acc + power / k)

/-- log₂ of a mantissa 1 ≤ m < 2 given as a / 2^k, in fixed point. [Assumption 21: PRESUMED.] -/
def fxLog2 (a k : Nat) : Nat :=
  let z := (a - 2 ^ k) * fxOne / (a + 2 ^ k)
  2 * atanhSeries (z * z / fxOne) 90 1 z 0 * fxOne / fxLn2

/-- R185: log₂ x. [Assumption 21: PRESUMED.] -/
def numLog2 (x : Num) : Num × BitVec 10 :=
  match x with
  | .nan => (.nan, 0)
  | .inf true => (.nan, flagINV)
  | .inf false => (.inf false, 0)
  | .fin _ 0 _ => (.inf true, 0)
  | .fin true _ _ => (.nan, flagINV)
  | .fin false m e =>
    let n := leadExp m e
    if m = 2 ^ m.log2 then (intNum n, 0)
    else
      let f := fxLog2 m m.log2
      let v : Int := n * fxOne + f
      -- the exact logarithm lies just above v in fixed point
      if 0 ≤ v then (sticky false v.natAbs (-fxBits) true, 0)
      else (sticky true (v.natAbs - 1) (-fxBits) true, 0)

/-- e^x for x = ±m·2^e with |x| at most 256: a mantissa and a power of two. -/
def expParts (neg : Bool) (m : Nat) (e : Int) : Nat × Int :=
  -- x / ln 2 in fixed point
  let a : Nat := if 0 ≤ e then m * 2 ^ e.toNat * fxOne * fxOne / fxLn2
    else m * fxOne * fxOne / 2 ^ (-e).toNat / fxLn2
  if neg then
    let n := a / fxOne + 1
    (fxExp2 (n * fxOne - a), -(n : Int))
  else (fxExp2 (a % fxOne), (a / fxOne : Nat))

/-- R185: tanh x, from t = e^(2|x|): (t - 1)/(t + 1). Below 2^-40 the exact value lies just under |x|; at 32
and above it lies just under 1. [Assumption 21: PRESUMED.] -/
def numTanh (x : Num) : Num × BitVec 10 :=
  match x with
  | .nan => (.nan, 0)
  | .inf s => (.fin s 1 0, 0)
  | .fin s 0 e => (.fin s 0 e, 0)
  | .fin s m e =>
    if atLeast m e 32 then (sticky s (2 ^ 100 - 1) (-100) true, 0)
    else if leadExp m e < -40 then (sticky s (m * 2 ^ 60 - 1) (e - 60) true, 0)
    else
      let (f, n) := expParts false m (e + 1)
      let t := f * 2 ^ n.toNat
      (divNum s (t - fxOne) (t + fxOne) 0, 0)

/-- R185: the logistic function 1/(1 + e^-x). Below -256 the exact value is a positive number far under the
smallest subnormal; from 256 on it lies just under 1. [Assumption 21: PRESUMED.] -/
def numSigm (x : Num) : Num × BitVec 10 :=
  match x with
  | .nan => (.nan, 0)
  | .inf s => (.fin false (if s then 0 else 1) 0, 0)
  | .fin _ 0 _ => (.fin false 1 (-1), 0)
  | .fin s m e =>
    if atLeast m e 256 then
      (if s then .fin false 1 (-400) else sticky false (2 ^ 100 - 1) (-100) true, 0)
    else
      -- t = e^-|x| = f·2^-n in fixed point, n ≥ 1
      let (f, n) := expParts true m e
      let d := fxOne * 2 ^ (-n).toNat
      (if s then divNum false f (d + f) 0 else divNum false d (d + f) 0, 0)

/-- R185: one lane of a special function: rounded once under RNE, never setting `INX`. -/
def specialLane (fn : Num → Num × BitVec 10) (x : Nat) : Nat × BitVec 10 :=
  let (c, g) := fp32.finish (fn (fp32.decode x))
  (c, g &&& ~~~flagINX)

/-! ### Wide values (R175) -/

/-- Element e of a wide value in the view of w-bit elements. -/
def elem (w : Nat) (x : Wide) (e : Nat) : BitVec w := x.extractLsb' (w * e) w

/-- The wide value with the given first n elements of w bits, every bit above them 0. -/
def ofElems (w n : Nat) (f : Nat → BitVec w) : Wide :=
  (List.range n).foldl (fun acc e => acc ||| ((f e).setWidth 1024 <<< (w * e))) 0

/-- n elements computed with flags: the wide value and the OR of the flags (R177). -/
def ofElemsFlags (w n : Nat) (f : Nat → Nat × BitVec 10) : Wide × BitVec 10 :=
  (List.range n).foldl (fun acc e =>
    let r := f e
    (acc.1 ||| ((BitVec.ofNat w r.1).setWidth 1024 <<< (w * e)), acc.2 ||| r.2)) (0, 0)

end Sys2Proof.Machine
end

