-- ==== Sys2Proof/Config.lean ====
section
/-! DEFINITION. What the manual leaves to the implementation or to the moment: constants with no body, so that nothing can be proved
of their values. The first argument of most is the machine's counter of free values (`State.fresh`). [Assumptions 5, 6, 7: DESIGN CHOICE.] -/

namespace Sys2Proof.Config

/-- A typical latency (R4), in ticks: any number at all. The second argument names what is waited for. -/
opaque delay : Nat → Nat → Nat

/-- A value the manual leaves open, by the counter of free values. -/
opaque freeWord : Nat → W64

/-- R464: what a sensor reads at a sample, by the counter of free values and the sensor's number. [Assumption 7: DESIGN CHOICE.] -/
opaque sensorReading : Nat → Nat → Int

/-- R464: the fused maximum of a rail's current. -/
opaque railMax : Nat → Int

/-- R457: the firmware's thresholds of split levels 1 and 2. -/
opaque splitThreshold : Nat → Int

/-- R443: the bits of a flit that its passage over a link turns, by the counter of free values: 0 for most. -/
opaque corrupt : Nat → BitVec 1024

/-- R452: what becomes of a codeword on a Z port: 0 clean, 1 corrected, otherwise uncorrectable; by the link, the direction and the codeword's
number. -/
opaque codeword : Nat → Nat → Nat → Nat

/-- R14, R446: packets that an ordinary input buffer of a router holds, for each plane and virtual network. -/
opaque netBuffer : Nat

/-- R445: whether a training of a link fails, by the counter of free values. -/
opaque trainingFails : Nat → Bool

/-- R444: the lanes (plane and lane) that a training of a link finds failing, by the counter of free values. -/
opaque failingLanes : Nat → List (Nat × Nat)

/-- R478: the failure code of bring-up when a die link fences, by the counter of free values. -/
opaque fenceCode : Nat → Nat

/-- R468, R478: the board's bifurcation strap as a module reset reads it, by the counter of free values, and the debug fuse. -/
opaque strap : Nat → Bool
opaque debugFuse : Bool

/-- R441: the modules of the Z ring, and this module's place in it. -/
opaque ringModules : Nat
opaque ringPlace : Nat

/-- R478: whether a step of bring-up fails, and its code. -/
opaque bringupFailure : Nat → Nat → Option Nat

/-- R464, R465, R477: how the firmware packs a sensor's value, a cluster's marks, and the words of an event-log entry. -/
opaque sensorWord : Int → W64
opaque markWord : List Nat → W64
opaque eventWord : List Nat → Nat → W64

/-- R479, R480: the ROM's hash, the fuse block, the identity certificate, the fused private key, and the secret numbers of its signatures, by the
counter of free values. -/
opaque romHash : List Byte
opaque fuseHash : List Byte
opaque certificate : List Byte
opaque privateKey : Nat
opaque signingNonce : Nat → Nat

/-- R401: what a cluster's energy counter reads at a tick, by cluster and tick. -/
opaque energyCounter : Nat → Nat → Nat

/-- R395: the bytes of the state area of an image's tile section, by the number of the eviction, the section and the offset. -/
opaque stateByte : Nat → Nat → Nat → Byte

/-- R148, R477: how STATUS writes the state of a context, by its place in R390's table and whether an entry is held for want of space in a ring. -/
opaque ctxStateWord : Nat → Bool → W64

end Sys2Proof.Config
end

