-- ==== Sys2Proof/Machine/SMap.lean ====
section
/-! DEFINITION. Sparse tables: lists of numbered entries in strictly rising order, the shape of every store of the machine that
is addressed by a number. -/

namespace Sys2Proof.Machine

/-- A table by number: keys strictly rising. -/
abbrev SMap (α : Type) := List (Nat × α)

namespace SMap

/-- The keys rise strictly. -/
def wf {α : Type} (m : SMap α) : Bool := decide (m.Pairwise fun a b => a.1 < b.1)

/-- The entry at a number, if there is one. -/
def lookup {α : Type} : SMap α → Nat → Option α
  | [], _ => none
  | (j, v) :: r, i => if i = j then some v else lookup r i

/-- The entry at a number, or what an absent entry reads as. -/
def get {α : Type} (m : SMap α) (d : α) (i : Nat) : α := (lookup m i).getD d

/-- An entry put at a number. -/
def set {α : Type} : SMap α → Nat → α → SMap α
  | [], i, x => [(i, x)]
  | (j, v) :: r, i, x => if i = j then (i, x) :: r else if i < j then (i, x) :: (j, v) :: r else (j, v) :: set r i x

/-- The table without the entry at a number. -/
def erase {α : Type} : SMap α → Nat → SMap α
  | [], _ => []
  | (j, v) :: r, i => if i = j then erase r i else (j, v) :: erase r i

/-- An entry put at a number, kept only when it differs from what an absent entry reads as: the
canonical form. -/
def setD {α : Type} [DecidableEq α] (m : SMap α) (d : α) (i : Nat) (x : α) : SMap α :=
  if x = d then erase m i else set m i x

/-- An entry changed in place; an absent one is changed from the default. -/
def modify {α : Type} (m : SMap α) (d : α) (i : Nat) (f : α → α) : SMap α := set m i (f (get m d i))

/-- The entries whose number is at or above a bound. -/
def from' {α : Type} (m : SMap α) (lo : Nat) : SMap α := m.filter fun p => decide (lo ≤ p.1)

/-- The lowest number at or above a bound that has an entry. -/
def nextKey {α : Type} (m : SMap α) (lo : Nat) : Option Nat := (List.find? (fun p => decide (lo ≤ p.1)) m).map Prod.fst

/-- A number above every entry's. -/
def freshKey {α : Type} (m : SMap α) : Nat := m.foldl (fun n p => max n (p.1 + 1)) 0

end SMap

end Sys2Proof.Machine
end

