-- ==== Sys2Proof/Machine/State.lean ====
section
/-! DEFINITION. The state of the whole module as plain data: dies, tiles, cores, strands, collars, memory, queues, contexts, links, rails
and firmware, with what is in flight between them. Every table is sparse; what an absent entry reads as is named beside it. -/

namespace Sys2Proof.Machine

/-! ### Outcomes other than a next state -/

/-- Why the machine stops. -/
inductive Fault where
  /-- Raised by the meaning of a move, trigger or control item performed while no strand issues on the current tile: a move
  has no meaning outside a slot (R50, R69). The step function never performs one so; safe. -/
  | noIssuer
deriving DecidableEq, Repr

/-- Why an instruction has no meaning in the model. -/
inductive Refusal where
  /-- Raised by the dispatcher's arm of an instruction that is not modelled yet, by its table mnemonic; safe. -/
  | notModelled (mnemonic : String)
deriving DecidableEq, Repr

/-- R112: the fields of a launch header. -/
structure KHeader where
  nbun  : Nat
  kslot : Nat
  nf    : Nat
  gang  : Nat
  place : List Nat                       -- placement rule of each level
  widths : List Nat                      -- declared widths
  base  : Nat
  tv    : Bool
  trapv : Nat
  res   : Bool
  caps  : Bool
  ft    : Bool
  rstr  : Nat
  boost : Nat
  prio  : Nat
  cid   : Nat
  dlen  : Nat
  nslt  : Nat
  msie  : Bool
  msiv  : Nat
deriving DecidableEq, Repr

/-- The place and the data of an event: which tile, strand, node, die or numbered object (a request, a packet, a context) the
event acts on, and what the outside brings with it. A device step of the opcode table has no encoding, so its operands stand
here and not in the instruction. [Assumption 1: DESIGN CHOICE.] -/
structure Operand where
  tile   : Nat
  strand : Nat
  node   : Nat
  id     : Nat
  arg    : Nat
  word   : W64
  bytes  : List Byte
  flag   : Bool
deriving DecidableEq, Repr

/-- The operand that names nothing. -/
def Operand.zero : Operand := ⟨0, 0, 0, 0, 0, 0, [], false⟩
/-! ### Strands and the control core -/

/-- R194: the states of a strand. -/
inductive StrandState where
  | free | resident | issuing | yielded | sleeping | landingFrozen | trapped | suspended
deriving DecidableEq, Repr

/-- One write that some reads of the strand must not see yet (R70): the register by its code (R56; an operand port by its
destination code, R58), the sequence number from which reads see it, the sequence number and slot of the move or trigger that
made it, the last step at whose issue it was not readable, and its value. -/
structure Ver where
  reg  : Nat
  vis  : Nat
  seq  : Nat
  slot : Nat
  step : Nat
  val  : Wide
deriving DecidableEq, Repr

/-- A change of the sticky flags (R60, R167, R177): flags set, flags cleared, and the address `oar` takes with `OOR`. -/
structure FlagEv where
  vis  : Nat
  seq  : Nat
  slot : Nat
  step : Nat
  set  : BitVec 10
  clr  : BitVec 10
  oar  : W64
deriving DecidableEq, Repr

/-- A decoded bundle in the slip window (R69): its sequence number, for each slot the index it came from and its bits there
(one stream unless a handler edited the frame, R218), and the fault found at decode (R64). -/
structure WBundle where
  seq   : Nat
  idx   : List Nat
  bits  : List Bundle
  bad   : Option (Nat × Nat × Nat)     -- slot, cause, DETAIL
deriving DecidableEq, Repr

/-- R197: one hardware loop: first and last body index, and its place in the order of set-ups. -/
structure HwLoop where
  active : Bool
  first  : Nat
  last   : Nat
  order  : Nat
deriving DecidableEq, Repr

def HwLoop.off : HwLoop := ⟨false, 0, 0, 0⟩

/-- Where a strand's slots stand in its instruction stream (R50, R69, R196, R197, R218). [Assumption 64: DESIGN CHOICE.] -/
structure Stream where
  slotSeq  : List Nat                    -- the sequence number each slot issues next
  window   : List WBundle                -- decoded bundles some slot has yet to issue
  fetchSeq : Nat                         -- the sequence number fetched next
  fetchIdx : List Nat                    -- its index, slot by slot
  ctlFrom  : Nat                         -- slot 0's stream gives control from this sequence number on (R218)
  seqEnd   : Bool                        -- the bundle fetched last was fetched in sequence; its back edge has not acted
  redirect : Option (Nat × Nat)          -- from this sequence number control passes to this index
  hold     : Option Nat                  -- no bundle after this one is fetched until slot 0 has issued it (R197)
  loop0    : HwLoop
  loop1    : HwLoop
  delayNext : Bool                       -- the bundle fetched next is a delay bundle (R87)
deriving DecidableEq, Repr

/-- A scratchpad store of the strand that some access may still have to see or not to see (R73, R222, R223): performed ones
keep the bytes they replaced. -/
structure GStore where
  seq   : Nat
  slot  : Nat
  level : Nat                            -- handler depth at which it was issued
  parts : List (Nat × List Byte)         -- scratchpad address and bytes, in order
  trig  : Bool                           -- takes an entry of the 64-entry buffer (R223)
  done  : Bool
  old   : List (Nat × List Byte)
deriving DecidableEq, Repr

/-- R223: one entry of the register log: a register and everything that was known of it at the first write
after the checkpoint. -/
structure LogEntry where
  reg  : Nat
  base : Wide
  vers : List Ver
deriving DecidableEq, Repr

/-- A unit result on its way (R53, R68). -/
structure InFlight where
  unit : Nat
  val  : Wide
  w    : Bool
  due  : Nat
  seq  : Nat
  slot : Nat
  vis  : Nat
  flags : BitVec 10
  oar  : W64
deriving DecidableEq, Repr

/-- A request in the landing buffer (R75-R78, R220). -/
structure Land where
  lid    : Nat
  strand : Nat
  reg    : Nat
  due    : Nat                           -- step
  vis    : Nat
  seq    : Nat
  slot   : Nat
  trig   : Nat                           -- step of its trigger
  level  : Nat                           -- handler depth of its trigger
  data   : Option Wide
  parts  : Nat                           -- parts of the access still to come
  half   : Wide                          -- what its other parts have brought
  fills  : Bool                          -- its value may set `DBL` (R363)
  late   : Bool
  lateAt : Nat                           -- tick from which a further timeout is counted
  isOpen : Bool                          -- an open request (R222)
  va     : W64                           -- the address a page fault names
  key    : Option Nat                    -- the key whose watch its landing arms (R327)
  frozen : Option Nat                    -- remaining steps, while a handler runs (R108)
deriving DecidableEq, Repr

/-- A cause that waits to be taken (R106, R195). -/
structure CauseRec where
  cause  : Nat
  info   : W64
  detail : BitVec 16
  slot   : Nat
deriving DecidableEq, Repr

/-- R206, R173: accesses of bundles after `seq` wait until the named earlier accesses are performed. -/
structure Order where
  seq  : Nat
  acq  : Bool
  rel  : Bool
  scope : Nat
  rid  : Option Nat                      -- an acquire of one request
  upto : Nat                             -- what has set out by now: requests and bursts below this number
deriving DecidableEq, Repr

/-- What the core sets aside for a handler besides the frame (R107, R215, R218): operand ports, the stream, the
registers with their pending versions as the interrupted slots see them, and what the frame said of the slots. -/
structure Aside where
  ports  : SMap Wide
  stream : Stream
  regs   : SMap Wide
  vers   : List Ver
  flagEvs : List FlagEv
  flagBase : BitVec 10
  oarBase : W64
  pipe   : List InFlight
  orders : List Order
  alarmBy : Option (Nat × Nat)
  level  : Nat
  sig    : List Nat                      -- TSEQ and the eight TSLOT words as written
deriving DecidableEq, Repr

/-- R222: a restart checkpoint. -/
structure Checkpoint where
  stream  : Stream
  pipe    : List InFlight                -- `due` holds remaining steps
  latches : SMap Wide
  ports   : SMap Wide
  portVers : List Ver
  pend    : List LogEntry                -- registers with writes that a slot behind them must not see yet (R70)
  lands   : List (Nat × Nat)             -- landing entry and its remaining steps
  index   : Nat
  step    : Nat
deriving DecidableEq, Repr

/-- R194, R200, R201, R376, R377: what a SLEEPING strand waits for. -/
inductive Wake where
  | none
  | tick (t : W64)
  | lands (mask : BitVec 16)
  | barrier (timed : Bool)
deriving DecidableEq, Repr

/-- R159: an entry of the extent table. -/
structure ExtEntry where
  vb  : Nat
  len : Nat
  acc : BitVec 2
  opn : Nat
deriving DecidableEq, Repr

/-- R159: a slot of the extent table. -/
structure ExtSlot where
  ent  : Nat
  ofs  : Nat
  rlen : Nat
  pb   : Nat
  comp : Bool                            -- C of its pages (R410)
deriving DecidableEq, Repr

/-- How a run ends (R116, R135, R204, R205, R344). -/
inductive EndKind where
  | requeue
  | future (handle : W64)
  | park
  | exit
  | fault (code : Nat)
  | regroup (wid : W64) (kslot : Nat)
  | capNext (head : W64)
  | capFinish (head : W64)
deriving DecidableEq, Repr

/-- What the end of a run writes back: carried count less one, carried values, receive slot, next index (R147, R204). -/
structure Ending where
  kind  : EndKind
  nc    : Nat
  c     : List W64
  rslot : Nat
  idx   : Nat
deriving DecidableEq, Repr

/-- R313: the states of a completion key. -/
inductive KeyState where
  | plain | ring | closing | faulted
deriving DecidableEq, Repr

/-- R311: a producer entry of a key. -/
structure KeyEntry where
  pid : Nat
  exp : Nat
  got : Nat
  x   : Bool
deriving DecidableEq, Repr

/-- The ring of a RING or CLOSING key (R298, R302, R313). -/
structure Ring where
  base   : Nat
  nslot  : Nat
  blen   : Nat
  tokens : Nat                           -- T of the stream
  head   : Nat
  filled : Nat
  arrived : Nat                          -- tokens that have arrived
  source : Nat                           -- stream identifier of the producer
deriving DecidableEq, Repr

/-- R311: a completion key. -/
structure Key where
  st      : KeyState
  entries : List KeyEntry
  endF    : Bool
  ovr     : Bool
  ring    : Option Ring
  watch   : Option Nat                   -- the armed promised tick (R327, R328)
  revised : Option Nat                   -- a promise the engines revised (R328)
deriving DecidableEq, Repr

def Key.empty : Key := ⟨.plain, [], false, false, none, none, none⟩
/-- R372: a strand's arrival record, with the request of the arrival that set it. -/
structure Arrival where
  bar     : Nat
  rid     : Nat
  phase   : Nat
  pending : Bool
deriving DecidableEq, Repr

/-- R376, R377, R382: a strand's wait at a barrier: the barrier, its arrival's request, the handler depth of the wait, for a
`bartw` its deadline and the register of its outcome, the phase of the arrival's reply and of the newest release notice once they have come, and
the outcome once the wait has ended. -/
structure BarWait where
  bar    : Nat
  timed  : Bool
  rid    : Nat
  level  : Nat
  deadline : Nat
  reg    : Nat
  seq    : Nat
  slot   : Nat
  phase  : Option Nat
  notice : Option Nat
  out    : Option W64
deriving DecidableEq, Repr
/-- One strand: registers, stream, and everything that stops or resumes it (R66, R194). [Assumption 64: DESIGN CHOICE.] -/
structure Strand where
  st       : StrandState
  regs     : SMap Wide                   -- m, s, l, w, v, lc0, lc1, lk, vrc, ksel by source code (R56); the format-table base (R48) at 0x1F0
  vers     : List Ver
  flagBase : BitVec 10
  oarBase  : W64
  flagEvs  : List FlagEv
  alarm    : W64                         -- deadline; 0 disarmed (R221)
  alarmBy  : Option (Nat × Nat)          -- sequence number and slot of its newest write at the present handler level (R65)
  splt     : BitVec 64                   -- deferred-slot choice (R458)
  wid      : W64
  metaWord : W64                         -- bytes 0-7 of the record (R57)
  widths   : List Nat                    -- declared work-identifier field widths (R112)
  recAddr  : Nat                         -- address of the record (RECA)
  run      : Nat                         -- the run's number; the model's own
  sent     : Bool                        -- a record has been sent to the free strand and has not arrived (R149)
  rsv      : Nat                         -- the gang group that reserves the strand, +1; 0 when none (R130)
  launch   : Nat                         -- the launch the run counts for, +1; 0 when none
  ctx      : Nat
  kslot    : Nat                         -- kernel slot of the record
  prio     : Nat                         -- priority of the record
  gbar     : W64                         -- GBAR (R134)
  pins     : List Nat                    -- leaves the run has pinned (R151)
  extents  : List ExtEntry               -- entries 0-7
  extSlots : List ExtSlot                -- e0-e7
  stream   : Stream
  depth    : Nat                         -- handler depth (R209)
  asides   : List Aside                  -- of the handler levels entered, the innermost first
  stores   : List GStore
  log      : List LogEntry
  ckpt     : Option Checkpoint
  causes   : List CauseRec               -- raised and not yet taken
  pendInfo : List (Nat × CauseRec)       -- kept beside the strand for PEND bits, by the handler level of their frame (R106)
  rolled   : Option CauseRec             -- a page fault whose rollback is done, to be taken at once (R226)
  noLeaf   : Option Nat                  -- the page a stalled slot's walk has found no valid leaf for (R163)
  wake     : Wake
  afterYield : Bool                      -- a yielding bundle has issued and has not completed (R67)
  ending   : Option Ending               -- the run has ended this way; waits to be released (R194)
  endIds   : Nat                         -- what had set out when it ended: requests and bursts below this number (R120, R427)
  orders   : List Order
  lastWaitk : List (Nat × Nat)           -- sequence number and step of the `waitk`s of the step that issued one last (R314)
  nw       : BitVec 2                    -- rotation pointer of nextw (R122)
  timeoutAt : List (Nat × Nat)           -- landing entry and the tick its stalled reader began to wait (R220)
  keys     : List Key                    -- k0-k7 (R311)
  kflt     : List W64                    -- KFLT0-KFLT7 (R306)
  ccap     : Nat                         -- current capsule head (R335)
  capVisit : Option Nat                  -- arrival slot of the visit (R343)
  arrival  : Option Arrival              -- barrier arrival record (R372)
  barWaits : List BarWait                -- waits of barw and bartw, one for each handler level at most (R376, R377, R382)
  claims   : Bool                        -- holds a boost claim (R462)
deriving DecidableEq, Repr
/-! ### The array and the collar (R227-R296) -/

/-- R245, R283: a collar token: its sideband fields and its payload. `num` and `feeds` stand with a switch token only: its place in the order of
injections, and whether more than one PORT is to hold a weight feed after it (R267). -/
structure Tok where
  kind  : Nat                            -- 0 data, 1 switch, 2 ordering
  h     : Bool
  t     : Bool
  sv    : Bool
  fmt   : Nat
  mask  : BitVec 16
  scl   : BitVec 32
  data  : BitVec 128
  num   : Nat
  feeds : Bool
  visit : Bool                           -- of a beat of the capsule strand, until it leaves the exit lanes (R344)
deriving DecidableEq, Repr

/-- What enters the array and leaves at the exit collar (R230, R284). -/
inductive ArrKind where
  | push | pusha | drain | aclr | marker
deriving DecidableEq, Repr

/-- Something inside the array, or waiting at a PROMOTE node. -/
structure ArrEntry where
  step   : Nat                           -- of its issue
  h      : Nat                           -- steps from one PE to the next
  kind   : ArrKind
  row    : Nat
  marks  : BitVec 3                      -- `TL`, `HD`, `CLR` of a drain
  strand : Nat                           -- the strand that issued it
  mode   : Nat
  plane  : Nat                           -- the plane that is active for it
  xs     : List (Nat × Bool)             -- activations by K position, and whether each is live
  sa     : BitVec 32
  sb     : BitVec 32
  sums   : List Int                      -- of 32 columns: exact sums, or FP32 codes
  nans   : BitVec 32
  tok    : Option Tok                    -- of a marker
deriving DecidableEq, Repr

/-- R227: the array of a tile. -/
structure Arr where
  weights : List (SMap Nat)              -- plane 0 and 1: by 32 × row + column
  meta_   : List (SMap Nat)              -- plane 0 and 1: index registers, by 32 × row + column
  scales  : List (BitVec 32)             -- plane 0 and 1
  turn    : Nat                          -- the plane active for beats issued now
  pes     : BitVec 1024                  -- by 32 × row + column: the plane active at the PE
  swaps   : List (Nat × Nat)             -- swaps under way: step of issue and h
  mode    : Nat
  ovEn    : Bool
  ovVal   : BitVec 32
  credits : List Nat                     -- by exit lane
  inside  : List ArrEntry
  lastIn  : Option Nat                   -- step of the last entry (R234)
deriving DecidableEq, Repr, Inhabited

def Arr.reset : Arr :=
  ⟨[[], []], [[], []], [0x3F800000, 0x3F800000], 0, 0, [], 0, false, 0, List.replicate 8 192, [], none⟩

/-- R276: a plane of a node. Routed inputs go by their route-table byte (R273). -/
structure Plane where
  p    : List W64
  sel  : SMap Nat                        -- routed input: its source node
  dst  : List Nat                        -- routed inputs its output feeds
  slot : Nat
  ovl  : Bool
  cid  : Nat
  bad  : Bool                            -- a latch has lost a bit (R296)
deriving DecidableEq, Repr

def Plane.reset : Plane := ⟨List.replicate 8 0, [], [], 0, false, 0, false⟩

/-- R277. -/
inductive NodeState where
  | off | active | aligning | held | repairing
deriving DecidableEq, Repr

/-- R290: what holds a node: its cause and detail, and whether it arose at a switch token. -/
structure Hold where
  cause  : Nat
  detail : Nat
  sw     : Bool
deriving DecidableEq, Repr

/-- A token on its way out of a node: the step from which it may leave, where it goes (a route-table byte, 32 for the next node of the
lane, 33 for the entry lane's PE rows), and whether an exit credit returns as it leaves (R230). -/
structure OutTok where
  ready  : Nat
  tok    : Tok
  dst    : List Nat
  credit : Bool
deriving DecidableEq, Repr

/-- R297: a stream parameter block. -/
structure Blk where
  base  : Nat
  cnt   : List Nat
  str   : List Int
  esz   : Nat
  fmt   : Nat
  ssrc  : Nat
  ring  : Bool
  nslot : Nat
  blen  : Nat
  scale : Nat
  peer  : Nat
  pep   : Nat
  pstr  : Nat
  pkey  : Nat
  rsv   : Bool                           -- a reserved bit or value
deriving DecidableEq, Repr

/-- A PORT's walk or its end of a stream (R267, R298-R303). -/
structure Walk where
  blk    : Blk
  elem   : Nat                           -- next element of the walk
  tok    : Nat                           -- next token
  acc    : List Byte                     -- bytes of the token under way
  begun  : Bool                          -- the present burst may go on: it has taken its done tokens
  start  : Nat                           -- step at which the walk begins
  buf    : List Tok                      -- tokens in the node-store buffer, or of the burst to be sent
  got    : Nat                           -- tokens from the network that have gone out into the collar
  credit : Nat                           -- bursts the consumer has room for
  sent   : Nat                           -- sink: bursts sent and not yet performed; source: 1 while a burst's tail is on its way out
  eng    : Nat                           -- the walk engine's stream; 0 when none
  closed : Bool                          -- told to stop (R294, R322)
  scl    : Option (BitVec 32)            -- the scale of the token under way, once it has been read (R298)
deriving DecidableEq, Repr

/-- A collar node (R246-R296). -/
structure Node where
  st      : NodeState
  active  : Plane
  shadow  : Plane
  sval    : Bool
  drain   : Bool                         -- drain mark (R287, R288)
  ns      : W64
  ins     : List (List Tok)              -- the buffer of each input
  out     : List OutTok
  entries : List ArrEntry                -- PROMOTE: entries at its input
  took    : Nat                          -- number of the newest switch token taken
  snap    : W64
  fstr    : Nat                          -- firing strand of its active pass
  hold    : Option Hold
  ending  : Bool                         -- it ends a partial burst before it takes a switch token (R287)
  resume  : Option (Nat × W64)           -- what `cres` has given for the cause that held it
  store   : SMap Nat                     -- node store by 4-byte word
  cnt     : Nat                          -- tokens or elements counted since a switch token or a head mark, by kind
  row     : List Tok                     -- tokens of the row, block or burst under way
  burst   : Bool                         -- a head has been taken whose tail has not
  scale   : BitVec 32                    -- DECODE: the current scale; NORM: its sum of squares
  codes   : Nat                          -- DECODE: the vector's E8M0 codes
  elems   : List (Nat × Bool)            -- elements packed and not yet emitted
  marks   : BitVec 2                     -- head and tail marks of what is being packed
  rng     : BitVec 32                    -- CONVERT
  parts   : List (Nat × Nat × BitVec 32) -- NORM: partial sums of squares of its rows, by row and step, until used
  since   : Nat                          -- tokens sent to it since its checkpoint (R296)
  walk    : Option Walk
  dones   : List Nat                     -- PORT: counts of done tokens, from PORTs 0-3 and the network (R268, R269)
  owed    : List Nat                     -- PORT: done tokens it still has to emit, by PORT
  visit   : Bool                         -- CONVERT: what it packs came from a beat of the capsule strand (R344)
  part    : Nat                          -- sink PORT: elements of the token at its input already written
  stopping : List Nat                    -- PORT: producers told to stop whose tokens in flight are discarded (R294, R322)
deriving DecidableEq, Repr

def Node.reset : Node where
  st := .off
  active := Plane.reset
  shadow := Plane.reset
  sval := false
  drain := false
  ns := 0
  ins := []
  out := []
  entries := []
  took := 0
  snap := 0
  fstr := 0
  hold := none
  ending := false
  resume := none
  store := []
  cnt := 0
  row := []
  burst := false
  scale := 0x3F800000
  codes := 0
  elems := []
  marks := 0
  rng := 1
  parts := []
  since := 0
  walk := none
  dones := List.replicate 5 0
  owed := List.replicate 4 0
  visit := false
  part := 0
  stopping := []

/-- R278. -/
inductive ShadowState where
  | empty | loading | prepared | ready | failed
deriving DecidableEq, Repr, Inhabited

/-- A load of the shadow planes under way (R278-R280): its slot, the nodes it names, the coordinator of a region-wide load, +1, and the model's
number of it. -/
structure SlateLoad where
  id    : Nat
  slot  : Nat
  names : List Nat
  coord : Nat
  bad   : Bool                           -- it has met an uncorrectable word
deriving DecidableEq, Repr

/-- R280: what a coordinator still waits for. -/
structure RegionLoad where
  id    : Nat
  left  : List Nat                       -- tiles that have not reported
  tiles : List Nat
  bad   : Bool
deriving DecidableEq, Repr

/-- R275: a slot of the slate store, by 8-byte word, and the words with a double-bit error. [Assumption 8: DESIGN CHOICE.] -/
structure Slate where
  valid : Bool
  cid   : Nat
  words : SMap Nat
  bad   : List Nat
deriving DecidableEq, Repr

def Slate.reset : Slate := ⟨false, 0, [], []⟩

/-- A tile's collar. -/
structure Collar where
  nodes   : SMap Node
  sst     : ShadowState
  lidx    : Nat
  rcnt    : Nat
  act     : Bool
  last    : Option Tok                   -- the switch token of the latest `fire`
  pass    : Nat                          -- its tag
  num     : Nat                          -- switch tokens injected
  inject  : List (Nat × Tok × Nat)       -- injected and not yet taken up: step, token, side
  offers  : List (Nat × Tok)             -- offered to a node that has not yet taken it, or to a PORT
  lanes   : List (List Tok)              -- tokens waiting at the PE rows
  wport   : List Tok                     -- tokens waiting at the north weight port
  raised  : Option Nat                   -- the node whose cause is raised (R291)
  load    : Option SlateLoad
  regions : List RegionLoad              -- region-wide loads that it coordinates and whose reports are to come (R280)
  queued  : List Operand                 -- region-wide loads that wait for the present load to end
  barred  : List Nat                     -- region-wide loads whose outcome is to come: `fire` and `swtok` stall
  abort   : Bool                         -- a `cabort` is under way
  turns   : List Nat                     -- by read port of a bank and then by write port: the PORT served last (R21)
  slates  : SMap Slate
  badSlots : Nat                         -- single-bit errors corrected; the model's own count
deriving DecidableEq, Repr, Inhabited

def Collar.reset : Collar :=
  ⟨[], .empty, 0, 0, false, none, 0, 0, [], [], [[], [], [], []], [], none, none, [], [], [], false, List.replicate 16 0, [], 0⟩
/-! ### Streams and walk engines (R297-R328) -/

/-- Where the bytes of a side of a command lie (R307, R308, R319). -/
inductive Place where
  | va (v : Nat)
  | pin (slot pa : Nat)
  | scratch (tile addr : Nat)
deriving DecidableEq, Repr

/-- One side of a `copy`: its place and its walk (R307, R309). -/
structure Shape where
  place : Place
  ext   : List Nat
  str   : List Nat
  esize : Nat
  tq    : Bool
  tiles : List Nat                       -- the tiles a scratchpad side names; several for a multicast
  dk    : Option (Nat × Nat)             -- strand and key credited there
deriving DecidableEq, Repr

/-- R319: the rows of a gather. -/
structure Rows where
  src  : Place
  idx  : List Nat
  rstr : Nat
  rb   : Nat
deriving DecidableEq, Repr

inductive CmdKind where
  | copy (src dst : Shape)
  | gather (rows : Rows) (dst : Shape)
  | stream (src ring : Blk)
  | send (tile addr : Nat) (dk : Option (Nat × Nat)) (data : List Byte)
deriving DecidableEq, Repr

/-- A run of bytes that a walk reads: the address it goes by, and its bytes once its home has answered. -/
structure ReadRun where
  va   : Nat
  data : Option (List Byte)
deriving DecidableEq, Repr

/-- The reads of a burst: their number, 0 while its pages are still to be translated, and their runs in walk order. -/
abbrev Reads := Nat × List ReadRun

/-- A command of a queue (R304, R317-R320, R326, R327). -/
structure Cmd where
  tile    : Nat
  strand  : Nat
  run     : Nat
  ctx     : Nat
  q       : Nat
  key     : Nat
  scope   : Nat
  kind    : CmdKind
  after   : List Nat                     -- commands it must wait for (R326)
  begun   : Bool
  next    : Nat                          -- next element of its walk
  reads   : Option Reads                 -- of the burst that it has begun
  slots   : List (Nat × Nat)             -- bursts on their way to their destinations, by first element, with the accesses still to be performed (R302)
  read    : Bool                         -- its last burst has gone out
  failed  : Bool
  promise : Nat
  lines   : Nat                          -- lines it reads
deriving DecidableEq, Repr

/-- R304: the queues of a tile's engines 0-4 and of its messages. -/
structure Engines where
  queues   : List (List Nat)             -- commands, oldest first
  promised : List Nat                    -- promised tick of the newest command of each
  fences   : List (Nat × List Nat)       -- R326: a mask of queues and the commands that stood before it
  last     : List Nat                    -- the stream or command that each began a burst of last (R304)
deriving DecidableEq, Repr, Inhabited

def Engines.reset : Engines := ⟨List.replicate 6 [], List.replicate 6 0, [], List.replicate 6 0⟩

/-- The other end of an engine's stream (R300, R301). -/
inductive StreamEnd where
  | ring (strand key : Nat)
  | port (k : Nat)
deriving DecidableEq, Repr

/-- A stream that a walk engine reads from memory or writes to memory (R300-R306). -/
structure StreamW where
  tile   : Nat
  eng    : Nat
  writer : Bool
  blk    : Blk
  ctx    : Nat
  cid    : Option Nat                    -- identity of a PORT's walk (R270)
  other  : StreamEnd
  credit : Nat
  next   : Nat                           -- next burst
  begun  : Bool                          -- a reader's next burst has its credit and its done tokens (R268, R302)
  reads  : Option Reads                  -- of the burst that the engine has begun
  held   : List (List Tok)               -- bursts that wait for the writer
  busy   : Bool                          -- a burst is being moved
  pend   : Nat                           -- writes of the burst still to be performed
  got    : Nat                           -- tokens a writer has taken
  stuck  : Bool                          -- it stands at a faulting burst
  whole  : Bool                          -- the writes under way end a burst
  part   : Bool                          -- they end a piece of one, which its PORT has sent before a switch token
  spread : List Nat                      -- their propagations to other copies of their pages (R424)
  strand : Nat
  run    : Nat
  promise : Nat                          -- the promised tick of the command that opened it (R327)
deriving DecidableEq, Repr

/-! ### Capsules (R329-R349) -/

/-- R333: an arrival slot in use: the order of arrival, and whether its visit has begun. -/
structure CapSlot where
  order    : Nat
  visiting : Bool
  ready    : Bool                        -- checked; its kernel is loaded
deriving DecidableEq, Repr

/-- R345, R346: a fork at a meet: its index, its head, its elements' format, its data, and the stop of a stand-in. -/
structure Fork where
  idx     : Nat
  head    : List Byte
  data    : List Byte
  standIn : Option Nat
deriving DecidableEq, Repr

/-- R345: a meet entry. -/
structure Meet where
  die   : Nat
  ctx   : Nat
  mtag  : Nat
  fcnt  : Nat
  n     : Option Nat
  forks : List Fork
deriving DecidableEq, Repr
/-- Where the core stands within its step: the machine performs one instruction of the table at a time. -/
inductive Phase where
  | start                                -- the step begins: results and landings due
  | causes                               -- a cause may be taken; a strand may be chosen
  | issue (pass : Nat) (slot : Nat)      -- slots in order: plain moves and control items first, then triggers
  | beat                                 -- the array and the collar are to take their part of the step
  | finish                               -- the end of the step
  | rest                                 -- between steps
deriving DecidableEq, Repr, Inhabited

/-- R190-R192: the transposer: its rows, its shape, and the writes still to take effect. -/
structure Trn where
  rows    : SMap Wide
  es      : Nat                          -- element bits: 32, 16 or 8
  n       : Nat
  pending : List (Nat × Option (Nat × Wide) × Nat × Nat)   -- step; row write or else a shape (es, n)
deriving DecidableEq, Repr, Inhabited

def Trn.reset : Trn := ⟨[], 32, 32, []⟩

/-- A tile's control core (R20, R50-R53, R67, R76). [Assumption 64: DESIGN CHOICE.] -/
structure Core where
  stepc    : Nat
  phase    : Phase
  todo     : List (Instr × Operand)      -- what the present phase still performs
  issuing  : Option Nat
  lastIss  : Nat                         -- the strand that issued last (R152)
  slot     : Nat                         -- the slot whose move is being performed
  floor    : Nat                         -- the slowest slot's next sequence number as the step began
  issued   : List Nat                    -- slots that have issued in this step
  stalled  : List Nat                    -- slots that have stalled in this step
  fullLog  : Bool                        -- a slot stalls on a full gated buffer or log (R224)
  markReq  : Option Nat                  -- a commit is due at the end of this step, with its index (R222, R225)
  ckptReq  : Option (Nat × Nat)          -- strand and index of a checkpoint due once the results of the next step have emerged
  trapNow  : Bool                        -- a cause was taken in this step
  latches  : SMap Wide
  ports    : SMap Wide                   -- operand ports by destination code (R58)
  pipe     : List InFlight
  lands    : List Land
  nextLid  : Nat
  frozenAt : Option Nat                  -- tick at which a due landing froze the core (R76)
  poolTill : Nat                         -- first step at which the special-function pool is free (R100)
  lastPush : Option Nat                  -- step of the last F16 or BF16 push (R69)
  busySlot : List (Nat × Nat × Nat)      -- slot, the first step at which it may issue again, and the address behind the granules it clears (R210)
  gather   : Option (Nat × Nat)          -- sequence number of a bank-conflicting access and the step it may issue (R171)
  banks    : List (Bool × Nat)           -- bank ports that LDS uses in this step: whether for a write, and the bank (R21)
  owed     : List (Bool × Nat)           -- accesses of other agents than LDS and the PORTs that have yet to take a bank port (R21)
  trn      : Trn
  credit   : Nat                         -- clock: fractions of a step earned (R26, R74)
  level    : Nat                         -- the split level that the core has entered (R457)
  parity   : List Nat                    -- bundle indices with a parity error (R23)
  reload   : Option Nat                  -- a bundle being reloaded (R23)
deriving DecidableEq, Repr, Inhabited
/-! ### Power (R453-R467) -/

/-- R464: a sensor: the last reading and the value used, what marks it, and the window of its unchanged readings. Temperatures are in
thousandths of a degree. -/
structure Sensor where
  raw    : Int
  value  : Int
  range  : Option Nat                    -- marked out of range: samples in range since
  stuck  : Bool
  apart  : Option Nat                    -- marked for disagreement: samples in agreement since
  limit  : Int                           -- the range limit crossed last
  same   : Nat                           -- samples unchanged
  start  : Int                           -- the cluster's power as the reading last changed
  moved  : Bool                          -- the power has moved by more than 10 % since
deriving DecidableEq, Repr

def Sensor.reset : Sensor := ⟨0, 0, none, false, none, 0, 0, 0, false⟩

/-- R459: a claim of a strand, or with strand 8 the dispatcher's for a kernel. -/
structure BoostClaim where
  tile   : Nat
  strand : Nat
  ctx    : Nat
  kslot  : Nat
deriving DecidableEq, Repr

/-- R457, R459-R465: a module cluster. -/
structure Cluster where
  balance : Nat
  grant   : Bool
  fall    : Bool
  freq    : Nat                          -- as `FREQ` of R463
  claims  : List BoostClaim              -- held
  seen    : List BoostClaim              -- those the arbiter has been told of
  exh     : Bool
  forced  : Bool
  streak  : Nat                          -- qualifying intervals in a row
  raised  : Bool                         -- it has run above nominal in this interval
  level   : Nat                          -- split level
  low     : Nat                          -- samples in a row below the level's threshold
  sensors : List Sensor                  -- four temperatures; matrix, vector and control, fabric and SRAM current
  sample  : Nat                          -- the energy counter as last sampled (R401)
  ran     : Nat                          -- the context that has run on the cluster since; 0 for none
  shared  : Bool                         -- another context has been served since
deriving DecidableEq, Repr

def Cluster.reset : Cluster := ⟨64, false, false, 0, [], [], false, false, 0, false, 0, 0, List.replicate 8 Sensor.reset, 0, 0, false⟩

/-- R453: the matrix rail. -/
inductive Rail where
  | low | rising (since : Nat) | high
deriving DecidableEq, Repr

/-- R466: an event counter: its source, its value, and the tick from which it counts. -/
structure EvCounter where
  src   : Nat
  val   : Nat
  start : Nat
deriving DecidableEq, Repr

/-! ### The host (R468-R480) -/

/-- R474. -/
inductive Owner where
  | unowned | electing (claims : List Nat) | owned (m : Nat)
deriving DecidableEq, Repr

/-- R475: what a master sees of the mailbox, and its output buffer (R477, R480). -/
structure Master where
  request  : List W64                    -- 32 words
  response : List W64
  mbst     : W64
  output   : List Byte
deriving DecidableEq, Repr

def Master.reset : Master := ⟨List.replicate 32 0, List.replicate 32 0, 0, []⟩

/-- R475: a command in the MCP's queue: its master, its tag and its request buffer as it was sent. -/
structure Command where
  master : Nat
  tag    : Nat
  words  : List W64
  gone   : Bool                          -- its master's function has been reset: it gets no response (R468)
deriving DecidableEq, Repr

/-- R451, R465, R474: an entry of the event log: kind (0 link, 1 sensor mark, 2 forcing, 3 ownership, 4 Z port of bring-up), tick, and what it tells. -/
structure LogRec where
  kind : Nat
  tick : Nat
  data : List Nat
deriving DecidableEq, Repr

/-! ### The fabric (R10-R16, R441-R451) -/

/-- A packet in a router (R11, R14, R15). Its payload is the event it brings to its destination. -/
structure Packet where
  src    : Nat                           -- tile
  at_    : Nat                           -- tile of the router that holds it
  dst    : Nat                           -- tile
  more   : List Nat                      -- further destinations of a multicast (R305)
  num    : Nat                           -- its place in the order of sending, which its replicas share (R15)
  vn     : Nat                           -- 0 copy, 1 message, 2 capsule, 3 configuration (R442)
  plane  : Nat
  prio   : Nat                           -- capsule priority
  ready  : Nat                           -- tick from which it may leave its router
  since  : Nat                           -- tick at which it came to this router
  headAt : Option Nat                    -- the tick from which it has stood at the head of its router input (R348)
  ctx    : Nat
  inn    : Nat                           -- the port it came in by: 0 N, 1 E, 2 S, 3 W, 4 local; 5 once its receiver has it and waits for others before it
  tunnel : List Nat                      -- of a tunnelled flit: routers of the detour still to pass (R446)
  flit   : Option (Nat × Nat × Nat)      -- the link that it crosses: its identifier, directed plane and the sequence number of the first flit
  sent   : Nat                           -- flits of it already sent on that link
  burst  : Option Nat                    -- the cross-die write burst it carries (R436)
  kept   : Option Nat                    -- its place among the capsules that a thaw has put back and that have still to leave their router (R398)
  act    : Instr
  op     : Operand
deriving DecidableEq, Repr

/-- R445: the states of a link. -/
inductive LinkState where
  | down | training | up | degraded | draining | fenced
deriving DecidableEq, Repr

/-- R443: one direction of one plane: the next number sent, what is unacknowledged, the number expected, and whether a
replay of it has been asked for. -/
structure LinkDir where
  nextSeq  : Nat
  unacked  : List (Nat × Nat)            -- sequence number and packet
  expected : Nat
  asked    : Bool
  due      : Nat                         -- tick at which its newest flit arrives
  wire     : Nat                         -- flits put on the wires of this direction, by which a Z port's flits fill codewords (R452)
  restart  : Bool                        -- trained again: its numbers restart once its tunnel holds nothing of it (R445)
deriving DecidableEq, Repr

def LinkDir.fresh : LinkDir := ⟨0, [], 0, false, 0, 0, false⟩

/-- A die link or Z port (R441, R444, R445, R451). -/
structure Link where
  st      : LinkState
  rwin    : Nat
  rthr    : Nat
  fails   : Nat                          -- failed trainings in a row
  replays : List Nat                     -- ticks of the replays counted
  spares  : List Nat                     -- spare lanes left, plane by plane
  halves  : List (Option Nat)            -- plane by plane: the half of its data lanes that is retired
  failing : List (Nat × Nat)             -- plane and lane found failing and not yet retired
  errors  : List (Nat × Nat × Nat)       -- per-lane parity errors within the window: plane, lane, tick
  dirs    : List LinkDir                 -- plane 0 and 1 from the named end, then plane 0 and 1 towards it; from 4 on the same for tunnelled flits that pass (R446)
  counts  : List (List Nat)              -- R451: counters 0-7 of the named end and of the other
  since   : Nat                          -- tick of the last change of state (counter 5)
  msix    : Option Nat                   -- the vector its events send
  cmdFrom : Option Nat                   -- the master whose command trains it
  inbox   : List Byte                    -- a Z port's: payload of the packet that is coming in
deriving DecidableEq, Repr

def Link.reset : Link :=
  ⟨.down, 2 ^ 20, 32, 0, [], [4, 4], [none, none], [], [], List.replicate 8 .fresh, List.replicate 2 (List.replicate 8 0), 0, none, none, []⟩

/-- R436, R437: a cross-die write burst until its applied notice has returned: its origin, number and stamp, and the event that
performs it. -/
structure Burst where
  origin : Nat                           -- die
  dest   : Nat                           -- die
  num    : Nat
  stamp  : List Nat                      -- eight entries
  tile   : Nat                           -- tile and strand it counts for at its origin
  strand : Nat                           -- 8 for a PORT, a capsule or a peer; 16 + n for a command of strand n
  level  : Nat                           -- handler depth at which the strand made it
  seq    : Nat                           -- sequence number of the strand's trigger
  here   : Bool                          -- it has reached its destination die, or left by its Z port
  done   : Bool                          -- it has been applied; its notice has still to return to its origin (R437)
  zport  : Bool                          -- it is bound for another module (R450)
  group  : Nat                           -- the propagation of a write to a replicated page that it belongs to; 0 for none (R424, R439)
  seq0   : Nat                           -- of one that a Z port sends: sequence number of its first flit
  sent   : Nat                           -- and the flits of it already sent
  act    : Instr
  op     : Operand
deriving DecidableEq, Repr
/-! ### Translation and memory requests (R403-R421, R350-R367) -/

/-- R408: an entry of a die's TLB. [Assumption 56: DEDUCED.] -/
structure TlbEntry where
  die  : Nat
  ctx  : Nat
  va   : Nat                             -- first virtual address of the leaf
  size : Nat
  leaf : Nat                             -- physical address of the leaf entry
  word : W64
deriving DecidableEq, Repr

/-- R408: a page walk in progress, with the events that wait for it. -/
structure PWalk where
  die     : Nat
  ctx     : Nat
  va      : Nat
  write   : Bool
  waiters : List (Instr × Operand)
  slots   : List (Nat × Nat)             -- tile and strand of the slots that stall on it
  begun   : Bool                         -- one of the die's page walkers has taken it up (R24)
deriving DecidableEq, Repr

/-- What a request does at its home. -/
inductive ReqKind where
  | load | ltag | store
  | atomic (op : Nat)                    -- R355: 0 aadd … 8 afadd, in the order of the ports
  | red (rop efmt : Nat)
  | frd | fwr | frst
  | defer (record : Nat)                    -- R365: the record of an ended run, by its pool slot
  | arrive | drop | arriveWait | arriveTimed (deadline : Nat) | query
deriving DecidableEq, Repr

/-- A remote request on its way (R162-R165, R172-R174, R352-R378). -/
structure Req where
  tile   : Nat
  strand : Nat
  run    : Nat                           -- the run that made it
  seq    : Nat
  slot   : Nat
  level  : Nat                           -- handler depth of its trigger
  lid    : Option Nat                    -- its landing entry
  kind   : ReqKind
  ctx    : Nat
  handle : W64                           -- as the program gave it
  opened : Bool
  va     : Nat
  pa     : Nat
  off    : Nat                           -- where its bytes stand in the whole access
  len    : Nat
  comp   : Bool                          -- C of its page (R418)
  repl   : Bool                          -- P of its page (R413)
  data   : List Byte
  cmp    : W64
  rel    : Bool                          -- a release (R173, R356)
  scope  : Nat
  stage  : Nat                           -- 0 at its tile's translation unit, 1 on the way to its home, 2 performed there and not yet at its scope (R424)
  spread : Nat                           -- the propagation of its write to a replicated page
  own    : Bool                          -- it is for the scratchpad of its own tile, whose accesses of the strand it keeps its place among (R425)
  fences : List Order                    -- of a store: the releasing fences before it that are not yet done (R437)
deriving DecidableEq, Repr

/-- R377: a timed waiter of a Mordant. -/
structure Waiter where
  bar      : Nat
  phase    : Nat
  deadline : Nat
  tile     : Nat
  strand   : Nat
  rid      : Nat
  ctx      : Nat
deriving DecidableEq, Repr

/-- R414-R416: a page being revived, reclaimed or migrated. -/
inductive PageJobKind where
  | revive | reclaim | drain | copy
deriving DecidableEq, Repr

structure PageJob where
  kind   : PageJobKind
  ctx    : Nat
  va     : Nat
  leaf   : Nat
  size   : Nat
  frame  : Nat                           -- the new frame of a migration
  host   : Bool
  cmd    : Option Nat                    -- the master whose command waits for it
deriving DecidableEq, Repr
/-! ### Contexts, queues and launches (R112-R151, R386-R402) -/

/-- R390: the states of a context. -/
inductive CtxState where
  | none | created | bound | running | frozen | evicted | destroyed
deriving DecidableEq, Repr

/-- R388: a region: origin cluster and shape. -/
structure Region where
  ox : Nat
  oy : Nat
  w  : Nat
  h  : Nat
deriving DecidableEq, Repr

/-- R136, R143, R387: a launch queue: entries written and consumed in all, and what `QSTAT` shows. -/
structure LaunchQ where
  pidx  : Nat
  cidx  : Nat
  ovf   : Bool
  mal   : Bool
  drops : Nat
  fw    : Bool                           -- paused by the firmware
deriving DecidableEq, Repr

def LaunchQ.reset : LaunchQ := ⟨0, 0, false, false, 0, false⟩

/-- R148: an entry of a fault or park ring, and of a capsule the bytes that go into its spill cell (R347). -/
structure RingEntry where
  park : Bool
  item : Nat
  kind : Nat
  code : Nat
  cap  : List Byte
deriving DecidableEq, Repr

/-- R119: the states of a kernel that holds a slot. -/
inductive KernelState where
  | installed | launched | running | draining
deriving DecidableEq, Repr

/-- A kernel slot in use: the image, its header as installed, its state, its live launches, and its place and digest in the
attestation record (R115, R480). -/
structure Kernel where
  va     : Nat
  hdr    : KHeader
  st     : KernelState
  live   : Nat
  order  : Nat
  digest : List Byte
  master : Nat                           -- the master that installed it
deriving DecidableEq, Repr

/-- A slot of the record pool in use (R137): the launch it counts for, +1, and of a gang member its group, +1, and the strand
reserved for it (R130). -/
structure PoolSlot where
  launch : Nat
  gang   : Nat
  tile   : Nat
  strand : Nat
  fresh  : Nat                           -- the generator that made it, while it has not been sent for the first time; 0 otherwise
deriving DecidableEq, Repr

/-- R127: what a group at a level has been given: a die or a module cluster. -/
structure Choice where
  level   : Nat
  key     : Nat                          -- the identifier down to the level
  cluster : Bool
  place   : Nat
deriving DecidableEq, Repr

/-- An accepted launch until it completes (R119, R120, R139-R141). -/
structure Launch where
  ctx   : Nat
  kslot : Nat
  prio  : Nat
  nc    : Nat
  entry : Nat
  xl    : Nat
  c     : List Nat
  cell  : Option Nat                     -- physical address of its completion cell
  last  : Nat
  inc   : Nat                            -- step between identifiers
  next  : Option Nat                     -- the identifier that goes out next (R121, R140)
  made  : Nat                            -- resident records created
  recs  : Nat                            -- records and runs that are the launch's
  exits : Nat
  choices : List Choice
  counted : Bool                         -- it counts among its kernel's live launches
  gen   : Bool                           -- its generator has more to create
deriving DecidableEq, Repr

/-- R131: the states of a gang group that is not retired. -/
inductive GangState where
  | forming | waiting | resident
deriving DecidableEq, Repr

/-- A gang group (R129-R131). -/
structure Gang where
  ctx    : Nat
  launch : Nat
  key    : Nat
  prio   : Nat
  st     : GangState
  recs   : List Nat                      -- pool slots of its members, in walk order
  left   : Nat                           -- members that have not ended
  bar    : Nat                           -- physical address of its barrier; 0 before it has one
deriving DecidableEq, Repr

/-- R123: an entry of a die's spawn queue. -/
structure Spawn where
  id     : Nat
  die    : Nat
  ctx    : Nat
  launch : Nat                           -- +1; 0 when none
  kslot  : Nat
  prio   : Nat
  nc     : Nat
  entry  : Nat
  xl     : Nat
  c      : List Nat
  next   : Nat
  inc    : Nat
  left   : Nat
deriving DecidableEq, Repr

/-- R149, R151: a record sent to a strand, until it arrives. -/
structure Sent where
  ctx     : Nat
  slot    : Nat                          -- of the pool
  tile    : Nat
  strand  : Nat
  extents : List ExtEntry
  slots   : List ExtSlot
  pins    : List Nat
deriving DecidableEq, Repr

/-- R128: an entry of a die's affinity table, the latest used first. -/
structure Affinity where
  die    : Nat
  launch : Nat
  key    : Nat
  tile   : Nat
deriving DecidableEq, Repr

/-- A context. -/
structure Ctx where
  st       : CtxState
  cpri     : Nat
  root     : Nat                         -- physical address of the level-0 table (R403)
  region   : Option Region
  epoch    : Nat                         -- binds, modulo 2^16 (R389)
  qcap     : Nat                         -- log2 of the launch rings' capacity
  fcap     : Nat                         -- log2 of the fault ring's
  pcap     : Nat                         -- log2 of the park ring's
  ringBase : Nat
  poolBase : Nat
  poolCount : Nat
  spillBase : Nat
  aging    : Nat                         -- log2 of the aging interval
  launchQs : List LaunchQ
  held     : List RingEntry              -- R148, oldest first
  rings    : List Nat                    -- `PIDX` of the fault and park rings
  seen     : List Nat                    -- their consumer indices as last read
  ringsSet : Bool                        -- their control blocks have been brought to their reset values (R387); the model's own
  pool     : SMap PoolSlot
  ready    : List (List Nat)             -- pool slots by priority, oldest first
  tileQ    : SMap (List Nat)             -- pool slots by tile
  kernels  : SMap Kernel
  done     : Nat                         -- launches completed since the last STATUS
  lastErr  : Nat × Nat                   -- address and code of the last Mordant error reported to no strand (R477)
  waving   : Bool                        -- its freeze wave has begun and has not completed (R392)
  ftick    : Nat                         -- the tick at which its latest wave completed (R396)
deriving DecidableEq, Repr

def Ctx.none : Ctx :=
  ⟨.none, 0, 0, Option.none, 0, 0, 0, 0, 0, 0, 0, 0, 0, [], [], [0, 0], [0, 0], false, [], List.replicate 8 [], [], [], 0, (0, 0), false, 0⟩
/-! ### Freezes and images (R391-R402) -/

/-- R391-R394: a freeze wave, from its command until it completes. -/
structure Wave where
  ctx    : Nat
  at_    : Nat                           -- F
  begun  : Bool
  left   : List Nat                      -- tiles that have not stopped
  destroy : Bool                         -- a destroy waits for it
deriving DecidableEq, Repr

/-! ### The tile and the module -/

/-- A tile (R17-R23). -/
structure Tile where
  core     : Core
  strands  : SMap Strand
  code     : SMap Bundle                 -- the code store by bundle index
  nbun     : Nat                         -- bundles of the loaded segment; 0 when none is loaded
  kernel   : Option (Nat × KHeader)      -- context and header of the loaded segment
  loading  : Option (Nat × KHeader)      -- of the segment being loaded (R117)
  stopped  : Bool                        -- stopped by a freeze wave (R392)
  stoppedAt : Nat                        -- the tick at which it stopped
  chan     : List (Instr × Operand)      -- channel state captured by the wave, oldest first (R393)
  gated    : Bool                        -- its core domain's clock is gated (R454)
  gatedAt  : Nat                         -- tick at which it gated
  quiet    : Nat                         -- consecutive quiet ticks (R454)
  poked    : Bool                        -- a packet or a dispatch has come for it (R455)
  wakeAt   : Option Nat                  -- an admitted tile: the tick of its first step
  counters : List EvCounter              -- counters 0-3 (R466)
  array    : Arr
  collar   : Collar
  engines  : Engines
  handlers : List Nat                    -- the handler table of the loaded segment, entry by entry (R114)
  capSlots : List (Option CapSlot)       -- arrival slots 0 and 1 (R329)
  capCount : Nat                         -- capsules made here, modulo 2^19 (R330)
  capSeq   : Nat                         -- arrivals so far; the model's own
  capWait  : List Operand                -- capsules held in the router until a slot frees (R342), oldest first
  capHeld  : List Packet                 -- capsules of the frozen context captured in its router (R393)
deriving DecidableEq, Repr, Inhabited

/-- R395: what an image holds beside the bytes in memory: its context, the origin and shape of its region, each tile in the order of
its sections, and the events that were on their way to its tiles. -/
structure Image where
  ctx     : Nat
  region  : Region
  tiles   : List Tile
  pending : List (Nat × Nat × Instr × Operand)
deriving DecidableEq, Repr

/-- The module. [Assumption 8: DESIGN CHOICE.] [Assumption 64: DESIGN CHOICE.] -/
structure State where
  tick     : Nat                         -- the module timebase (R4)
  turn     : Nat                         -- within the tick: the lowest tile still to be visited
  cur      : Option Nat                  -- the tile whose core is within its step
  ev     : Operand                     -- the operand of the event being performed
  agenda   : List (Nat × Nat × Instr × Operand)   -- tick, order within it, event
  fresh    : Nat                         -- the model's counter of free values; not the manual's
  mem      : List Host.Cell              -- bytes by physical address, as stored; unlisted bytes read 0
  tiles    : SMap Tile
  ids      : Nat                         -- numbers given to packets, requests and the like; the model's own
  pkts     : SMap Packet
  linkTurn : SMap Nat                    -- by link and plane of a router: the virtual network served last (R14)
  inTurn   : SMap Nat                    -- by link, plane and network of a router: the input served last (R340)
  linkTick : SMap Nat                    -- by link and plane of a router: the first tick at which it is free again
  links    : SMap Link                   -- by canonical identifier (R441); an absent link reads as `linkBase`
  linkBase : Link
  clocks   : SMap (List Nat)             -- R436: each die's vector clock, eight entries
  noticed  : SMap (List Nat)             -- by die and origin: applied bursts noticed beyond the clock's entry
  bursts   : SMap Burst
  lamport  : SMap Nat                    -- R439: each die's Lamport clock
  pairs    : SMap Nat                    -- R439: by granule of a copy: time × 8 + die of the write that set it
  tags     : SMap Nat                    -- R417: by line number; an absent line has tag 1
  badLines : List Nat                    -- lines with an uncorrectable sector or tag (R420)
  badWords : List Nat                    -- Mordant SRAM words with a double-bit error (R351)
  tlb      : List TlbEntry
  walks    : SMap PWalk
  reqs     : SMap Req
  held     : List (Nat × Instr × Operand) -- by leaf: what waits for a page to become stable or live (R415, R416)
  pins     : SMap Nat                    -- R410: by leaf entry
  pageJobs : SMap PageJob
  ctxs     : SMap Ctx
  launches : SMap Launch
  gangs    : SMap Gang
  spawns   : List Spawn                  -- every die's spawn queue, oldest first
  sends    : SMap Sent
  dispNext : SMap Nat                    -- by die: the first tick at which its dispatcher may send (R149)
  served   : SMap Nat                    -- by die × 8 + priority: the context served last (R149)
  affinity : List Affinity
  barMarks : SMap Nat                    -- by block of 64 bytes: the context that last used it as a barrier (R369)
  barBusy  : List Nat                    -- blocks given to group barriers (R133)
  waiters  : List Waiter                 -- timed waiters (R377)
  timeouts : List Nat                    -- arrivals whose timeout reply is on its way (R377)
  msix     : SMap W64                    -- R470: by port × 4096 + word of the MSI-X table
  pba      : List Nat                    -- R470: by port × 2048 + vector: its pending bit is set
  windows  : SMap Nat                    -- by barrier: the tick at which its release window ends (R371)
  clusters : SMap Cluster                -- by module cluster
  rail     : Rail
  inrush   : SMap (List Nat)             -- by cluster: gated tiles that ask to wake, in order (R455)
  dieCount : SMap (List EvCounter)       -- by die: counters 0-15 (R466)
  phase    : Nat                         -- bring-up step (R471, R478)
  fcode    : Nat
  owner    : Owner
  masters  : SMap Master
  mcp      : Option Command              -- the command being carried out
  mcpQ     : List Command                -- accepted commands, oldest first
  waiting  : List Command                -- commands that stay busy until what they started ends (R474, R477)
  log      : List LogRec                 -- unread event-log entries, oldest first
  stallY   : List Nat                    -- Y links whose event keeps the stall flag (R451)
  completions : List (Nat × Option (List Byte)) -- what host reads have returned, by master; nothing for a poisoned one (R420)
  wbase    : SMap W64                    -- `WBASE` by port (R472)
  upPorts  : List Nat                    -- host ports whose link is up (R468)
  downAt   : SMap Nat                    -- by port: the tick at which its link went down (R474)
  d3hot    : List Nat                    -- host ports whose function is in D3hot (R468, R474)
  bifurcated : Bool                      -- the strap as the last module reset read it (R468)
  cmds     : SMap Cmd                    -- commands in the queues of engines and messages
  streams  : SMap StreamW
  meets    : List Meet
  waves    : List Wave
  images   : SMap Image                  -- by the number of its eviction: what an image holds beside the bytes in memory
  energy   : SMap (Nat × Nat)            -- by context, 0 for the module's idle account: charge and shared count (R401)
deriving DecidableEq, Repr

/-! ### Reset -/

def Stream.empty : Stream := ⟨List.replicate 8 0, [], 0, List.replicate 8 0, 0, false, none, none, .off, .off, false⟩

/-- The code of `vrc` as a source (R57). -/
def codeVrc : Nat := 0x0F3

/-- A strand that is FREE: registers at 0, `vrc` at its reset value (R44, R66). [Assumption 2: DESIGN CHOICE.] -/
def Strand.reset : Strand where
  st := .free
  regs := [(codeVrc, 0x1_0000_0000)]
  vers := []
  flagBase := 0
  oarBase := 0
  flagEvs := []
  alarm := 0
  alarmBy := none
  splt := 0xF0
  wid := 0
  metaWord := 0
  widths := []
  recAddr := 0
  run := 0
  sent := false
  rsv := 0
  launch := 0
  ctx := 0
  kslot := 0
  prio := 0
  gbar := 0
  pins := []
  extents := List.replicate 8 ⟨0, 0, 0, 0⟩
  extSlots := List.replicate 8 ⟨0, 0, 0, 0, false⟩
  stream := Stream.empty
  depth := 0
  asides := []
  stores := []
  log := []
  ckpt := none
  causes := []
  pendInfo := []
  rolled := none
  noLeaf := none
  wake := .none
  afterYield := false
  ending := none
  endIds := 0
  orders := []
  lastWaitk := []
  nw := 0
  timeoutAt := []
  keys := List.replicate 8 Key.empty
  kflt := List.replicate 8 0
  ccap := 0
  capVisit := none
  arrival := none
  barWaits := []
  claims := false

def Core.reset : Core where
  stepc := 0
  phase := .rest
  todo := []
  issuing := none
  lastIss := 0
  slot := 0
  floor := 0
  issued := []
  stalled := []
  fullLog := false
  markReq := none
  ckptReq := none
  trapNow := false
  latches := []
  ports := []
  pipe := []
  lands := []
  nextLid := 0
  frozenAt := none
  poolTill := 0
  lastPush := none
  busySlot := []
  gather := none
  banks := []
  owed := []
  trn := Trn.reset
  credit := 0
  level := 0
  parity := []
  reload := none

def Tile.reset : Tile where
  core := Core.reset
  strands := []
  code := []
  nbun := 0
  kernel := none
  loading := none
  stopped := false
  stoppedAt := 0
  chan := []
  gated := true
  gatedAt := 0
  quiet := 64
  poked := false
  wakeAt := none
  counters := List.replicate 4 ⟨0, 0, 0⟩
  array := Arr.reset
  collar := Collar.reset
  engines := Engines.reset
  handlers := []
  capSlots := [none, none]
  capCount := 0
  capSeq := 0
  capWait := []
  capHeld := []

/-- The machine right after reset. [Assumption 2: DESIGN CHOICE.] [Assumption 4: DEDUCED.] [Assumption 6: DESIGN CHOICE.] [Assumption 61: DESIGN CHOICE.] -/
def State.reset : State where
  tick := 0
  turn := 0
  cur := none
  ev := Operand.zero
  agenda := [(1, 0, .bringupStepDone, Operand.zero), (64, 0, .currentSample, Operand.zero), (2100, 0, .sensorSample, Operand.zero),
    (10500, 0, .boostBoundary, Operand.zero)]
  fresh := 0
  mem := []
  tiles := []
  ids := 1
  pkts := []
  linkTurn := []
  inTurn := []
  linkTick := []
  links := []
  linkBase := Link.reset
  clocks := []
  noticed := []
  bursts := []
  lamport := []
  pairs := []
  tags := []
  badLines := []
  badWords := []
  tlb := []
  walks := []
  reqs := []
  held := []
  pins := []
  pageJobs := []
  ctxs := []
  launches := []
  gangs := []
  spawns := []
  sends := []
  dispNext := []
  served := []
  affinity := []
  barMarks := []
  barBusy := []
  waiters := []
  timeouts := []
  msix := []
  pba := []
  windows := []
  clusters := []
  rail := .low
  inrush := []
  dieCount := []
  phase := 0
  fcode := 0
  owner := .unowned
  masters := []
  mcp := none
  mcpQ := []
  waiting := []
  log := []
  stallY := []
  completions := []
  wbase := []
  upPorts := []
  downAt := []
  d3hot := []
  bifurcated := Config.strap 0
  cmds := []
  streams := []
  meets := []
  waves := []
  images := []
  energy := []

end Sys2Proof.Machine
end

