-- ==== Sys2Proof/Machine/Mem.lean ====
section
/-! DEFINITION. Bytes of memory by physical address: the canonical list, reading and writing runs of bytes, little-endian
words (R2, R25, R407). -/

namespace Sys2Proof.Machine

/-- The canonical form of memory: addresses strictly rising, no entry equal to what an unlisted address reads as. -/
abbrev Memory.wf (m : List Host.Cell) : Prop := m.Pairwise (fun a b => a.1 < b.1) ∧ ∀ c ∈ m, c.2 ≠ 0

/-- What an unlisted address reads as. [Assumption 3: DESIGN CHOICE.] -/
def unlistedByte : Byte := 0

/-- One byte. -/
def memByte : List Host.Cell → Nat → Byte
  | [], _ => unlistedByte
  | (b, v) :: r, a => if a = b then v else if a < b then unlistedByte else memByte r a

/-- n bytes from a. -/
def memRead (m : List Host.Cell) (a n : Nat) : List Byte := (List.range n).map fun i => memByte (m.dropWhile fun c => decide (c.1 < a)) (a + i)

/-- The cells of bytes placed from a, without those that read as unlisted anyway. -/
def cellsOf : Nat → List Byte → List Host.Cell
  | _, [] => []
  | a, b :: r => if b = unlistedByte then cellsOf (a + 1) r else (a, b) :: cellsOf (a + 1) r

/-- Bytes written from a. -/
def memWrite (m : List Host.Cell) (a : Nat) (bs : List Byte) : List Host.Cell :=
  m.filter (fun c => decide (c.1 < a)) ++ cellsOf a bs ++ m.filter (fun c => decide (a + bs.length ≤ c.1))

/-- R2: the little-endian value of bytes. -/
def leNat : List Byte → Nat
  | [] => 0
  | b :: r => b.toNat + 256 * leNat r

/-- R2: n little-endian bytes of a value. -/
def leBytes : Nat → Nat → List Byte
  | 0, _ => []
  | n + 1, v => BitVec.ofNat 8 v :: leBytes n (v / 256)

/-- R407: the physical base of a tile's window, which is its scratchpad. -/
def tileBase (t : Nat) : Nat := 0x0100_0000_0000 + t * 0x10_0000

/-- The size of a scratchpad (R21). -/
def scratchSize : Nat := 0x8_0000

/-- Bytes laid over a run that begins at `at0`. -/
def overlay (run : List Byte) (at0 a : Nat) (bs : List Byte) : List Byte :=
  run.mapIdx fun i b => if a ≤ at0 + i then bs.getD (at0 + i - a) b else b

end Sys2Proof.Machine
end

