-- ==== Sys2Proof/Machine/Operands.lean ====
section
/-! DEFINITION. Operands of moves: register codes, unit widths and latencies, interlocks, and the value a source reads
(R52-R61, R66-R72, R85-R103). -/

namespace Sys2Proof.Machine

/-- n bits of a number from bit lo. -/
def bitsAt (v lo n : Nat) : Nat := v / 2 ^ lo % 2 ^ n

/-! ### Codes -/

def codeL (u : Nat) : Nat := 0x090 + u
def codeW (r : Nat) : Nat := 0x0B0 + r
def codeLc (second : Bool) : Nat := if second then 0x0EE else 0x0ED
def codeLk : Nat := 0x0EF
def codeFlags : Nat := 0x0F1
def codeKsel : Nat := 0x0F4
/-- The format-table base (R48), which has no source code of its own: a code R56 leaves reserved. -/
def codeFmtb : Nat := 0x1F0
/-- R58: the destination code of an operand port, which names its storage. -/
def codePort (u k : Nat) : Nat := 0x200 + 32 * u + k

/-- The code under which a plain destination is read, if a move may read it interlocked (R57, R59). -/
def dstReadCode (d : Nat) : Option Nat :=
  if d < 0x090 then some d
  else if 0x0C0 ≤ d ∧ d < 0x0E0 then some d
  else if d = 0x0E0 then some (codeLc false)
  else if d = 0x0E1 then some (codeLc true)
  else if d = 0x0E2 then some codeLk
  else if d = 0x0E3 then some codeFlags
  else if d = 0x0E4 then some codeVrc
  else if d = 0x0E6 then some codeKsel
  else if 0x200 ≤ d ∧ d % 32 < 4 then some d
  else none

/-- R85: whether operand port k of unit u is 1,024 bits wide. -/
def portWide (u k : Nat) : Bool :=
  (decide (u = 6) && decide (k < 2)) || (decide (10 ≤ u) && decide (u ≤ 14))

/-- R85: whether unit u takes a 1,024-bit trigger value. -/
def triggerWide (u : Nat) : Bool := decide (u = 8) || (decide (10 ≤ u) && decide (u ≤ 14))

/-- R54: a value as a 64-bit destination takes it. -/
def narrow64 (x : Wide) : Wide := (x.setWidth 64).setWidth 1024

/-- R54: a 64-bit value as it stands in a wide destination. -/
def widen (x : W64) : Wide := x.setWidth 1024

/-- R54: bits 63-0. -/
def low64 (x : Wide) : W64 := x.setWidth 64

/-- R86-R103: the latency of the result of port p of unit u, if it has one. -/
def latency (u p : Nat) : Option Nat :=
  match u with
  | 1 => if p = 5 ∨ p = 13 then some 2 else none
  | 2 | 3 => some 1
  | 4 => if 8 ≤ p ∧ p ≤ 11 then some 20 else some 3
  | 5 => some 2
  | 6 => if p ≤ 10 then some 3 else if p = 11 then some 4 else if p = 12 then some 5 else if p = 13 then some 6 else none
  | 7 => if p = 12 then some 2 else none
  | 9 => if p = 4 ∨ p = 12 then some 2 else none
  | 10 => [3, 3, 4, 4, 3, 3, 3, 3, 4, 4, 5, 5, 3, 4, 2, 2, 4, 4, 2, 1, 1, 1, 1, 1, 1, 1][p - 4]?
  | 11 => [2, 2, 2, 2, 2, 3, 3, 3, 3, 3, 3, 3, 3, 6, 5, 4, 2, 2, 2, 2, 2][p - 4]?
  | 12 => [14, 14, 14, 14, 14, 14, 3, 3, 4, 4, 4][p - 4]?
  | 13 => if p = 6 then some 3 else none
  | 15 => if p = 9 ∨ p = 12 then some 2 else none
  | _ => none

/-- R110: the largest latency of a unit with results. -/
def maxLatency (u : Nat) : Option Nat :=
  match u with
  | 1 => some 2 | 2 => some 1 | 3 => some 1 | 4 => some 20 | 5 => some 2 | 6 => some 6 | 7 => some 2
  | 9 => some 2 | 10 => some 5 | 11 => some 6 | 12 => some 14 | 13 => some 3 | 15 => some 2
  | _ => none

/-- R110: whether a unit's results stand in the frame's wide area. -/
def wideUnit (u : Nat) : Bool := decide (u = 6) || (decide (10 ≤ u) && decide (u ≤ 13))

/-- R75: the ports whose trigger is a timed request. -/
def isTimedPort (u p : Nat) : Bool :=
  (decide (u = 6) && decide (22 ≤ p)) || (decide (u = 7) && decide (p = 14))
    || (decide (u = 8) && decide (p ≠ 13) && decide (p ≠ 18)) || (decide (u = 9) && decide (p = 13))

/-- R169-R170, R210, R334: the ports whose trigger stores to the scratchpad. -/
def isStorePort (u p : Nat) : Bool :=
  (decide (u = 6) && decide (14 ≤ p) && decide (p ≤ 21)) || (decide (u = 1) && decide (p = 8))
    || (decide (u = 9) && decide (4 ≤ p) && decide (p ≤ 9))

/-- R181: the ports whose trigger may advance `vrc`. -/
def isVrcPort (u p : Nat) : Bool := decide (u = 11) && (decide (p = 11) || decide (p = 12) || decide (p = 13) || decide (p = 15) || decide (p = 16))

/-- R206, R173: an unissued trigger that may order the strand's later accesses. -/
def mayOrder (u p : Nat) : Bool := decide (u = 8) || (decide (u = 6) && decide (22 ≤ p)) || (decide (u = 1) && decide (p = 4))

/-- R177, R167, R164: the steps after which the flags of a trigger count, for a read that must wait for them. -/
def flagDelay (u p : Nat) : Nat := max ((latency u p).getD 1) 1

/-! ### Who issues -/

/-- The slot whose move is performed: its tile, strand, number, sequence number, step and bundle. -/
structure Issuer where
  tile   : Nat
  strand : Nat
  slot   : Nat
  seq    : Nat
  step   : Nat
deriving DecidableEq, Repr

def State.tile (s : State) (t : Nat) : Tile := SMap.get s.tiles Tile.reset t
def State.setTile (s : State) (t : Nat) (x : Tile) : State := { s with tiles := SMap.set s.tiles t x }
def Tile.strand (x : Tile) (n : Nat) : Strand := SMap.get x.strands Strand.reset n
def Tile.setStrand (x : Tile) (n : Nat) (y : Strand) : Tile := { x with strands := SMap.set x.strands n y }
def State.core (s : State) (t : Nat) : Core := (s.tile t).core
def State.strand (s : State) (t n : Nat) : Strand := (s.tile t).strand n
def State.modTile (s : State) (t : Nat) (f : Tile → Tile) : State := s.setTile t (f (s.tile t))
def State.modCore (s : State) (t : Nat) (f : Core → Core) : State := s.modTile t fun x => { x with core := f x.core }
def State.modStrand (s : State) (t n : Nat) (f : Strand → Strand) : State := s.modTile t fun x => x.setStrand n (f (x.strand n))

/-- The issuer of the present moment, if a strand issues on the current tile. [Assumption 10: DESIGN CHOICE.] -/
def State.issuer (s : State) : Option Issuer :=
  match s.cur with
  | none => none
  | some t =>
    match (s.core t).issuing with
    | none => none
    | some n => some ⟨t, n, (s.core t).slot, (s.strand t n).stream.slotSeq.getD (s.core t).slot 0, (s.core t).stepc⟩

/-- R69: the slowest slot's next sequence number. -/
def Stream.minSeq (x : Stream) : Nat := x.slotSeq.foldl min (x.slotSeq.headD 0)

/-- The decoded bundle of a sequence number. -/
def Stream.bundle (x : Stream) (q : Nat) : Option WBundle := x.window.find? fun b => decide (b.seq = q)

/-- The bundle of a sequence number in slot k's own stream. -/
def Stream.bitsOf (x : Stream) (q k : Nat) : Bundle := ((x.bundle q).map fun b => b.bits.getD k 0).getD 0

/-- The index of a sequence number in slot k's own stream. -/
def Stream.idxOf (x : Stream) (q k : Nat) : Nat := ((x.bundle q).map fun b => b.idx.getD k 0).getD 0

/-! ### Interlocks (R70) -/

/-- Whether an unissued word of bundle e is a write that a read of sequence number r must see. -/
def wordCounts (x : MoveWord) (e reg r : Nat) : Bool :=
  if x.extractLsb' 22 2 ≠ 0b00#2 then false
  else if isTriggerWord x then
    let u := wordUnit x; let p := wordPort x
    if reg = codeL u then
      !x.getLsbD 10 && (match latency u p with | some n => decide (e + n ≤ r) | none => false)
    else if reg = codeFlags then decide (0 < u) && decide (e + flagDelay u p ≤ r)
    else if reg = codeVrc then isVrcPort u p && decide (e < r)
    else if reg = codeFmtb then decide (u = 1) && decide (p = 9) && decide (e < r)
    else if reg = codeLk then decide (u = 0) && decide (p = 10) && decide (e < r)
    else if codeW 0 ≤ reg ∧ reg ≤ codeW 15 then isTimedPort u p && decide (e < r)
    else false
  else
    let d := (x.extractLsb' 0 10).toNat
    decide (dstReadCode d = some reg) && (decide (e < r) || (decide (0x200 ≤ d) && decide (e ≤ r)))

/-- Whether some slot has yet to issue a write that a read of sequence number r must see. -/
def Stream.writePending (x : Stream) (reg r : Nat) : Bool :=
  x.window.any fun b => decide (b.seq ≤ r) && (List.range 8).any fun k =>
    decide (x.slotSeq.getD k 0 ≤ b.seq) && wordCounts (bundleMove (b.bits.getD k 0) k) b.seq reg r

/-- Whether some slot has yet to issue a word of a bundle below r that the test marks. -/
def Stream.unissuedBelow (x : Stream) (r : Nat) (test : MoveWord → Bool) : Bool :=
  x.window.any fun b => decide (b.seq < r) && (List.range 8).any fun k =>
    decide (x.slotSeq.getD k 0 ≤ b.seq) && test (bundleMove (b.bits.getD k 0) k)

/-- The later of two versions: counted later, or by the later trigger or move (R53, R65, R70). [Assumption 66: DEDUCED.] -/
def Ver.before (a b : Ver) : Bool :=
  decide (a.vis < b.vis) || (decide (a.vis = b.vis) && (decide (a.seq < b.seq)
    || (decide (a.seq = b.seq) && decide (a.slot ≤ b.slot))))

/-- R70: the version of a register that a read of sequence number r sees. -/
def bestVer (vs : List Ver) (reg r : Nat) : Option Ver :=
  vs.foldl (fun best v =>
    if v.reg = reg ∧ v.vis ≤ r then
      match best with
      | none => some v
      | some b => if b.before v then some v else some b
    else best) none

/-- R70: what a read of sequence number r sees of a register kept in a base store. -/
def readAt (base : SMap Wide) (vs : List Ver) (reg r : Nat) : Wide :=
  match bestVer vs reg r with
  | some v => v.val
  | none => SMap.get base 0 reg

/-- A register of a strand as a read of sequence number r sees it. -/
def Strand.regAt (x : Strand) (reg r : Nat) : Wide := readAt x.regs x.vers reg r

/-- R70: whether every write that a read of sequence number r must see has been made and is readable at this step. [Assumption 12: DEDUCED.] [Assumption 14: DEDUCED.] -/
def regReady (co : Core) (n : Nat) (x : Strand) (reg r step : Nat) : Bool :=
  !x.stream.writePending reg r
    && !(co.pipe.any fun f => decide (f.vis ≤ r) &&
          ((decide (reg = codeL f.unit) && !f.w) || decide (reg = codeFlags)))
    && !(co.lands.any fun a => decide (a.strand = n) && decide (reg = codeW a.reg) && decide (a.vis ≤ r)
          && decide (a.level = x.depth) && a.frozen.isNone)
    && !(decide (reg = codeFlags) && co.lands.any fun a => a.fills && decide (a.strand = n) && decide (a.vis ≤ r)
          && decide (a.level = x.depth) && a.frozen.isNone)
    && (match bestVer x.vers reg r with
        | some v => decide (v.step < step) || decide (v.seq = r)
        | none => true)

/-! ### Specials (R57) -/

/-- R112, R124: field n of a work identifier under the declared widths; an undeclared field reads 0. -/
def widField (widths : List Nat) (wid : W64) (n : Nat) : W64 :=
  match widths[n]? with
  | none => 0
  | some w =>
    let above := (widths.take (n + 1)).sum
    BitVec.ofNat 64 (wid.toNat / 2 ^ (64 - above) % 2 ^ w)

end Sys2Proof.Machine
end

