-- ==== Sys2Proof/Machine/Flags.lean ====
section
/-! DEFINITION. The sticky flags of a strand (R60, R70, R167): a change of flags, the order in which changes count, and what a
read of a sequence number sees. The masks of the flags stand in Fp.lean, where the formats' results set them. -/

namespace Sys2Proof.Machine

/-- Sticky flags and `oar` after one change (R60, R167). -/
def FlagEv.apply (e : FlagEv) (f : BitVec 10 × W64) : BitVec 10 × W64 :=
  let cleared := f.1 &&& ~~~e.clr
  let oar := if e.clr &&& flagOOR ≠ 0 then 0 else f.2
  (cleared ||| e.set, if e.set &&& flagOOR ≠ 0 ∧ cleared &&& flagOOR = 0 then e.oar else oar)

/-- The flags and `oar` that a read of sequence number r sees; changes are kept in the order in which they count. -/
def Strand.flagsAt (x : Strand) (r : Nat) : BitVec 10 × W64 :=
  (x.flagEvs.filter fun e => decide (e.vis ≤ r)).foldl (fun f e => e.apply f) (x.flagBase, x.oarBase)

/-- Whether a change counts before another (R60): reads see it earlier; of two that the same reads see first, a clear comes before a
flag that is set, so that a flag that emerges then stays; then by sequence number and slot, so that two clears of one bundle both act. [Assumption 66: DEDUCED.] -/
def FlagEv.before (e d : FlagEv) : Bool :=
  let ec := decide (e.clr ≠ 0)
  let dc := decide (d.clr ≠ 0)
  decide (e.vis < d.vis) || (decide (e.vis = d.vis) && ((ec && !dc) ||
    (ec == dc && (decide (e.seq < d.seq) || (decide (e.seq = d.seq) && decide (e.slot < d.slot))))))

/-- A change put in its place in the order. -/
def insertFlagEv : List FlagEv → FlagEv → List FlagEv
  | [], e => [e]
  | d :: r, e => if e.before d then e :: d :: r else d :: insertFlagEv r e

/-- Changes in the order of the steps in which they were made. -/
def insertByStep : List FlagEv → FlagEv → List FlagEv
  | [], e => [e]
  | d :: r, e => if e.step < d.step then e :: d :: r else d :: insertByStep r e

/-- R57, R167: `oar` as it stands at a step, which no interlock orders; 0 while `OOR` is 0. Of two accesses out of range the one whose flag is set first keeps it. [Assumption 66: DEDUCED.] -/
def Strand.oarHeld (x : Strand) (step : Nat) : W64 :=
  let made := (x.flagEvs.filter fun e => decide (e.step < step)).foldl insertByStep []
  let f := made.foldl (fun f e => e.apply f) (x.flagBase, x.oarBase)
  if f.1 &&& flagOOR ≠ 0 then f.2 else 0

def Strand.addFlags (x : Strand) (c : Issuer) (vis : Nat) (set clr : BitVec 10) (oar : W64) : Strand :=
  if set = 0 ∧ clr = 0 then x
  else { x with flagEvs := insertFlagEv x.flagEvs ⟨vis, c.seq, c.slot, c.step, set, clr, oar⟩ }

end Sys2Proof.Machine
end

