-- ==== Sys2Proof/Machine/Ops.lean ====
section
/-! DEFINITION. The shared operations of moves: reading sources and operand ports, holding a slot, issuing it, writing
registers with their log, unit results, requests with a landing, scratchpad accesses in sequence order, and raising causes
(R50-R78, R106, R166-R168, R222-R225). -/

namespace Sys2Proof.Machine

/-! ### Reading -/

/-- R57: the value of a read special, and whether it may be read now. `limm` comes from the bundle itself (R61). -/
def State.specialValue (s : State) (c : Issuer) (k : Special) : Option W64 :=
  let co := s.core c.tile
  let x := s.strand c.tile c.strand
  let reg (code : Nat) : Option W64 :=
    if regReady co c.strand x code c.seq c.step then some (low64 (x.regAt code c.seq)) else none
  match k with
  | .zero => some 0
  | .one => some 1
  | .tick => some (BitVec.ofNat 64 s.tick)
  | .stepc => some (BitVec.ofNat 64 co.stepc)
  | .tid => some (BitVec.ofNat 64 c.tile)
  | .sid => some (BitVec.ofNat 64 c.strand)
  | .wid => some x.wid
  | .wf0 => some (widField x.widths x.wid 0)
  | .wf1 => some (widField x.widths x.wid 1)
  | .wf2 => some (widField x.widths x.wid 2)
  | .wf3 => some (widField x.widths x.wid 3)
  | .wf4 => some (widField x.widths x.wid 4)
  | .wf5 => some (widField x.widths x.wid 5)
  | .lc0 => reg (codeLc false)
  | .lc1 => reg (codeLc true)
  | .lk => reg codeLk
  | .oar => some (x.oarHeld c.step)
  | .flags =>
    if regReady co c.strand x codeFlags c.seq c.step
        && !(x.flagEvs.any fun e => decide (e.vis ≤ c.seq) && decide (c.step ≤ e.step)) then
      some ((x.flagsAt c.seq).1.setWidth 64)
    else none
  | .limm => some (limmValue (x.stream.bitsOf c.seq c.slot) c.slot)
  | .vrc => reg codeVrc
  | .ksel => reg codeKsel
  | .metaWord => some x.metaWord

/-- R56, R70, R71: the value of a source for the issuing slot, or nothing while it must wait. -/
def State.srcValue (s : State) (c : Issuer) (src : Src) : Option Wide :=
  let co := s.core c.tile
  let x := s.strand c.tile c.strand
  let reg (code : Nat) : Option Wide :=
    if regReady co c.strand x code c.seq c.step then some (x.regAt code c.seq) else none
  match src with
  | .m i => reg i.toNat
  | .s i => reg (0x080 + i.toNat)
  | .l i => reg (codeL i.toNat)
  | .b i => some (SMap.get co.latches 0 i.toNat)
  | .w i => reg (codeW i.toNat)
  | .v i => reg (0x0C0 + i.toNat)
  | .special k => (s.specialValue c k).map widen
  | .imm i => some (widen (i.signExtend 64))

/-- R70: operand port k of unit u as a trigger of the issuing bundle sees it, or nothing while it must wait. -/
def State.portValue (s : State) (c : Issuer) (u k : Nat) : Option Wide :=
  let co := s.core c.tile
  let x := s.strand c.tile c.strand
  if regReady co c.strand x (codePort u k) c.seq c.step then some (readAt co.ports x.vers (codePort u k) c.seq) else none

/-- The operands of a trigger: the ports it reads (others 0) and the trigger value, at their widths (R54, R85). -/
structure Opnds where
  o0 : Wide
  o1 : Wide
  o2 : Wide
  t  : Wide
deriving DecidableEq, Repr

/-- R52, R70: a port that an operation reads, or 0 for one it does not. -/
def State.portIf (s : State) (c : Issuer) (u k : Nat) (used : Bool) : Option Wide :=
  if used then s.portValue c u k else some 0

def State.operands (s : State) (c : Issuer) (u : Nat) (use0 use1 use2 : Bool) (src : Src) : Option Opnds :=
  match s.srcValue c src, s.portIf c u 0 use0, s.portIf c u 1 use1, s.portIf c u 2 use2 with
  | some t, some a, some b, some d => some ⟨a, b, d, if triggerWide u then t else narrow64 t⟩
  | _, _, _, _ => none

/-! ### Holding and issuing a slot -/

/-- R69, R71, R72: the slip limit (a slot's lead never passes 16, R110), the S bit and full sync points against the slots'
places as the step began, and a slot still busy with a clear (R210). [Assumption 12: DEDUCED.] -/
def State.slotFree (s : State) (c : Issuer) (sync : Bool) : Bool :=
  let co := s.core c.tile
  let x := s.strand c.tile c.strand
  decide (c.seq < co.floor + 16) && (!(sync || isFullSync (x.stream.bitsOf c.seq c.slot)) || decide (c.seq ≤ co.floor))
    && !(co.busySlot.any fun b => decide (b.1 = c.slot) && decide (c.step < b.2.1))

/-- The slot stalls in this step. -/
def State.stall (s : State) (c : Issuer) : State :=
  s.modCore c.tile fun co => { co with stalled := c.slot :: co.stalled }

/-- R224: the slot stalls on a full gated-store buffer or register log. -/
def State.stallFull (s : State) (c : Issuer) : State :=
  s.modCore c.tile fun co => { co with stalled := c.slot :: co.stalled, fullLog := true }

/-- The slot issues its move: its next sequence number rises by one. -/
def State.advance (s : State) (c : Issuer) : State :=
  (s.modStrand c.tile c.strand fun x =>
    { x with stream := { x.stream with slotSeq := x.stream.slotSeq.set c.slot (c.seq + 1) } }).modCore c.tile
      fun co => { co with issued := c.slot :: co.issued }

/-! ### Causes -/

/-- R106, R195: a cause raised on a strand. A second instance of a cause already raised and not taken is dropped. [Assumption 16: DEDUCED.] -/
def Strand.raise (x : Strand) (r : CauseRec) : Strand :=
  if x.causes.any fun d => decide (d.cause = r.cause) then x else { x with causes := x.causes ++ [r] }

def State.raise (s : State) (t n : Nat) (r : CauseRec) : State := s.modStrand t n fun x => x.raise r

/-- A cause raised by the issuing slot's move, which is then not issued (R75, R164). -/
def State.raiseHere (s : State) (c : Issuer) (cause : Nat) (info : W64) (detail : BitVec 16) : State :=
  (s.raise c.tile c.strand ⟨cause, info, detail, c.slot⟩).stall c

/-- R105: cause 2 at a trigger, with the bundle's index. -/
def State.illegalDest (s : State) (c : Issuer) (detail : BitVec 16) : State :=
  s.raiseHere c 2 (BitVec.ofNat 64 ((s.strand c.tile c.strand).stream.idxOf c.seq c.slot)) detail

/-! ### Writing registers -/

/-- R223: the registers the log covers, by read code. -/
def isLogged (reg : Nat) : Bool :=
  decide (reg < 0x0A0) || (decide (0x0C0 ≤ reg) && decide (reg < 0x0E0))
    || decide (reg = codeLc false) || decide (reg = codeLc true) || decide (reg = codeLk)
    || decide (reg = codeVrc) || decide (reg = codeKsel)

def Strand.inLog (x : Strand) (reg : Nat) : Bool := x.log.any fun e => decide (e.reg = reg)

/-- R223: the first write after the checkpoint records the register as it stood; a handler logs nothing (R222). -/
def Strand.logReg (x : Strand) (reg : Nat) : Strand :=
  if x.depth = 0 ∧ isLogged reg ∧ !x.inLog reg then
    { x with log := x.log ++ [⟨reg, SMap.get x.regs 0 reg, x.vers.filter fun v => decide (v.reg = reg)⟩] }
  else x

/-- R223: entries that results in flight have reserved. -/
def reservedLog (co : Core) (x : Strand) : Nat :=
  ((List.range 16).filter fun u => !x.inLog (codeL u) && co.pipe.any fun f => !f.w && decide (f.unit = u)).length

/-- R224: whether a write of a register finds, or needs no, log entry. -/
def logRoom (co : Core) (x : Strand) (reg : Nat) : Bool :=
  decide (0 < x.depth) || !isLogged reg || x.inLog reg
    || (co.pipe.any fun f => !f.w && decide (reg = codeL f.unit))
    || decide (x.log.length + reservedLog co x < 32)

/-- A write that reads of sequence number `vis` and later see (R70), of the given rank among the writes of its bundle: slot + 1
for moves (R65), 0 for an advance that any move of the bundle stands over (R182). [Assumption 13: DEDUCED.] -/
def Strand.writeRank (x : Strand) (c : Issuer) (rank reg vis : Nat) (v : Wide) : Strand :=
  let x := x.logReg reg
  { x with vers := x.vers ++ [⟨reg, vis, c.seq, rank, c.step, v⟩] }

/-- A write by the issuing slot's move. -/
def Strand.write (x : Strand) (c : Issuer) (reg vis : Nat) (v : Wide) : Strand := x.writeRank c (c.slot + 1) reg vis v

def State.writeReg (s : State) (c : Issuer) (reg vis : Nat) (v : Wide) : State :=
  s.modStrand c.tile c.strand fun x => x.write c reg vis v

/-! ### Unit results (R53, R68, R177) -/

/-- A result on its way, with the flags it will set. -/
def State.result (s : State) (c : Issuer) (unit lat : Nat) (w : Bool) (v : Wide) (flags : BitVec 10) (oar : W64) : State :=
  s.modCore c.tile fun co =>
    { co with pipe := co.pipe ++ [⟨unit, v, w, c.step + lat, c.seq, c.slot, c.seq + lat, flags, oar⟩] }

/-- Flags set by an operation without a result, seen from the next sequence number (R167). -/
def State.setFlags (s : State) (c : Issuer) (f : BitVec 10) : State :=
  s.modStrand c.tile c.strand fun x => x.addFlags c (c.seq + 1) f 0 0

/-! ### What holds an access -/

/-- A waitk word (R62). -/
def isWaitk (x : MoveWord) : Bool := x.extractLsb' 22 2 = 0b10#2 && x.extractLsb' 16 5 = 5#5

/-- R200, R222: an open request of the strand, at the present handler level, whose outcome is not known. -/
def openOutstanding (co : Core) (n : Nat) (x : Strand) : Bool :=
  co.lands.any fun a => decide (a.strand = n) && a.isOpen && a.data.isNone && decide (a.level = x.depth)
    && a.frozen.isNone

/-- Requests of a strand's bundles below q, made at its present handler level, that are not yet performed. -/
def State.requestsBelow (s : State) (t n q : Nat) (test : Req → Bool) : Bool :=
  s.reqs.any fun p => decide (p.2.tile = t) && decide (p.2.strand = n) && decide (p.2.level = (s.strand t n).depth)
    && decide (p.2.seq < q) && test p.2

/-- R437: cross-die writes whose applied notices have still to return: those that a strand made at a handler depth (R108) in bundles below q, and
those of its engine commands numbered below `upto`. [Assumption 55: DEDUCED.] -/
def State.unapplied (s : State) (t n level q upto : Nat) : Bool :=
  s.bursts.any fun p => decide (p.2.tile = t)
    && ((decide (p.2.strand = n) && decide (p.2.level = level) && decide (p.2.seq < q)) || (decide (p.2.strand = 16 + n) && decide (p.1 < upto)))

/-- R429, R435, R440: whether a write to a replicated page that agents of a die may have read has still to reach some other copy; for a release that is itself a stamped
burst those of the die's own agents do not count, which its stamp puts before it. [Assumption 55: DEDUCED.] -/
def State.halfSpread (s : State) (die upto : Nat) (stamped : Bool) : Bool :=
  s.bursts.any fun p => decide (p.1 < upto) && decide (p.2.group ≠ 0) && !p.2.done
    && (if p.2.origin = die then !stamped else !(s.bursts.any fun q => decide (q.2.group = p.2.group) && decide (q.2.dest = die) && !q.2.done))

/-- R437: whether a release of a tile's strand at module scope has still to wait for a write of its own or one that it may have read. -/
def State.writesOut (s : State) (t n q upto : Nat) (stamped : Bool) : Bool :=
  (!stamped && s.unapplied t n (s.strand t n).depth q upto) || s.halfSpread (t / 1024) upto stamped

/-- An access word: LDS, MSG, SYN, WRK, `sclr`, and `fire`, which reads the format table (R49, R73). -/
def isAccess (w : MoveWord) : Bool :=
  isTriggerWord w && (let u := wordUnit w; decide (6 ≤ u ∧ u ≤ 9) || (decide (u = 1) && decide (wordPort w = 8))
    || (decide (u = 15) && decide (wordPort w = 6)))

/-- R427, R431: a gated store of a bundle below q that has still to be performed. -/
def Strand.gatedBelow (x : Strand) (q : Nat) : Bool := decide (x.depth = 0) && x.stores.any fun g => !g.done && decide (g.level = 0) && decide (g.seq < q)

/-- R206, R173, R356, R437: whether an order holds a later access; one that only reads is free of a release, and of a remote store the request itself waits for
the release (`later`). [Assumption 12: DEDUCED.] -/
def State.orderHolds (s : State) (t n : Nat) (o : Order) (reads later : Bool) : Bool :=
  match o.rid with
  | some i => (SMap.lookup s.reqs i).isSome
  | none =>
    let x := s.strand t n
    ((o.acq || !reads) && x.stream.unissuedBelow o.seq isAccess)
      || (o.acq && s.requestsBelow t n o.seq fun r => match r.kind with | .red _ _ => false | .store => !later | _ => true)
      || (o.rel && (!reads || o.acq) && !later
          && (x.gatedBelow o.seq || s.requestsBelow t n o.seq (fun _ => true) || (decide (2 ≤ o.scope) && s.writesOut t n o.seq o.upto false)))

/-- Whether an order still waits for something. -/
def State.orderLive (s : State) (t n : Nat) (o : Order) : Bool := s.orderHolds t n o false false

/-- R437: the releasing fences before a bundle that are not yet done. -/
def State.liveReleases (s : State) (c : Issuer) : List Order :=
  (s.strand c.tile c.strand).orders.filter fun o => o.rid.isNone && o.rel && decide (o.seq < c.seq) && s.orderLive c.tile c.strand o

/-- A `cstat` word (R295). -/
def isCstat (w : MoveWord) : Bool := isTriggerWord w && decide (wordUnit w = 15) && decide (wordPort w = 12)

/-- R206, R314, R431, R432: whether an access of the issuing bundle may be made: no earlier `waitk` is unissued or issued in this very step,
no earlier fence, acquire or release still waits for requests before it, and no `cstat` two bundles before it or more is unissued. [Assumption 12: DEDUCED.] -/
def State.accessFree (s : State) (c : Issuer) (reads later : Bool) : Bool :=
  let x := s.strand c.tile c.strand
  !x.stream.unissuedBelow c.seq (fun w => isWaitk w || (isTriggerWord w && mayOrder (wordUnit w) (wordPort w)))
    && !x.stream.unissuedBelow (c.seq - 1) isCstat
    && !(x.lastWaitk.any fun w => decide (w.1 < c.seq) && decide (c.step ≤ w.2))
    && !(x.orders.any fun o => decide (o.seq < c.seq) && s.orderHolds c.tile c.strand o reads later)

/-- R425: remote accesses of a strand to its own tile's scratchpad of bundles below q, at a handler depth or beneath it, not yet performed. -/
def State.ownBelow (s : State) (t n level q : Nat) (test : Req → Bool) : Bool :=
  s.reqs.any fun p => p.2.own && decide (p.2.tile = t) && decide (p.2.strand = n) && (decide (p.2.level < level) || (decide (p.2.level = level) && decide (p.2.seq < q)))
    && test p.2

/-- R73, R425: whether a read of the issuing bundle has every earlier store before it, the remote ones to its own tile's scratchpad among them. [Assumption 12: DEDUCED.] -/
def State.loadsFree (s : State) (c : Issuer) : Bool :=
  let x := s.strand c.tile c.strand
  !(x.stream.unissuedBelow c.seq fun w => isTriggerWord w && isStorePort (wordUnit w) (wordPort w))
    && !s.ownBelow c.tile c.strand x.depth c.seq fun r => decide (r.kind = .store)

/-! ### The scratchpad in sequence order (R73, R167, R168, R222, R223) -/

/-- A run of bytes from address a, with those of it at k bytes from address b as another run of the same addresses has them. -/
def restoreRun (run from_ : List Byte) (a b k : Nat) : List Byte :=
  (run.zip from_).mapIdx fun i p => if b ≤ a + i ∧ a + i < b + k then p.2 else p.1

/-- A tile's scratchpad bytes from a as an access of a strand of sequence number q at a handler depth sees them: stores below q, none of q or later. -/
def State.scratchView (s : State) (t n level q a len : Nat) : List Byte :=
  let mine := (s.strand t n).stores.filter fun g => decide (g.level = level)
  let now := (mine.reverse.filter fun g => g.done && decide (q ≤ g.seq)).foldl
    (fun run g => g.old.foldl (fun run p => overlay run a p.1 p.2) run) (memRead s.mem (tileBase t + a) len)
  (mine.filter fun g => decide (g.seq < q)).foldl
    (fun run g => g.parts.foldl (fun run p => if g.done then restoreRun run now a p.1 p.2.length else overlay run a p.1 p.2) run) now

/-- As an access of the issuing strand sees them. -/
def State.scratchAt (s : State) (c : Issuer) (q a n : Nat) : List Byte := s.scratchView c.tile c.strand (s.strand c.tile c.strand).depth q a n

/-- A piece of an access: its aligned address and its length, within one granule. -/
abbrev Piece := Nat × Nat

/-- R167: whether a piece lies beyond the scratchpad. -/
def Piece.out (p : Piece) : Bool := decide (scratchSize ≤ p.1)

/-- R167: the bytes of a read, piece by piece; a piece beyond the scratchpad reads zero. -/
def State.readPieces (s : State) (c : Issuer) (ps : List Piece) : List Byte :=
  ps.flatMap fun p => if Piece.out p then List.replicate p.2 0 else s.scratchAt c c.seq p.1 p.2

/-- R166, R167: the flags of an access and the address `oar` takes, the granule of its first piece out of range. -/
def accessFlags (mis : Bool) (ps : List Piece) (oarAddr : Nat → Nat) : BitVec 10 × W64 :=
  match ps.find? Piece.out with
  | some p => (flagIf mis flagMIS ||| flagOOR, BitVec.ofNat 64 (oarAddr p.1))
  | none => (flagIf mis flagMIS, 0)

/-- R223: gated stores that fill the buffer. -/
def gatedCount (x : Strand) : Nat := (x.stores.filter fun g => g.trig && !g.done && decide (g.level = 0)).length

/-- R224: room for one more gated store; a handler's stores are not gated (R108). -/
def gateRoom (x : Strand) : Bool := decide (0 < x.depth) || decide (gatedCount x < 64)

/-- Stores of one access put into memory at once, keeping what they replaced. -/
def performParts (m : List Host.Cell) (t : Nat) (parts : List (Nat × List Byte)) : List Host.Cell × List (Nat × List Byte) :=
  parts.foldl (fun acc p =>
    (memWrite acc.1 (tileBase t + p.1) p.2, (p.1, memRead acc.1 (tileBase t + p.1) p.2.length) :: acc.2)) (m, [])

/-- Whether a store writes the byte at an address. -/
def GStore.covers (g : GStore) (a : Nat) : Bool := g.parts.any fun p => decide (p.1 ≤ a) && decide (a < p.1 + p.2.length)

/-- The byte at an address before a store stood there. -/
def GStore.oldByte (g : GStore) (a : Nat) : Byte :=
  g.old.foldl (fun b p => if p.1 ≤ a ∧ a < p.1 + p.2.length then p.2.getD (a - p.1) 0 else b) 0

/-- A byte of a store put beneath the first of the later stores, in their order, that already stands over it, which then keeps it as what
it replaced; the later stores so changed, with the byte that stood there. Nothing when no later store stands over it. -/
def slideUnder : List GStore → Nat → Byte → Option (List GStore × Byte)
  | [], _, _ => none
  | g :: r, a, b =>
    if g.covers a then some ({ g with old := g.old ++ [(a, [b])] } :: r, g.oldByte a)
    else (slideUnder r a b).map fun q => (g :: q.1, q.2)

/-- One byte of a store put into memory, or beneath a later store of the strand that has been performed (R73, R86). -/
def performByte (t : Nat) (acc : List Host.Cell × List GStore × List (Nat × List Byte)) (a : Nat) (b : Byte) :
    List Host.Cell × List GStore × List (Nat × List Byte) :=
  match slideUnder acc.2.1 a b with
  | some q => (acc.1, q.1, (a, [q.2]) :: acc.2.2)
  | none => (memWrite acc.1 (tileBase t + a) [b], acc.2.1, (a, memRead acc.1 (tileBase t + a) 1) :: acc.2.2)

/-- The stores of one access performed when later ones of the strand already stand in memory: memory, the later stores, and what was
replaced. -/
def performUnder (m : List Host.Cell) (t : Nat) (later : List GStore) (parts : List (Nat × List Byte)) :
    List Host.Cell × List GStore × List (Nat × List Byte) :=
  if later.isEmpty then
    let r := performParts m t parts
    (r.1, later, r.2)
  else parts.foldl (fun acc p => (p.2.zipIdx).foldl (fun acc q => performByte t acc (p.1 + q.2) q.1) acc) (m, later, [])

/-- R73: the sequence order of stores; of two of one bundle the lower slot's comes first. [Assumption 66: DEDUCED.] -/
def GStore.before (g h : GStore) : Bool := decide (g.seq < h.seq) || (decide (g.seq = h.seq) && decide (g.slot < h.slot))

/-- A store put in its place in sequence order. [Assumption 66: DEDUCED.] -/
def insertStore : List GStore → GStore → List GStore
  | [], g => [g]
  | h :: r, g => if g.before h then g :: h :: r else h :: insertStore r g

/-- A store performed among the strand's others of its handler level, which are in sequence order. -/
def performStore (m : List Host.Cell) (t : Nat) (stores : List GStore) (g : GStore) : List Host.Cell × List GStore :=
  let later (h : GStore) : Bool := h.done && decide (h.level = g.level) && g.before h
  let r := performUnder m t (stores.filter later) g.parts
  (r.1, insertStore (stores.filter (fun h => !later h) ++ r.2.1) { g with done := true, old := r.2.2 })

def State.setMem (s : State) (m : List Host.Cell) : State := { s with mem := m }

/-- A store of the issuing bundle: gated outside a handler (R222, R223), performed at once in one (R108), in sequence order with the
others (R73). Pieces beyond the scratchpad are dropped (R167). [Assumption 18: DEDUCED.] -/
def State.storePieces (s : State) (c : Issuer) (trig : Bool) (ps : List (Piece × List Byte)) : State :=
  let parts := (ps.filter fun p => !Piece.out p.1).map fun p => (p.1.1, p.2)
  let x := s.strand c.tile c.strand
  if 0 < x.depth then
    let r := performStore s.mem c.tile x.stores ⟨c.seq, c.slot, x.depth, parts, trig, false, []⟩
    (s.setMem r.1).modStrand c.tile c.strand fun x => { x with stores := r.2 }
  else s.modStrand c.tile c.strand fun x => { x with stores := insertStore x.stores ⟨c.seq, c.slot, 0, parts, trig, false, []⟩ }

/-- R222: the gated stores performed in sequence order and the buffer emptied. [Assumption 18: DEDUCED.] -/
def State.commitStores (s : State) (t n : Nat) : State :=
  let x := s.strand t n
  let gated (g : GStore) : Bool := !g.done && decide (g.level = 0)
  let r := (x.stores.filter gated).foldl (fun (acc : List Host.Cell × List GStore) g => performStore acc.1 t acc.2 g)
    (s.mem, x.stores.filter fun g => !gated g)
  (s.setMem r.1).modStrand t n fun x => { x with stores := r.2 }

/-! ### Triggers -/

/-- What a trigger needs before it issues: the operand ports it reads, whether it commits the checkpoint (R225), whether it is an access
that fences and `waitk` hold (R206, R314), whether it reads the scratchpad (R73), whether it only reads memory, whether it takes a gated-store
entry (R223), whether its request itself waits for releasing fences (R437), and the unit whose `l` register its result writes. -/
structure Need where
  use0   : Bool := false
  use1   : Bool := false
  use2   : Bool := false
  commit : Bool := false
  access : Bool := false
  loads  : Bool := false
  reads  : Bool := false
  gate   : Bool := false
  later  : Bool := false
  result : Option Nat := none
deriving DecidableEq, Repr

/-- Whether a trigger that needs this waits for room (R224): true when there is room. -/
def State.roomFor (s : State) (c : Issuer) (n : Need) (w : Bool) : Bool :=
  let co := s.core c.tile
  let x := s.strand c.tile c.strand
  (!n.gate || gateRoom x) && (match n.result with | some u => w || logRoom co x (codeL u) | none => true)

/-- R225, R427, R431: whether a trigger commits the checkpoint: as itself, or as a store issued after a releasing fence of a later bundle. [Assumption 12: DEDUCED.] -/
def State.commits (s : State) (c : Issuer) (n : Need) : Bool :=
  let x := s.strand c.tile c.strand
  n.commit || (n.access && !n.loads && !n.reads && decide (x.depth = 0) && x.orders.any fun o => o.rid.isNone && o.rel && decide (c.seq < o.seq))

/-- Whether nothing but its operands and the room for it holds the trigger (R69, R104, R222). [Assumption 12: DEDUCED.] -/
def State.triggerFree (s : State) (c : Issuer) (n : Need) (sync : Bool) : Bool :=
  s.slotFree c sync
    && (!s.commits c n || !openOutstanding (s.core c.tile) c.strand (s.strand c.tile c.strand))
    && (!n.access || s.accessFree c (n.loads || n.reads) n.later) && (!n.loads || s.loadsFree c)

/-- The bundle index an implicit mark of the issuing trigger records (R222). -/
def State.commitMark (s : State) (c : Issuer) (n : Need) : State :=
  if s.commits c n then
    s.modCore c.tile fun co => { co with markReq := some ((s.strand c.tile c.strand).stream.idxOf c.seq c.slot) }
  else s

/-- One trigger: while it is held its slot stalls; otherwise `eff` gives its effect on its operands, and the slot issues. An
effect of `none` keeps the slot stalled (a wait of the instruction's own); `some (.error s')` is a cause raised in place of
the effect, with the slot not issued. [Assumption 10: DESIGN CHOICE.] -/
def State.trigger (s : State) (u : Nat) (n : Need) (t : Trig)
    (eff : Issuer → Opnds → State → Option (Except State State)) : Host.Outcome State Fault Refusal :=
  match s.issuer with
  | none => .fault .noIssuer
  | some c =>
    if !s.triggerFree c n t.sync then .next (s.stall c)
    else match s.operands c u n.use0 n.use1 n.use2 t.src with
      | none => .next (s.stall c)
      | some o =>
        if !s.roomFor c n t.w then .next (s.stallFull c)
        else match eff c o s with
          | none => .next (s.stall c)
          | some (.error s') => .next s'
          | some (.ok s') => .next ((s'.commitMark c n).advance c)

/-- A trigger with a result at a fixed latency (R68, R86): `f` gives the value and the flags it sets as it emerges. -/
def State.compute (s : State) (u lat : Nat) (n : Need) (t : Trig) (f : Opnds → Wide × BitVec 10) :
    Host.Outcome State Fault Refusal :=
  s.trigger u { n with result := some u } t fun c o s =>
    some (.ok (s.result c u lat t.w (f o).1 (f o).2 0))

/-! ### Plain moves -/

/-- One plain move: while its slot or source is held it stalls; with no log room it stalls for a commit; otherwise `eff` writes the value and the slot
issues. [Assumption 10: DESIGN CHOICE.] -/
def State.plainMove (s : State) (sync : Bool) (src : Src) (reg : Option Nat) (eff : Issuer → Wide → State → State) :
    Host.Outcome State Fault Refusal :=
  match s.issuer with
  | none => .fault .noIssuer
  | some c =>
    if !s.slotFree c sync then .next (s.stall c)
    else match s.srcValue c src with
      | none => .next (s.stall c)
      | some v =>
        if (match reg with | some r => !logRoom (s.core c.tile) (s.strand c.tile c.strand) r | none => false) then
          .next (s.stallFull c)
        else .next ((eff c v s).advance c)

/-- One control item. [Assumption 10: DESIGN CHOICE.] -/
def State.control (s : State) (sync : Bool) (ready : Issuer → State → Bool) (eff : Issuer → State → State) :
    Host.Outcome State Fault Refusal :=
  match s.issuer with
  | none => .fault .noIssuer
  | some c => if s.slotFree c sync && ready c s then .next ((eff c s).advance c) else .next (s.stall c)

end Sys2Proof.Machine
end

