-- ==== Sys2Proof/Machine/Adr.lean ====
section
/-! DEFINITION. Handles and the extent table (R157-R162): what ADR computes without translating. -/

namespace Sys2Proof.Machine

/-! ### Handles (R158) -/

def handleKind (h : W64) : Nat := (h.extractLsb' 62 2).toNat
def handleSlot (h : W64) : Nat := (h.extractLsb' 48 3).toNat
/-- The physical address of a pinned handle. -/
def handlePa (h : W64) : Nat := (h.extractLsb' 0 48).toNat
/-- The virtual address of an open handle. -/
def handleVa (h : W64) : Nat := (h.extractLsb' 0 52).toNat

/-- R158: the classes of handle. -/
inductive HandleClass where
  | null | pinned | opened | bad
deriving DecidableEq, Repr

/-- R158: null whatever else it holds; a reserved kind or reserved bit makes it bad. An open handle's reserved bits are 61-52. -/
def handleClass (h : W64) : HandleClass :=
  match handleKind h with
  | 0 => .null
  | 1 => if h.extractLsb' 51 11 = 0 then .pinned else .bad
  | 3 => if h.extractLsb' 52 10 = 0 then .opened else .bad
  | _ => .bad

def pinnedHandle (slot pa : Nat) : W64 := BitVec.ofNat 64 (2 ^ 62 + slot * 2 ^ 48 + pa)
def openHandle (va : Nat) : W64 := BitVec.ofNat 64 (3 * 2 ^ 62 + va % 2 ^ 52)

/-! ### The extent table (R159-R161) -/

def Strand.extent (x : Strand) (j : Nat) : ExtEntry := x.extents.getD j ⟨0, 0, 0, 0⟩
def Strand.extSlot (x : Strand) (k : Nat) : ExtSlot := x.extSlots.getD k ⟨0, 0, 0, 0, false⟩

/-- R160: whether offset a of entry j exists. -/
def Strand.inExtent (x : Strand) (j a : Nat) : Bool :=
  decide (j < 8) && decide ((x.extent j).acc ≠ 0) && decide (a < (x.extent j).len)

/-- R160: the slot that covers offset a of entry j. -/
def Strand.slotFor (x : Strand) (j a : Nat) : Option Nat :=
  (List.range 8).find? fun k =>
    let e := x.extSlot k
    decide (e.rlen ≠ 0) && decide (e.ent = j) && decide (e.ofs ≤ a) && decide (a < e.ofs + e.rlen)

/-- R160 `xa` and `xab`: the handle, the contiguous bytes and the flags. -/
def Strand.xaOf (x : Strand) (j a : Nat) : W64 × W64 × BitVec 10 :=
  if !x.inExtent j a then (0, 0, flagNUL)
  else
    let pinned := if a < (x.extent j).opn then x.slotFor j a else none
    match pinned with
    | some k =>
      let e := x.extSlot k
      (pinnedHandle k (e.pb + a - e.ofs), BitVec.ofNat 64 (e.ofs + e.rlen - a), 0)
    | none => (openHandle ((x.extent j).vb + a), BitVec.ofNat 64 ((x.extent j).len - a), 0)

/-- R161 `hdl`. -/
def Strand.hdlOf (x : Strand) (len va : W64) : W64 × BitVec 10 :=
  if len = 0 ∨ va.extractLsb' 52 12 ≠ 0 then (0, flagNUL)
  else
    let hit := (List.range 8).find? fun k =>
      let e := x.extSlot k
      let lo := (x.extent e.ent).vb + e.ofs
      decide (e.rlen ≠ 0) && decide (lo ≤ va.toNat) && decide (va.toNat + len.toNat ≤ lo + e.rlen)
    match hit with
    | some k =>
      let e := x.extSlot k
      (pinnedHandle k (e.pb + va.toNat - (x.extent e.ent).vb - e.ofs), 0)
    | none => (openHandle va.toNat, 0)

/-- R92: an ADR operation with its latency of 2. -/
def State.adr (s : State) (use0 use1 : Bool) (t : Trig) (f : Strand → Opnds → W64 × BitVec 10) :
    Host.Outcome State Fault Refusal :=
  s.trigger 5 { use0 := use0, use1 := use1, result := some 5 } t fun c o s =>
    let r := f (s.strand c.tile c.strand) o
    some (.ok (s.result c 5 2 t.w (widen r.1) r.2 0))

/-- R160 `xa`. -/
def execXa (t : Trig) (s : State) : Host.Outcome State Fault Refusal :=
  s.adr true false t fun x o => let r := x.xaOf (low64 o.t).toNat (low64 o.o0).toNat; (r.1, r.2.2)

/-- R160 `xab`. -/
def execXab (t : Trig) (s : State) : Host.Outcome State Fault Refusal :=
  s.adr true false t fun x o => let r := x.xaOf (low64 o.t).toNat (low64 o.o0).toNat; (r.2.1, r.2.2)

/-- R160 `xlen`. -/
def execXlen (t : Trig) (s : State) : Host.Outcome State Fault Refusal :=
  s.adr false false t fun x o =>
    (if (low64 o.t).toNat < 8 then BitVec.ofNat 64 (x.extent (low64 o.t).toNat).len else 0, 0)

/-- R160 `idx`. -/
def execIdx (t : Trig) (s : State) : Host.Outcome State Fault Refusal :=
  s.adr true true t fun _ o => (low64 o.t + low64 o.o0 * low64 o.o1, 0)

/-- R161 `hdl`. -/
def execHdl (t : Trig) (s : State) : Host.Outcome State Fault Refusal :=
  s.adr true false t fun x o => x.hdlOf (low64 o.o0) (low64 o.t)

end Sys2Proof.Machine
end

