-- ==== Sys2Proof/Machine/Sched.lean ====
section
/-! DEFINITION. Events to come: the agenda of the module, typical latencies (R4), and the channels that keep order (R15). -/

namespace Sys2Proof.Machine

/-- An event put in the agenda, behind those of its tick and order. -/
def insertEvent : List (Nat × Nat × Instr × Operand) → Nat × Nat × Instr × Operand → List (Nat × Nat × Instr × Operand)
  | [], e => [e]
  | d :: r, e => if e.1 < d.1 ∨ (e.1 = d.1 ∧ e.2.1 < d.2.1) then e :: d :: r else d :: insertEvent r e

/-- An event at a tick, of a given order among those of the tick. [Assumption 1: DESIGN CHOICE.] -/
def State.atTick (s : State) (tick order : Nat) (i : Instr) (o : Operand) : State :=
  { s with agenda := insertEvent s.agenda (tick, order, i, o) }

/-- An event at a tick unless the very same one is due then. -/
def State.once (s : State) (tick order : Nat) (i : Instr) (o : Operand) : State :=
  if s.agenda.contains (tick, order, i, o) then s else s.atTick tick order i o

/-- An event after a number of ticks. -/
def State.after (s : State) (d : Nat) (i : Instr) (o : Operand) : State := s.atTick (s.tick + d) 0 i o

/-- R4: an event after a typical latency: some number of ticks, at least one. [Assumption 5: DESIGN CHOICE.] -/
def State.later (s : State) (what : Nat) (i : Instr) (o : Operand) : State :=
  { s.after (max 1 (Config.delay s.fresh what)) i o with fresh := s.fresh + 1 }

/-- R5: the module cluster of a tile. -/
def clusterOf (t : Nat) : Nat := t / 1024 * 4 + t / 512 % 2 * 2 + t / 16 % 2

def State.cluster (s : State) (k : Nat) : Cluster := SMap.get s.clusters Cluster.reset k
def State.modCluster (s : State) (k : Nat) (f : Cluster → Cluster) : State := { s with clusters := SMap.set s.clusters k (f (s.cluster k)) }

/-- R26, R74, R457: fractions of a step earned in a tick, 14 at 2.1 GHz and 16 at 2.4 GHz, and what a step costs at the core's split level. [Assumption 60: DEDUCED.] -/
def State.stepRate (s : State) (t : Nat) : Nat := 14 + (s.cluster (clusterOf t)).freq
def State.stepCost (s : State) (t : Nat) : Nat := 14 * 2 ^ (s.core t).level

/-- The events of one kind and operand taken out of the agenda. -/
def State.cancel (s : State) (test : Instr → Operand → Bool) : State :=
  { s with agenda := s.agenda.filter fun e => !test e.2.2.1 e.2.2.2 }

/-- An event for a tile that a freeze wave has stopped is channel state (R393). [Assumption 11: DEDUCED.] -/
def State.unlessStopped (s : State) (t : Nat) (i : Instr) (k : State → Host.Outcome State Fault Refusal) : Host.Outcome State Fault Refusal :=
  if (s.tile t).stopped then .next (s.modTile t fun y => { y with chan := y.chan ++ [(i, s.ev)] }) else k s

def opTile (t : Nat) : Operand := { Operand.zero with tile := t }
def opStrand (t n : Nat) : Operand := { Operand.zero with tile := t, strand := n }
def opNode (t n : Nat) : Operand := { Operand.zero with tile := t, node := n }
def opId (i : Nat) : Operand := { Operand.zero with id := i }
def opTileId (t i : Nat) : Operand := { Operand.zero with tile := t, id := i }

/-! ### Event counters (R466, R467) -/

def bumpCounters (cs : List EvCounter) (tick src n : Nat) : List EvCounter :=
  cs.map fun c => if c.src = src ∧ c.start ≤ tick then { c with val := (c.val + n) % 2 ^ 48 } else c

def State.dieCounters (s : State) (die : Nat) : List EvCounter := SMap.get s.dieCount (List.replicate 16 ⟨0, 0, 0⟩) die

/-- A die's counters of a source rise. [Assumption 62: DEDUCED.] -/
def State.tallyDie (s : State) (die src n : Nat) : State :=
  if (s.dieCounters die).any fun c => decide (c.src = src) then
    { s with dieCount := SMap.set s.dieCount die (bumpCounters (s.dieCounters die) s.tick src n) }
  else s

/-- A tile's own counters of a source rise; a stopped tile's do not (R466). -/
def State.tallyTile (s : State) (t src n : Nat) : State :=
  if !(s.tile t).stopped && (s.tile t).counters.any fun c => decide (c.src = src) then
    s.modTile t fun y => { y with counters := bumpCounters y.counters s.tick src n } else s

/-- A tile's counters of a source rise, and its die's; a stopped tile's do not (R466). [Assumption 62: DEDUCED.] -/
def State.tally (s : State) (t src n : Nat) : State :=
  if (s.tile t).stopped then s else (s.tallyTile t src n).tallyDie (t / 1024) src n

/-- R467: work of a die's engines, for a tile where one asked for it. -/
def State.tallyWork (s : State) (die : Nat) (tile : Option Nat) (src n : Nat) : State :=
  if n = 0 then s else (match tile with | some t => s.tallyTile t src n | none => s).tallyDie die src n

/-- R455: something has come for a tile. -/
def State.poke (s : State) (t : Nat) : State := s.modTile t fun y => { y with poked := true }

end Sys2Proof.Machine
end

