-- ==== Sys2Proof/Machine/Array.lean ====
section
/-! DEFINITION. The array (R227-R244): beats and their passage through the PEs, the two planes and their swaps, and the MTX triggers. What
leaves at the exit collar is taken by PROMOTE, in Collar. -/

namespace Sys2Proof.Machine

def State.arr (s : State) (t : Nat) : Arr := (s.tile t).array
def State.modArr (s : State) (t : Nat) (f : Arr → Arr) : State := s.modTile t fun y => { y with array := f y.array }
def State.collar (s : State) (t : Nat) : Collar := (s.tile t).collar
def State.modCollar (s : State) (t : Nat) (f : Collar → Collar) : State := s.modTile t fun y => { y with collar := f y.collar }

/-! ### Modes (R230, R234) -/

/-- F16 and BF16. -/
def modeSlow (m : Nat) : Bool := decide (m = 5) || decide (m = 6)
/-- Modes whose push covers 64 positions of K. -/
def modeSparse (m : Nat) : Bool := decide (m = 1) || decide (m = 2) || decide (m = 4)
def modeInt (m : Nat) : Bool := decide (m = 3) || decide (m = 4)

/-- R230: h. -/
def modeH (m : Nat) : Nat := if modeSlow m then 2 else 1
/-- R230: steps from issue to the exit collar. -/
def exitLatency (h : Nat) : Nat := 64 * h + 2

def peKey (r c : Nat) : Nat := 32 * r + c
def Arr.weight (a : Arr) (plane r c : Nat) : Nat := SMap.get (a.weights.getD plane []) 0 (peKey r c)
def Arr.index (a : Arr) (plane r c : Nat) : Nat := SMap.get (a.meta_.getD plane []) 0 (peKey r c)

/-- R45, R235: the K position that a PE of row r takes, by its index register. -/
def pePosition (mode r v : Nat) : Nat :=
  if mode = 1 ∨ mode = 4 then 4 * (r / 2) + v % 4
  else if mode = 2 then 8 * (r / 4) + v
  else r

/-! ### A vector at a PE (R36, R38, R39) -/

/-- An E4M3 value in units of 2^-9. -/
def e4m3Units (code : Nat) : Int :=
  match e4m3.decode code with
  | .fin s m e => (if s then -1 else 1) * (m * 2 ^ (e + 9).toNat : Nat)
  | _ => 0

/-- An INT8 value. -/
def int8Value (code : Nat) : Int := (BitVec.ofNat 8 code).toInt

def slowFmt (mode : Nat) : Fmt := if mode = 5 then fp16 else bf16

/-- R38: y + x·w with one rounding; a masked position adds +0. -/
def peSum (mode : Nat) (x : Nat) (live : Bool) (w y : Nat) : Nat :=
  if live then (fp32.rne (numFma ((slowFmt mode).decode x) ((slowFmt mode).decode w) (fp32.decode y)).1).1
  else (fp32.rne (numAdd (fp32.decode y) (.fin false 0 0)).1).1

/-- The column's sum and mark after the PE of row r and column c. [Assumption 30: DEDUCED.] -/
def ArrEntry.atPe (a : Arr) (e : ArrEntry) (r c : Nat) : ArrEntry :=
  let w := a.weight e.plane r c
  let x := e.xs.getD (pePosition e.mode r (a.index e.plane r c)) (0, false)
  let y := e.sums.getD c 0
  if modeSlow e.mode then { e with sums := e.sums.set c (peSum e.mode x.1 x.2 w y.toNat) }
  else if !x.2 then e
  else if modeInt e.mode then { e with sums := e.sums.set c (y + int8Value x.1 * int8Value (w % 256)) }
  else if x.1 % 128 = 127 ∨ w % 128 = 127 then { e with nans := e.nans ||| (1 <<< c) }
  else { e with sums := e.sums.set c (y + e4m3Units x.1 * e4m3Units (w % 256)) }

/-- The diagonal r + c that something issued at a step reaches in step s, if it reaches one (R230, R238). -/
def diagonal (issue h s : Nat) : Option Nat :=
  if s ≤ issue then none
  else
    let k := s - issue - 1
    if k % h = 0 ∧ k / h ≤ 62 then some (k / h) else none

/-- The PEs of a diagonal, row by row. -/
def diagonalPes (d : Nat) : List (Nat × Nat) :=
  (List.range 32).filterMap fun r => if r ≤ d ∧ d - r < 32 then some (r, d - r) else none

def ArrEntry.isVector (e : ArrEntry) : Bool := decide (e.kind = .push) || decide (e.kind = .pusha)

/-- Step s of something inside the array. [Assumption 30: DEDUCED.] -/
def ArrEntry.advance (a : Arr) (s : Nat) (e : ArrEntry) : ArrEntry :=
  if e.isVector then
    match diagonal e.step e.h s with
    | some d => (diagonalPes d).foldl (fun e q => e.atPe a q.1 q.2) e
    | none => e
  else e

def ArrEntry.exits (e : ArrEntry) (s : Nat) : Bool := decide (e.step + exitLatency e.h ≤ s)

/-- Step s of the array: vectors meet their PEs; what reaches the exit collar leaves. -/
def Arr.advance (a : Arr) (s : Nat) : Arr × List ArrEntry :=
  let inside := a.inside.map fun e => e.advance a s
  ({ a with inside := inside.filter fun e => !e.exits s }, inside.filter fun e => e.exits s)

/-! ### Swaps at the PEs (R238) -/

/-- The PEs that swaps reach in step s. -/
def Arr.swapPes (a : Arr) (s : Nat) : List (Nat × Nat) :=
  a.swaps.flatMap fun q => match diagonal q.1 q.2 s with | some d => diagonalPes d | none => []

/-- SWAP_AT_PE (R238): the PE of row `node` and column `arg` makes its other plane active. [Assumption 30: DEDUCED.] -/
def execSwapAtPe (s : State) : Host.Outcome State Fault Refusal :=
  let o := s.ev
  .next (s.modArr o.tile fun a => { a with
    pes := a.pes ^^^ (1 <<< peKey o.node o.arg)
    swaps := a.swaps.filter fun q => (s.core o.tile).stepc < q.1 + 62 * q.2 + 1 || decide (peKey o.node o.arg ≠ peKey 31 31) })

/-! ### MTX triggers (R229-R241) -/

/-- R233: the row argument; nothing when a reserved bit is set. -/
def rowArg (t : W64) : Option Nat := if t.toNat < 1024 then some t.toNat else none

/-- R233: the drain argument: row and `TL`, `HD`, `CLR`. -/
def drainArg (t : W64) : Option (Nat × BitVec 3) :=
  if 2 ^ 19 ≤ t.toNat ∨ bitsAt t.toNat 10 6 ≠ 0 then none else some (bitsAt t.toNat 0 10, t.extractLsb' 16 3)

/-- What an MTX trigger needs: it commits the checkpoint (R228). -/
def mtxNeed (use0 : Bool) : Need := { use0 := use0, commit := true }

def State.mtx (s : State) (use0 : Bool) (t : Trig) (eff : Issuer → Opnds → State → Option (Except State State)) :
    Host.Outcome State Fault Refusal := s.trigger 14 (mtxNeed use0) t eff

/-- R231: the collar holds an active slate that no `cabort` is ending (R294). -/
def Collar.live (k : Collar) : Bool := k.act && !k.abort

def Arr.hasCredit (a : Arr) : Bool := a.credits.all fun n => decide (0 < n)

/-- R230: something enters the array: one exit credit of every lane goes. -/
def Arr.enter (a : Arr) (e : ArrEntry) : Arr :=
  { a with inside := a.inside ++ [e], credits := a.credits.map fun n => n - 1, lastIn := some e.step }

/-- An entry of the present mode. [Assumption 30: DEDUCED.] -/
def State.newEntry (s : State) (c : Issuer) (kind : ArrKind) (row : Nat) : ArrEntry :=
  let a := s.arr c.tile
  { step := c.step, h := modeH a.mode, kind := kind, row := row, marks := 0, strand := c.strand, mode := a.mode, plane := a.turn, xs := [], sa := 0
    sb := a.scales.getD a.turn 0, sums := List.replicate 32 0, nans := 0, tok := none }

/-- A beat is counted (R229, R467). -/
def State.beat (s : State) (c : Issuer) : State := s.tally c.tile 11 1

/-- R241: the activations of a push from the tokens of the four entry lanes. -/
def pushXs (mode : Nat) (toks : List Tok) : List (Nat × Bool) :=
  let per := if modeSparse mode then 16 else 8
  let bits := if modeSlow mode then 16 else 8
  toks.flatMap fun x => (List.range per).map fun e => ((x.data.extractLsb' (bits * e) bits).toNat, x.mask.getLsbD e)

/-- R69, R235: the previous push stands too close. -/
def State.tooClose (s : State) (c : Issuer) : Bool :=
  modeSlow (s.arr c.tile).mode && (match (s.core c.tile).lastPush with | some p => decide (c.step < p + 2) | none => false)

/-- R235 `push` and `pusha`. -/
def State.pushBeat (s : State) (kind : ArrKind) (t : Trig) : Host.Outcome State Fault Refusal :=
  s.mtx false t fun c o s =>
    let a := s.arr c.tile
    let k := s.collar c.tile
    match rowArg (low64 o.t) with
    | none => some (.error (s.illegalDest c 0))
    | some row =>
      if !k.live then some (.error (s.illegalDest c 0))
      else if !a.hasCredit || s.tooClose c || k.lanes.any List.isEmpty then none
      else
        let toks := k.lanes.map fun l => l.headD (Tok.mk 0 false false false 0 0 0 0 0 false false)
        let sa := if a.ovEn then a.ovVal else (toks.map Tok.scl).headD 0
        let e := { s.newEntry c kind row with xs := pushXs a.mode toks, sa := sa }
        let s := (s.modArr c.tile fun a => a.enter e).modCollar c.tile fun k => { k with lanes := k.lanes.map fun l => l.drop 1 }
        let s := s.modCore c.tile fun co => { co with lastPush := some c.step }
        some (.ok ((s.beat c).tally c.tile 12 1))

/-- R235 `push`. -/
def execPush (t : Trig) (s : State) : Host.Outcome State Fault Refusal := s.pushBeat .push t

/-- R235 `pusha`. -/
def execPusha (t : Trig) (s : State) : Host.Outcome State Fault Refusal := s.pushBeat .pusha t

/-- R229 `shift`: a bubble. -/
def execShift (t : Trig) (s : State) : Host.Outcome State Fault Refusal := s.mtx false t fun c _ s => some (.ok (s.beat c))

/-- A row of a plane's registers: 32 columns. -/
def setRow (m : SMap Nat) (r : Nat) (f : Nat → Nat) : SMap Nat :=
  (List.range 32).foldl (fun m c => SMap.setD m 0 (peKey r c) (f c)) m

/-- R239: the plane that the latest swap retired. -/
def Arr.retired (a : Arr) : Nat := 1 - a.turn

/-- R236 `loadw`: a row of weights from the north weight port. [Assumption 31: DEDUCED.] -/
def execLoadw (t : Trig) (s : State) : Host.Outcome State Fault Refusal :=
  s.mtx false t fun c o s =>
    let a := s.arr c.tile
    let r := (low64 o.t).toNat % 32
    let n := if modeSlow a.mode then 4 else 2
    let bits := if modeSlow a.mode then 16 else 8
    let port := (s.collar c.tile).wport
    if port.length < n then none
    else
      let row := (port.take n).foldl (fun acc x => (acc.1 + x.data.toNat * 2 ^ (128 * acc.2), acc.2 + 1)) (0, 0)
      let s := s.modArr c.tile fun a => { a with weights := a.weights.modify a.retired fun m => setRow m r fun col => row.1 / 2 ^ (bits * col) % 2 ^ bits }
      let s := s.modCollar c.tile fun k => { k with wport := k.wport.drop n }
      some (.ok (s.beat c))

/-- R237 `loadm`: a row of index registers. -/
def execLoadm (t : Trig) (s : State) : Host.Outcome State Fault Refusal :=
  s.mtx true t fun c o s =>
    let r := (low64 o.o0).toNat % 32
    let v (col : Nat) : Nat :=
      if (s.arr c.tile).mode = 2 then (o.t.extractLsb' (512 + 3 * col) 3).toNat else (o.t.extractLsb' (2 * col) 2).toNat
    some (.ok ((s.modArr c.tile fun a => { a with meta_ := a.meta_.modify a.retired fun m => setRow m r v }).beat c))

/-- R238 `swap`. [Assumption 30: DEDUCED.] -/
def execSwap (t : Trig) (s : State) : Host.Outcome State Fault Refusal :=
  s.mtx false t fun c _ s =>
    some (.ok ((s.modArr c.tile fun a => { a with turn := a.retired, swaps := a.swaps ++ [(c.step, modeH a.mode)] }).beat c))

/-- An entry that PROMOTE takes without sums (R230, R231). -/
def State.rowEntry (s : State) (c : Issuer) (kind : ArrKind) (arg : Option (Nat × BitVec 3)) (beat : Bool) : Option (Except State State) :=
  match arg with
  | none => some (.error (s.illegalDest c 0))
  | some (row, marks) =>
    if !(s.collar c.tile).live then some (.error (s.illegalDest c 0))
    else if !(s.arr c.tile).hasCredit then none
    else
      let s := s.modArr c.tile fun a => a.enter { s.newEntry c kind row with marks := marks }
      some (.ok (if beat then s.beat c else s))

/-- R243 `drain`. -/
def execDrain (t : Trig) (s : State) : Host.Outcome State Fault Refusal :=
  s.mtx false t fun c o s => s.rowEntry c .drain (drainArg (low64 o.t)) true

/-- R244 `aclr`. -/
def execAclr (t : Trig) (s : State) : Host.Outcome State Fault Refusal :=
  s.mtx false t fun c o s => s.rowEntry c .aclr ((rowArg (low64 o.t)).map fun r => (r, 0)) false

/-- R234: an entry that still travels with the present latency. -/
def Arr.busyFor (a : Arr) (step : Nat) : Bool :=
  match a.lastIn with
  | some p => decide (step < p + exitLatency (modeH a.mode))
  | none => false

/-- R234 `amode`. -/
def execAmode (t : Trig) (s : State) : Host.Outcome State Fault Refusal :=
  s.mtx false t fun c o s =>
    let m := (low64 o.t).toNat
    let a := s.arr c.tile
    if 7 ≤ m ∨ (modeH m ≠ modeH a.mode ∧ a.busyFor c.step) then some (.error (s.illegalDest c 0))
    else some (.ok (s.modArr c.tile fun a => { a with mode := m }))

/-- R240 `scala`. -/
def execScala (t : Trig) (s : State) : Host.Outcome State Fault Refusal :=
  s.mtx false t fun c o s =>
    let v := low64 o.t
    if 2 ^ 33 ≤ v.toNat then some (.error (s.illegalDest c 0))
    else some (.ok (s.modArr c.tile fun a => { a with ovEn := v.getLsbD 32, ovVal := v.setWidth 32 }))

/-- R240 `scalw`. -/
def execScalw (t : Trig) (s : State) : Host.Outcome State Fault Refusal :=
  s.mtx false t fun c o s =>
    some (.ok (s.modArr c.tile fun a => { a with scales := a.scales.set a.retired (o.t.setWidth 32) }))

end Sys2Proof.Machine
end

