-- ==== Sys2Proof/Machine/Move.lean ====
section
/-! DEFINITION. Plain moves and writable specials (R54, R58-R61, R65, R70), the long-immediate prefix, and `nop` (R62). -/

namespace Sys2Proof.Machine

/-- The read code and the value width of a register destination (R54, R58). -/
def dstCode : Dst → Nat
  | .m i => i.toNat
  | .s i => 0x080 + i.toNat
  | .v i => 0x0C0 + i.toNat

def dstValue : Dst → Wide → Wide
  | .m _, v => narrow64 v
  | .s _, v => narrow64 v
  | .v _, v => v

/-- R54, R70: a plain move into an m, s or v register, seen from the next sequence number. -/
def execMove (sync : Bool) (src : Src) (dst : Dst) (s : State) : Host.Outcome State Fault Refusal :=
  s.plainMove sync src (some (dstCode dst)) fun c v s => s.writeReg c (dstCode dst) (c.seq + 1) (dstValue dst v)

/-- R52, R54, R70: a write of an operand port, seen by triggers of its own bundle and later. -/
def execOperandPortWrite (sync : Bool) (src : Src) (unit : BitVec 4) (port : BitVec 2) (s : State) :
    Host.Outcome State Fault Refusal :=
  s.plainMove sync src none fun c v s =>
    s.writeReg c (codePort unit.toNat port.toNat) c.seq (if portWide unit.toNat port.toNat then v else narrow64 v)

/-- R59: a loop counter takes bits 31-0. -/
def execLoopCounterWrite (sync : Bool) (src : Src) (second : Bool) (s : State) : Host.Outcome State Fault Refusal :=
  s.plainMove sync src (some (codeLc second)) fun c v s =>
    s.writeReg c (codeLc second) (c.seq + 1) ((v.setWidth 32).setWidth 1024)

/-- R59: `lk` takes bits 11-0. -/
def execLkWrite (sync : Bool) (src : Src) (s : State) : Host.Outcome State Fault Refusal :=
  s.plainMove sync src (some codeLk) fun c v s => s.writeReg c codeLk (c.seq + 1) ((v.setWidth 12).setWidth 1024)

/-- R60: ones clear flags; clearing `OOR` clears `oar`. [Assumption 66: DEDUCED.] -/
def execFlagsWrite (sync : Bool) (src : Src) (s : State) : Host.Outcome State Fault Refusal :=
  s.plainMove sync src none fun c v s =>
    s.modStrand c.tile c.strand fun x => x.addFlags c (c.seq + 1) 0 (v.setWidth 10) 0

/-- R44: what a write of `vrc` stores: a zero state becomes 1, reserved bits are ignored, mode 0b11 becomes 0b00. -/
def vrcStored (v : W64) : W64 :=
  let st := v.extractLsb' 32 32
  let md := v.extractLsb' 0 2
  (if st = 0 then 1 else st) ++ (0#30 ++ (if md = 3 then 0 else md) : BitVec 32)

/-- R44, R59: a write of `vrc`. -/
def execVrcWrite (sync : Bool) (src : Src) (s : State) : Host.Outcome State Fault Refusal :=
  s.plainMove sync src (some codeVrc) fun c v s =>
    s.writeReg c codeVrc (c.seq + 1) (widen (vrcStored (low64 v)))

/-- R65, R221: a deadline written by a move, which stands unless a later bundle's write, or one of its own bundle in a higher slot, already
does. -/
def Strand.setAlarm (x : Strand) (c : Issuer) (v : W64) : Strand :=
  if x.alarmBy.any fun b => decide (c.seq < b.1) || (decide (c.seq = b.1) && decide (c.slot < b.2)) then x
  else { x with alarm := v, alarmBy := some (c.seq, c.slot) }

/-- R59, R221: the alarm takes its deadline; 0 disarms it. -/
def execAlarmWrite (sync : Bool) (src : Src) (s : State) : Host.Outcome State Fault Refusal :=
  s.plainMove sync src none fun c v s => s.modStrand c.tile c.strand fun x => x.setAlarm c (low64 v)

/-- R59: `ksel` takes bits 15-0. -/
def execKselWrite (sync : Bool) (src : Src) (s : State) : Host.Outcome State Fault Refusal :=
  s.plainMove sync src (some codeKsel) fun c v s =>
    s.writeReg c codeKsel (c.seq + 1) ((v.setWidth 16).setWidth 1024)

/-- R61: a prefix has no effect of its own; its payload is read from the bundle by the consumer of its chain. -/
def execLongImmediatePrefix (_payload : BitVec 22) (s : State) : Host.Outcome State Fault Refusal :=
  s.control false (fun _ _ => true) fun _ s => s

/-- R62: `nop` does nothing; with S set it is a pure sync. -/
def execNop (sync : Bool) (s : State) : Host.Outcome State Fault Refusal :=
  s.control sync (fun _ _ => true) fun _ s => s

end Sys2Proof.Machine
end

