-- ==== Sys2Proof/Machine/Ctl.lean ====
section
/-! DEFINITION. CTL (R88, R196-R201, R214) and the control items that end or divide a run (R62, R203-R205, R222). -/

namespace Sys2Proof.Machine

/-! ### Transfers (R196) -/

/-- R197: whether an index lies in a loop's body. -/
def HwLoop.holds (l : HwLoop) (i : Nat) : Bool :=
  decide ((i + 4096 - l.first) % 4096 ≤ (l.last + 4096 - l.first) % 4096)

/-- R196: a loop after control has passed to an index: a target outside its body deactivates it. -/
def HwLoop.leave (l : HwLoop) (target : Nat) : HwLoop :=
  if l.active && !l.holds target then { l with active := false } else l

/-- R196: control passes to an index after the delay bundle. -/
def Stream.transfer (x : Stream) (q target : Nat) : Stream :=
  { x with redirect := some (q + 2, target), loop0 := x.loop0.leave target, loop1 := x.loop1.leave target }

/-- The index of the issuing bundle in slot 0's stream. -/
def State.indexHere (s : State) (c : Issuer) : Nat := (s.strand c.tile c.strand).stream.idxOf c.seq c.slot

/-- R196: a transfer to a target when its condition holds. -/
def State.branch (s : State) (use0 : Bool) (t : Trig) (taken : W64 → Bool) (target : Nat → W64 → Nat) :
    Host.Outcome State Fault Refusal :=
  s.trigger 0 { use0 := use0 } t fun c o s =>
    some (.ok (if taken (low64 o.o0) then
      s.modStrand c.tile c.strand fun x =>
        { x with stream := x.stream.transfer c.seq (target (s.indexHere c) (low64 o.t)) }
    else s))

/-- R196: i + t modulo 4,096 with t signed. -/
def relativeTarget (i : Nat) (t : W64) : Nat := (i + (t.setWidth 12).toNat) % 4096

/-- R196: bits 11-0 of t. -/
def absoluteTarget (_i : Nat) (t : W64) : Nat := (t.setWidth 12).toNat

/-- R196 `br`. -/
def execBr (t : Trig) (s : State) : Host.Outcome State Fault Refusal := s.branch false t (fun _ => true) relativeTarget

/-- R196 `brz`. -/
def execBrz (t : Trig) (s : State) : Host.Outcome State Fault Refusal := s.branch true t (fun a => a == 0) relativeTarget

/-- R196 `brnz`. -/
def execBrnz (t : Trig) (s : State) : Host.Outcome State Fault Refusal := s.branch true t (fun a => a != 0) relativeTarget

/-- R196 `brn`. -/
def execBrn (t : Trig) (s : State) : Host.Outcome State Fault Refusal := s.branch true t (fun a => a.msb) relativeTarget

/-- R196 `brnn`. -/
def execBrnn (t : Trig) (s : State) : Host.Outcome State Fault Refusal := s.branch true t (fun a => !a.msb) relativeTarget

/-- R196 `jmp`. -/
def execJmp (t : Trig) (s : State) : Host.Outcome State Fault Refusal := s.branch false t (fun _ => true) absoluteTarget

/-- R196 `call`: a jump that writes `lk`, seen by the delay bundle. -/
def execCall (t : Trig) (s : State) : Host.Outcome State Fault Refusal :=
  s.trigger 0 {} t fun c o s =>
    if !logRoom (s.core c.tile) (s.strand c.tile c.strand) codeLk then some (.error (s.stallFull c))
    else
      let i := s.indexHere c
      some (.ok (s.modStrand c.tile c.strand fun x =>
        { x with stream := x.stream.transfer c.seq (absoluteTarget i (low64 o.t)) }.write c codeLk (c.seq + 1)
          (BitVec.ofNat 1024 ((i + 2) % 4096))))

/-- R196 `ret`: a jump to `lk` as the bundle reads it. -/
def execRet (t : Trig) (s : State) : Host.Outcome State Fault Refusal :=
  s.trigger 0 {} t fun c _ s =>
    let x := s.strand c.tile c.strand
    if !regReady (s.core c.tile) c.strand x codeLk c.seq c.step then none
    else some (.ok (s.modStrand c.tile c.strand fun x =>
      { x with stream := x.stream.transfer c.seq ((x.regAt codeLk c.seq).setWidth 12).toNat }))

/-! ### Hardware loops (R197, R198) -/

def Stream.loop (x : Stream) (second : Bool) : HwLoop := if second then x.loop1 else x.loop0
def Stream.setLoop (x : Stream) (second : Bool) (l : HwLoop) : Stream :=
  if second then { x with loop1 := l } else { x with loop0 := l }

/-- R197: the set-up of a loop over the next b bundles. With count 0 in a delay bundle its skip stands in place of the transfer's target. [Assumption 13: DEDUCED.] -/
def State.setLoop (s : State) (second : Bool) (t : Trig) : Host.Outcome State Fault Refusal :=
  s.trigger 0 { use0 := true } t fun c o s =>
    let b := (low64 o.t).toNat
    if b = 0 ∨ 4095 < b then some (.error (s.illegalDest c 0))
    else if !logRoom (s.core c.tile) (s.strand c.tile c.strand) (codeLc second) then some (.error (s.stallFull c))
    else
      let i := s.indexHere c
      let n := (low64 o.o0).setWidth 32
      let first := (i + 1) % 4096
      let last := (i + b) % 4096
      some (.ok (s.modStrand c.tile c.strand fun x =>
        let st := { x.stream with hold := none }
        let st := if n = 0 then { st with redirect := some (c.seq + 1, (last + 1) % 4096) }
          else st.setLoop second ⟨true, first, last, max st.loop0.order st.loop1.order + 1⟩
        { x with stream := st }.write c (codeLc second) (c.seq + 1) (n.setWidth 1024)))

/-- R197 `loop0`. -/
def execLoop0 (t : Trig) (s : State) : Host.Outcome State Fault Refusal := s.setLoop false t

/-- R197 `loop1`. -/
def execLoop1 (t : Trig) (s : State) : Host.Outcome State Fault Refusal := s.setLoop true t

/-- R198 `lexit`; the other loop stays as it is, wherever the target lies. [Assumption 13: DEDUCED.] -/
def execLexit (t : Trig) (s : State) : Host.Outcome State Fault Refusal :=
  s.trigger 0 {} t fun c o s =>
    let n := (low64 o.t).toNat
    if 1 < n then some (.error (s.illegalDest c 0))
    else some (.ok (s.modStrand c.tile c.strand fun x =>
      let l := x.stream.loop (n == 1)
      if l.active then
        { x with stream := { (x.stream.setLoop (n == 1) { l with active := false }) with redirect := some (c.seq + 2, (l.last + 1) % 4096) } }
      else x))

/-! ### Traps (R214) -/

/-- R214: a cause taken once the bundle has issued. -/
def State.softTrap (s : State) (cause : Nat) (t : Trig) : Host.Outcome State Fault Refusal :=
  s.trigger 0 {} t fun c o s => some (.ok (s.raise c.tile c.strand ⟨cause, 0, o.t.setWidth 16, c.slot⟩))

/-- R214 `trap`. -/
def execTrap (t : Trig) (s : State) : Host.Outcome State Fault Refusal := s.softTrap 4 t

/-- R214 `brk`. -/
def execBrk (t : Trig) (s : State) : Host.Outcome State Fault Refusal := s.softTrap 5 t

/-! ### Giving up the core (R87, R200, R201, R203) -/

/-- R67, R87: the bundle gives up the core once it completes, with what the strand then waits for. [Assumption 18: DEDUCED.] -/
def State.giveUp (s : State) (c : Issuer) (w : Wake) : State :=
  s.modStrand c.tile c.strand fun x => { x with afterYield := true, wake := w }

/-- R200 `sleep`. -/
def execSleep (t : Trig) (s : State) : Host.Outcome State Fault Refusal :=
  s.trigger 0 {} t fun c o s => some (.ok (s.giveUp c (.tick (low64 o.t))))

/-- R201 `waitl`. -/
def execWaitl (t : Trig) (s : State) : Host.Outcome State Fault Refusal :=
  s.trigger 0 {} t fun c o s => some (.ok (s.giveUp c (.lands (o.t.setWidth 16))))

/-- R203 `yield`. -/
def execYield (sync : Bool) (s : State) : Host.Outcome State Fault Refusal :=
  s.control sync (fun _ _ => true) fun c s => s.giveUp c .none

/-! ### Ending a run (R204, R205) -/

/-- R78, R204: a request of the strand has still to land, at the present handler level. -/
def landsOutstanding (co : Core) (n : Nat) (x : Strand) : Bool :=
  co.lands.any fun a => decide (a.strand = n) && decide (a.level = x.depth) && a.frozen.isNone

/-- R315: a command of the strand's present run that has neither credited nor faulted. -/
def State.commandsOut (s : State) (t n : Nat) : Bool :=
  s.cmds.any fun p => decide (p.2.tile = t) && decide (p.2.strand = n) && decide (p.2.run = (s.strand t n).run)
    && (match p.2.kind with | .copy _ _ => true | .gather _ _ => true | _ => false)

/-- R204, R315: the wait of a bundle that ends the run. [Assumption 43: DEDUCED.] -/
def State.mayEnd (s : State) (c : Issuer) : Bool :=
  let co := s.core c.tile
  let x := s.strand c.tile c.strand
  !landsOutstanding co c.strand x && co.pipe.isEmpty && !openOutstanding co c.strand x && !s.commandsOut c.tile c.strand

/-- R70, R204: the first n + 1 carried registers as the bundle reads them, the rest 0; nothing while one must wait. -/
def State.carried (s : State) (c : Issuer) (n : Nat) : Option (List W64) :=
  let co := s.core c.tile
  let x := s.strand c.tile c.strand
  if (List.range (n + 1)).all fun j => regReady co c.strand x (0x080 + j) c.seq c.step then
    some ((List.range 4).map fun j => if j ≤ n then low64 (x.regAt (0x080 + j) c.seq) else 0)
  else none

/-- The run ends this way once it is released (R194). -/
def State.endRun (s : State) (c : Issuer) (e : Ending) : State :=
  s.modStrand c.tile c.strand fun x => { x with st := .suspended, ending := some e, endIds := s.ids }

/-- R344: a control item that ends a run; the capsule strand, whose visit ends otherwise, takes cause 14 instead. [Assumption 18: DEDUCED.] -/
def State.endControl (s : State) (sync : Bool) (ready : Issuer → State → Bool) (eff : Issuer → State → State) : Host.Outcome State Fault Refusal :=
  match s.issuer with
  | none => .fault .noIssuer
  | some c =>
    let x := s.strand c.tile c.strand
    if x.capVisit.isSome && s.slotFree c sync then .next (s.raiseHere c 14 (BitVec.ofNat 64 x.ccap) 1) else s.control sync ready eff

/-- R204: a suspension. -/
def State.suspend (s : State) (sync : Bool) (n k : Nat) (kind : State → Issuer → Option EndKind) :
    Host.Outcome State Fault Refusal :=
  s.endControl sync (fun c s => s.mayEnd c && (s.carried c n).isSome && (kind s c).isSome) fun c s =>
    s.endRun c ⟨(kind s c).getD .requeue, n, (s.carried c n).getD [], k, (s.indexHere c + 1) % 4096⟩

/-- R204 `suspend.r`. -/
def execSuspendR (sync : Bool) (n : BitVec 2) (s : State) : Host.Outcome State Fault Refusal :=
  s.suspend sync n.toNat 0 fun _ _ => some .requeue

/-- R204 `suspend.f`: the handle is `s15` as the bundle reads it. -/
def execSuspendF (sync : Bool) (n k : BitVec 2) (s : State) : Host.Outcome State Fault Refusal :=
  s.suspend sync n.toNat k.toNat fun s c =>
    let x := s.strand c.tile c.strand
    if regReady (s.core c.tile) c.strand x 0x08F c.seq c.step then some (.future (low64 (x.regAt 0x08F c.seq))) else none

/-- R204 `suspend.p`. -/
def execSuspendP (sync : Bool) (n : BitVec 2) (s : State) : Host.Outcome State Fault Refusal :=
  s.suspend sync n.toNat 0 fun _ _ => some .park

/-- R205 `exit`. -/
def execExit (sync : Bool) (s : State) : Host.Outcome State Fault Refusal :=
  s.endControl sync (fun c s => s.mayEnd c) fun c s => s.endRun c ⟨.exit, 0, [], 0, 0⟩

/-- R222 `mark`: slot 0 holds until no open request is outstanding; the commit follows at the end of the step. -/
def execMark (sync : Bool) (s : State) : Host.Outcome State Fault Refusal :=
  s.control sync (fun c s => !openOutstanding (s.core c.tile) c.strand (s.strand c.tile c.strand)) fun c s =>
    s.modCore c.tile fun co => { co with markReq := some (s.indexHere c) }

end Sys2Proof.Machine
end

