-- ==== Sys2Proof/Machine/Lds.lean ====
section
/-! DEFINITION. LDS on the tile's own scratchpad (R166-R171): scalar, contiguous, strided and indexed accesses. -/

namespace Sys2Proof.Machine

/-! ### Addresses -/

/-- An address with its low k bits cleared, and whether any of them was set (R166). -/
def alignTo (k : Nat) (a : W64) : Nat × Bool := (a.toNat / 2 ^ k * 2 ^ k, decide (a.toNat % 2 ^ k ≠ 0))

/-- R169: the eight granules of a contiguous vector. -/
def vectorPieces (a : Nat) : List Piece := (List.range 8).map fun g => ((a + 16 * g) % 2 ^ 64, 16)

/-- R170: granule g of a strided access, before alignment, modulo 2^64. -/
def strideAddr (b stride : W64) (g : Nat) : W64 := b + BitVec.ofNat 64 g * stride

/-- R170: lane i of an indexed access, before alignment, modulo 2^64. -/
def laneAddr (b : W64) (offs : Wide) (i : Nat) : W64 := b + (elem 32 offs i).signExtend 64

def stridePieces (b stride : W64) : List Piece := (List.range 8).map fun g => ((alignTo 4 (strideAddr b stride g)).1, 16)
def lanePieces (b : W64) (offs : Wide) : List Piece := (List.range 32).map fun i => ((alignTo 2 (laneAddr b offs i)).1, 4)
def strideMis (b stride : W64) : Bool := (List.range 8).any fun g => (alignTo 4 (strideAddr b stride g)).2
def laneMis (b : W64) (offs : Wide) : Bool := (List.range 32).any fun i => (alignTo 2 (laneAddr b offs i)).2

/-- R21: the bank of an address. -/
def bankOf (a : Nat) : Nat := a / 16 % 8

/-- R171: the steps an access needs: the most distinct granules it has in one bank. -/
def bankSteps (ps : List Piece) : Nat :=
  let gs := ((ps.filter fun p => !Piece.out p).map fun p => p.1 / 16).eraseDups
  (List.range 8).foldl (fun k b => max k (gs.filter fun g => decide (g % 8 = b)).length) 1

/-- The granules of a run of n bytes. -/
def granulesAt (a n : Nat) : List Piece := (List.range ((a + n + 15) / 16 - a / 16)).map fun g => ((a / 16 + g) * 16, 16)

/-- R21: accesses by triggers of other units than LDS, engines and the network: each granule takes its bank's port in some step from now on, behind LDS and
before the PORTs; a gated tile has no step to take it in. [Assumption 28: DEDUCED.] -/
def State.oweBanks (s : State) (t : Nat) (write : Bool) (ps : List Piece) : State :=
  if (s.tile t).gated then s
  else s.modCore t fun co => { co with owed := co.owed ++ (((ps.filter fun p => !Piece.out p).map fun p => p.1 / 16).eraseDups).map fun g => (write, g % 8) }

/-- R21, R210: the bank ports that are taken in this step before any PORT's: LDS's, those of a clear at its granule of the step, and of the accesses
still owed one for each port that is left. [Assumption 28: DEDUCED.] -/
def Core.portUses (co : Core) : List (Bool × Nat) :=
  let first := co.banks ++ (co.busySlot.filter fun b => decide (co.stepc < b.2.1)).map fun b => (true, bankOf (b.2.2 - 16 * (b.2.1 - co.stepc)))
  first ++ (co.owed.filter fun q => !first.contains q).eraseDups

/-- The accesses still owed after this step. -/
def Core.leftOwed (co : Core) : List (Bool × Nat) :=
  let first := co.banks ++ (co.busySlot.filter fun b => decide (co.stepc < b.2.1)).map fun b => (true, bankOf (b.2.2 - 16 * (b.2.1 - co.stepc)))
  (co.owed.filter fun q => !first.contains q).eraseDups.foldl (fun l q => l.erase q) co.owed

/-- R21: the bank ports that an access uses in this step. [Assumption 28: DEDUCED.] -/
def State.useBanks (s : State) (t : Nat) (write : Bool) (ps : List Piece) : State :=
  s.modCore t fun co => { co with banks := co.banks ++ ((ps.filter fun p => !Piece.out p).map fun p => (write, bankOf p.1)).eraseDups }

/-- R171: whether the access has waited for its banks, which it uses meanwhile; the first attempt sets the step at which it may issue. [Assumption 28: DEDUCED.] -/
def State.bankWait (s : State) (c : Issuer) (write : Bool) (ps : List Piece) : Option State :=
  let k := bankSteps ps
  let s := s.useBanks c.tile write ps
  match (s.core c.tile).gather with
  | some (q, st) =>
    if q = c.seq then (if st ≤ c.step then none else some (s.stall c))
    else if k ≤ 1 then none
    else some ((s.modCore c.tile fun co => { co with gather := some (c.seq, c.step + k - 1) }).stall c)
  | none =>
    if k ≤ 1 then none
    else some ((s.modCore c.tile fun co => { co with gather := some (c.seq, c.step + k - 1) }).stall c)

/-! ### Loads -/

/-- What a load needs. -/
def loadNeed (use0 use1 : Bool) : Need := { use0 := use0, use1 := use1, access := true, loads := true, result := some 6 }

/-- R169: a scalar load of 2^k bytes. -/
def State.scalarLoad (s : State) (k : Nat) (signed : Bool) (t : Trig) : Host.Outcome State Fault Refusal :=
  s.trigger 6 (loadNeed false false) t fun c o s =>
    let a := alignTo k (low64 o.t)
    let ps : List Piece := [(a.1, 2 ^ k)]
    let v := leNat (s.readPieces c ps)
    let r : W64 := if signed then (BitVec.ofNat (8 * 2 ^ k) v).signExtend 64 else BitVec.ofNat 64 v
    let f := accessFlags a.2 ps id
    some (.ok ((s.useBanks c.tile false ps).result c 6 3 t.w (widen r) f.1 f.2))

/-- R169 `ldb`. -/
def execLdb (t : Trig) (s : State) : Host.Outcome State Fault Refusal := s.scalarLoad 0 false t

/-- R169 `ldbs`. -/
def execLdbs (t : Trig) (s : State) : Host.Outcome State Fault Refusal := s.scalarLoad 0 true t

/-- R169 `ldh`. -/
def execLdh (t : Trig) (s : State) : Host.Outcome State Fault Refusal := s.scalarLoad 1 false t

/-- R169 `ldhs`. -/
def execLdhs (t : Trig) (s : State) : Host.Outcome State Fault Refusal := s.scalarLoad 1 true t

/-- R169 `ldw`. -/
def execLdw (t : Trig) (s : State) : Host.Outcome State Fault Refusal := s.scalarLoad 2 false t

/-- R169 `ldws`. -/
def execLdws (t : Trig) (s : State) : Host.Outcome State Fault Refusal := s.scalarLoad 2 true t

/-- R169 `ldd`. -/
def execLdd (t : Trig) (s : State) : Host.Outcome State Fault Refusal := s.scalarLoad 3 false t

/-- The granule of an address. -/
def granuleOf (a : Nat) : Nat := a / 16 * 16

/-- A load of several pieces into the whole result. -/
def State.piecesLoad (s : State) (c : Issuer) (lat : Nat) (w : Bool) (mis : Bool) (ps : List Piece) : State :=
  let f := accessFlags mis ps granuleOf
  (s.useBanks c.tile false ps).result c 6 lat w (BitVec.ofNat 1024 (leNat (s.readPieces c ps))) f.1 f.2

/-- R169 `ldv`. -/
def execLdv (t : Trig) (s : State) : Host.Outcome State Fault Refusal :=
  s.trigger 6 (loadNeed false false) t fun c o s =>
    let a := alignTo 4 (low64 o.t)
    some (.ok (s.piecesLoad c 4 t.w a.2 (vectorPieces a.1)))

/-- R170, R171 `ldvs`. -/
def execLdvs (t : Trig) (s : State) : Host.Outcome State Fault Refusal :=
  s.trigger 6 (loadNeed false true) t fun c o s =>
    let ps := stridePieces (low64 o.t) (low64 o.o1)
    match s.bankWait c false ps with
    | some s' => some (.error s')
    | none => some (.ok (s.piecesLoad c 5 t.w (strideMis (low64 o.t) (low64 o.o1)) ps))

/-- R170, R171 `ldvg`. -/
def execLdvg (t : Trig) (s : State) : Host.Outcome State Fault Refusal :=
  s.trigger 6 (loadNeed true false) t fun c o s =>
    let ps := lanePieces (low64 o.t) o.o0
    match s.bankWait c false ps with
    | some s' => some (.error s')
    | none => some (.ok (s.piecesLoad c 6 t.w (laneMis (low64 o.t) o.o0) ps))

/-! ### Stores -/

/-- What a store needs. -/
def storeNeed (use1 use2 : Bool) : Need := { use0 := true, use1 := use1, use2 := use2, access := true, gate := true }

/-- A store of several pieces, its flags seen from the next sequence number (R167). -/
def State.piecesStore (s : State) (c : Issuer) (mis : Bool) (oarAddr : Nat → Nat) (ps : List (Piece × List Byte)) : State :=
  let f := accessFlags mis (ps.map Prod.fst) oarAddr
  ((s.useBanks c.tile true (ps.map Prod.fst)).storePieces c true ps).modStrand c.tile c.strand fun x => x.addFlags c (c.seq + 1) f.1 0 f.2

/-- The bytes of a wide value. -/
def wideBytes (x : Wide) : List Byte := leBytes 128 x.toNat

/-- Pieces with their data taken in turn from a run of bytes. -/
def dealPieces : List Piece → List Byte → List (Piece × List Byte)
  | [], _ => []
  | p :: r, bs => (p, bs.take p.2) :: dealPieces r (bs.drop p.2)

/-- R169: a scalar store of the low 2^k bytes of o0. -/
def State.scalarStore (s : State) (k : Nat) (t : Trig) : Host.Outcome State Fault Refusal :=
  s.trigger 6 (storeNeed false false) t fun c o s =>
    let a := alignTo k (low64 o.t)
    some (.ok (s.piecesStore c a.2 id [((a.1, 2 ^ k), leBytes (2 ^ k) (low64 o.o0).toNat)]))

/-- R169 `stb`. -/
def execStb (t : Trig) (s : State) : Host.Outcome State Fault Refusal := s.scalarStore 0 t

/-- R169 `sth`. -/
def execSth (t : Trig) (s : State) : Host.Outcome State Fault Refusal := s.scalarStore 1 t

/-- R169 `stw`. -/
def execStw (t : Trig) (s : State) : Host.Outcome State Fault Refusal := s.scalarStore 2 t

/-- R169 `std`. -/
def execStd (t : Trig) (s : State) : Host.Outcome State Fault Refusal := s.scalarStore 3 t

/-- R169 `stv`. -/
def execStv (t : Trig) (s : State) : Host.Outcome State Fault Refusal :=
  s.trigger 6 (storeNeed false false) t fun c o s =>
    let a := alignTo 4 (low64 o.t)
    some (.ok (s.piecesStore c a.2 granuleOf (dealPieces (vectorPieces a.1) (wideBytes o.o0))))

/-- R169, R223 `stvm`: a zero mask writes nothing and sets no flag, and takes its entry of the buffer. -/
def execStvm (t : Trig) (s : State) : Host.Outcome State Fault Refusal :=
  s.trigger 6 (storeNeed false true) t fun c o s =>
    let a := alignTo 4 (low64 o.t)
    let lanes := (dealPieces ((List.range 32).map fun i => ((a.1 + 4 * i) % 2 ^ 64, 4)) (wideBytes o.o0))
    let ps := (List.range 32).filterMap fun i => if o.o2.getLsbD i then lanes[i]? else none
    some (.ok (if ps.isEmpty then s.storePieces c true [] else s.piecesStore c a.2 granuleOf ps))

/-- R170, R171 `stvs`: a higher granule stands over a lower one. -/
def execStvs (t : Trig) (s : State) : Host.Outcome State Fault Refusal :=
  s.trigger 6 (storeNeed false true) t fun c o s =>
    let ps := stridePieces (low64 o.t) (low64 o.o2)
    match s.bankWait c true ps with
    | some s' => some (.error s')
    | none => some (.ok (s.piecesStore c (strideMis (low64 o.t) (low64 o.o2)) granuleOf (dealPieces ps (wideBytes o.o0))))

/-- R170, R171 `stvx`: a higher lane stands over a lower one. -/
def execStvx (t : Trig) (s : State) : Host.Outcome State Fault Refusal :=
  s.trigger 6 (storeNeed true false) t fun c o s =>
    let ps := lanePieces (low64 o.t) o.o1
    match s.bankWait c true ps with
    | some s' => some (.error s')
    | none => some (.ok (s.piecesStore c (laneMis (low64 o.t) o.o1) granuleOf (dealPieces ps (wideBytes o.o0))))

end Sys2Proof.Machine
end

