-- ==== Sys2Proof/Machine/Hbm.lean ====
section
/-! DEFINITION. Physical memory: the map, HBM lines under compression, and plain reads and writes at any physical address (R25, R350, R407,
R417-R421). -/

namespace Sys2Proof.Machine

/-! ### The physical map (R407) -/

inductive PhysKind where
  | hbm (die : Nat)
  | overflow (die : Nat)                 -- the Mordant's part of HBM
  | metadata (die : Nat)
  | window (tile : Nat) (off : Nat)
  | sync (die : Nat) (off : Nat)
  | host
  | reserved
deriving DecidableEq, Repr

/-- R25: HBM bytes of one die. -/
def dieSpan : Nat := 0x20_0000_0000
def overflowBase : Nat := 0x1F_DF80_0000
def metadataBase : Nat := 0x1F_E000_0000
def hostBase : Nat := 0x8000_0000_0000
def syncBase (die : Nat) : Nat := 0x0200_0000_0000 + die * 0x100_0000

def physKind (pa : Nat) : PhysKind :=
  if pa < 0x0100_0000_0000 then
    let die := pa / dieSpan
    let off := pa % dieSpan
    if off < overflowBase then .hbm die else if off < metadataBase then .overflow die else .metadata die
  else if pa < 0x0100_0000_0000 + 8192 * 0x10_0000 then
    .window ((pa - 0x0100_0000_0000) / 0x10_0000) (pa % 0x10_0000)
  else if 0x0200_0000_0000 ≤ pa ∧ pa < 0x0200_0000_0000 + 8 * 0x100_0000 then
    .sync ((pa - 0x0200_0000_0000) / 0x100_0000) (pa % 0x100_0000)
  else if hostBase ≤ pa ∧ pa < 0x1_0000_0000_0000 then .host
  else .reserved

/-- R407: usable HBM. -/
def isUsableHbm (pa : Nat) : Bool := match physKind pa with | .hbm _ => true | _ => false

/-- R350: a byte of the synchronisation window beyond SRAM lies in the overflow area. -/
def syncByteAddr (die off : Nat) : Nat :=
  if off < 0x80_0000 then syncBase die + off else die * dieSpan + overflowBase + (off - 0x80_0000)

/-- R350: the reserved ranges of a synchronisation window. -/
def syncReserved (off : Nat) : Bool := decide (off < 0x10_0000) || decide (0xF0_0000 ≤ off)

/-- R350, R472: what an agent outside the module reaches. [Assumption 65: DESIGN CHOICE.] -/
def windowReaches (pa : Nat) : Bool :=
  match physKind pa with
  | .hbm _ => true
  | .window _ _ => true
  | .sync _ off => !syncReserved off
  | _ => false

/-! ### Line compression (R417-R419) -/

def lineSize : Nat := 128

/-- R417: base and delta bytes of tags 0x3 to 0x8. -/
def tagShape (tag : Nat) : Option (Nat × Nat) :=
  match tag with
  | 3 => some (8, 1) | 4 => some (8, 2) | 5 => some (8, 4) | 6 => some (4, 1) | 7 => some (4, 2) | 8 => some (2, 1)
  | _ => none

/-- R417: the sectors that a tag stores. -/
def tagSectors (tag : Nat) : Nat :=
  match tag with
  | 0 => 4 | 1 => 0 | 2 => 1 | 3 => 1 | 4 => 2 | 5 => 3 | 6 => 2 | 7 => 3 | 8 => 3
  | _ => 4

/-- Element i of b bytes. -/
def lineElem (bs : List Byte) (b i : Nat) : Nat := leNat ((bs.drop (b * i)).take b)

/-- R417: the difference of element i from element 0 modulo 2^(8b), as an integer. -/
def lineDelta (bs : List Byte) (b i : Nat) : Int :=
  (BitVec.ofNat (8 * b) (lineElem bs b i + 2 ^ (8 * b) - lineElem bs b 0)).toInt

/-- R417, R418: a line's stored bytes under a tag that can hold it. -/
def encodeUnder (tag : Nat) (bs : List Byte) : Option (List Byte) :=
  match tag with
  | 0 => some bs
  | 1 => if bs.all fun x => x == 0 then some [] else none
  | 2 => if (List.range 16).all fun i => lineElem bs 8 i == lineElem bs 8 0 then some (bs.take 8 ++ List.replicate 24 0) else none
  | _ => match tagShape tag with
    | none => none
    | some (b, d) =>
      let n := 128 / b
      let lim : Int := 2 ^ (8 * d - 1)
      let ds := (List.range (n - 1)).map fun i => lineDelta bs b (i + 1)
      if ds.all fun x => decide (-lim ≤ x) && decide (x < lim) then
        let body := bs.take b ++ ds.flatMap fun x => leBytes d (x % 2 ^ (8 * d)).toNat
        some (body ++ List.replicate (32 * tagSectors tag - body.length) 0)
      else none

/-- R418: the tag of fewest sectors, the lowest on a tie, and the stored bytes. -/
def encodeLine (comp : Bool) (bs : List Byte) : Nat × List Byte :=
  if !comp then (0, bs)
  else (List.range 9).foldl (fun best tag =>
    match encodeUnder tag bs with
    | some st => if tagSectors tag < tagSectors best.1 then (tag, st) else best
    | none => best) (0, bs)

/-- R417: the plain bytes of a line from its tag and stored bytes; nothing for a reserved tag. -/
def decodeLine (tag : Nat) (st : List Byte) : Option (List Byte) :=
  match tag with
  | 0 => some st
  | 1 => some (List.replicate 128 0)
  | 2 => some ((List.range 16).flatMap fun _ => st.take 8)
  | _ => (tagShape tag).map fun p =>
      let b := p.1; let d := p.2
      let e0 := leNat (st.take b)
      (List.range (128 / b)).flatMap fun i =>
        if i = 0 then st.take b
        else leBytes b ((((e0 : Int) + (BitVec.ofNat (8 * d) (leNat ((st.drop (b + d * (i - 1))).take d))).toInt) % 2 ^ (8 * b)).toNat)

/-- R417: a line's tag. [Assumption 3: DESIGN CHOICE.] -/
def State.tagOf (s : State) (line : Nat) : Nat := SMap.get s.tags 1 line

/-- R420: an uncorrectable line. [Assumption 8: DESIGN CHOICE.] -/
def State.lineBad (s : State) (line : Nat) : Bool := s.badLines.contains line || decide (9 ≤ s.tagOf line)

/-- R417: the plain bytes of a line of HBM, or nothing when it is uncorrectable. [Assumption 3: DESIGN CHOICE.] -/
def State.readLine (s : State) (line : Nat) : Option (List Byte) :=
  if s.lineBad line then none else decodeLine (s.tagOf line) (memRead s.mem (line * lineSize) lineSize)

/-- R417, R418: a line written whole: its first sectors and its tag. [Assumption 25: DEDUCED.] -/
def State.writeLine (s : State) (line : Nat) (comp : Bool) (bs : List Byte) : State :=
  let e := encodeLine comp bs
  { s with mem := memWrite s.mem (line * lineSize) e.2, tags := SMap.setD s.tags 1 line e.1
           badLines := s.badLines.filter fun l => l ≠ line }

/-- The lines that a run of bytes touches. -/
def linesOf (pa n : Nat) : List Nat :=
  if n = 0 then [] else (List.range ((pa + n - 1) / lineSize - pa / lineSize + 1)).map fun i => pa / lineSize + i

/-- R419: the part of a write that falls in one line; false when a partial write meets an uncorrectable line and is dropped. -/
def State.writeInLine (s : State) (comp : Bool) (pa : Nat) (bs : List Byte) (line : Nat) : State × Bool :=
  let base := line * lineSize
  if pa ≤ base ∧ base + lineSize ≤ pa + bs.length then (s.writeLine line comp ((bs.drop (base - pa)).take lineSize), true)
  else match s.readLine line with
    | some old => (s.writeLine line comp (overlay old base pa bs), true)
    | none => (s, false)

/-- R419: bytes written to HBM, line by line. -/
def State.writeHbm (s : State) (comp : Bool) (pa : Nat) (bs : List Byte) : State × Bool :=
  (linesOf pa bs.length).foldl (fun acc l => let r := acc.1.writeInLine comp pa bs l; (r.1, acc.2 && r.2)) (s, true)

/-- R417: bytes read from HBM. -/
def State.readHbm (s : State) (pa n : Nat) : Option (List Byte) :=
  let ls := (linesOf pa n).map fun l => s.readLine l
  if ls.all Option.isSome then some (((ls.flatMap fun l => l.getD []).drop (pa % lineSize)).take n) else none

/-! ### Plain reads and writes -/

/-- R351: the words of Mordant SRAM that a run of bytes touches and that hold a double-bit error. [Assumption 8: DESIGN CHOICE.] -/
def State.wordsBad (s : State) (a n : Nat) : Bool := s.badWords.any fun w => decide (w < a + n) && decide (a < w + 8)

/-- R468: the port by which the device's requests to the host go: A, or B while A is down. [Assumption 59: PRESUMED.] -/
def State.upstream (s : State) : Nat := if s.upPorts.contains 1 ∧ !s.upPorts.contains 0 then 1 else 0

/-- R468: where the memory of a port's host stands: each host has a space of its own, of 47 address bits. [Assumption 59: PRESUMED.] -/
def hostCell (port pa : Nat) : Nat := pa + port * 2 ^ 47

/-- Bytes by physical address within 64 KiB, as any agent reads them; nothing where they are uncorrectable (R420, R351). Reserved addresses
and those beyond a scratchpad in its window read zero. -/
def State.physReadIn (s : State) (pa n : Nat) : Option (List Byte) :=
  match physKind pa with
  | .hbm _ => s.readHbm pa n
  | .overflow _ => s.readHbm pa n
  | .metadata _ => some (List.replicate n 0)
  | .window _ off => some ((memRead s.mem pa n).mapIdx fun i b => if off + i < scratchSize then b else 0)
  | .sync die off =>
    if off < 0x80_0000 then
      if s.wordsBad pa n then none else some (memRead s.mem pa n)
    else s.readHbm (syncByteAddr die off) n
  | .host => some (memRead s.mem (hostCell s.upstream pa) n)
  | .reserved => some (List.replicate n 0)

/-- R350, R407: the parts of a run of n bytes that stand in different 64 KiB of the map, whose every region begins at such a boundary: offset and
length of each. -/
def physParts (pa n : Nat) : List (Nat × Nat) :=
  (List.range ((pa + n - 1) / 2 ^ 16 - pa / 2 ^ 16 + 1)).map fun i =>
    let lo := max pa ((pa / 2 ^ 16 + i) * 2 ^ 16)
    (lo - pa, min (pa + n) ((pa / 2 ^ 16 + i + 1) * 2 ^ 16) - lo)

/-- Bytes by physical address, each from the region that it lies in (R350, R407). -/
def State.physRead (s : State) (pa n : Nat) : Option (List Byte) :=
  if pa % 2 ^ 16 + n ≤ 2 ^ 16 then s.physReadIn pa n
  else (physParts pa n).foldl (fun acc q => acc.bind fun bs => (s.physReadIn (pa + q.1) q.2).map fun r => bs ++ r) (some [])

/-- Bytes written by physical address within 64 KiB; false when a partial write to an uncorrectable line was dropped (R420). -/
def State.physWriteIn (s : State) (pa : Nat) (bs : List Byte) (comp : Bool) : State × Bool :=
  match physKind pa with
  | .hbm _ => s.writeHbm comp pa bs
  | .overflow _ => s.writeHbm false pa bs
  | .metadata _ => (s, true)
  | .window _ off => ({ s with mem := memWrite s.mem pa (bs.take (scratchSize - off)) }, true)
  | .sync die off =>
    if off < 0x80_0000 then
      ({ s with mem := memWrite s.mem pa bs, badWords := s.badWords.filter fun w => !(decide (pa ≤ w) && decide (w + 8 ≤ pa + bs.length)) }, true)
    else s.writeHbm false (syncByteAddr die off) bs
  | .host => ({ s with mem := memWrite s.mem (hostCell s.upstream pa) bs }, true)
  | .reserved => (s, true)

/-- Bytes written by physical address, each into the region that it lies in (R350, R407). [Assumption 25: DEDUCED.] -/
def State.physWrite (s : State) (pa : Nat) (bs : List Byte) (comp : Bool) : State × Bool :=
  if pa % 2 ^ 16 + bs.length ≤ 2 ^ 16 then s.physWriteIn pa bs comp
  else (physParts pa bs.length).foldl (fun acc q =>
    let r := acc.1.physWriteIn (pa + q.1) ((bs.drop q.1).take q.2) comp
    (r.1, acc.2 && r.2)) (s, true)

/-- A little-endian word of n bytes at a physical address; 0 where it cannot be read. -/
def State.physWord (s : State) (pa n : Nat) : Nat := leNat ((s.physRead pa n).getD [])

/-! ### Places -/

def dieOf (tile : Nat) : Nat := tile / 1024

/-- R24: the tile of a die's outer edge at which its engines attach to the mesh. -/
def edgeTile (die : Nat) : Nat := die * 1024 + (if die < 4 then 0 else 31 * 32)

/-- R9, R25: the HBM stack of a die, 0 or 1, that holds a physical address: consecutive 4 KiB granules alternate. -/
def stackOf (pa : Nat) : Nat := pa / 0x1000 % 2

/-- R24, R25: the tile of a die's outer edge at which the controller of a stack attaches. [Assumption 57: DEDUCED.] -/
def controllerTile (die stack : Nat) : Nat := edgeTile die + 8 + 16 * stack

/-- R422: the die that homes a physical address; host space lies behind die 0. -/
def homeDie (pa : Nat) : Nat :=
  match physKind pa with
  | .hbm d => d
  | .overflow d => d
  | .metadata d => d
  | .window t _ => dieOf t
  | .sync d _ => d
  | .host => 0
  | .reserved => 0

/-- R422: the tile to which an access to an address travels: its own for a tile window, that of the controller of the die and stack for HBM, else that
of its die's engines. -/
def homeTile (pa : Nat) : Nat :=
  match physKind pa with
  | .window t _ => t
  | .hbm d => controllerTile d (stackOf pa)
  | _ => edgeTile (homeDie pa)

end Sys2Proof.Machine
end

