-- ==== Sys2Proof/Machine/Net.lean ====
section
/-! DEFINITION. The fabric: global coordinates and routes (R9-R11), packets and their arbitration (R13-R15), and causal stamps of cross-die
writes (R436-R438). Links between dies are in Link. -/

namespace Sys2Proof.Machine

/-! ### Coordinates (R5, R9, R11) -/

def tileGx (t : Nat) : Nat := (t / 1024 % 4) * 32 + t % 32
def tileGy (t : Nat) : Nat := (t / 4096) * 32 + t / 32 % 32
def tileAt (gx gy : Nat) : Nat := (gy / 32 * 4 + gx / 32) * 1024 + gy % 32 * 32 + gx % 32

/-- The ports of a router in the order of R16. -/
inductive Dir where
  | north | east | south | west | here
deriving DecidableEq, Repr

def Dir.code : Dir → Nat
  | .north => 0 | .east => 1 | .south => 2 | .west => 3 | .here => 4

/-- R11: the way a packet leaves a router. -/
def routeDir (at_ dst : Nat) : Dir :=
  let dx := (tileGx dst + 128 - tileGx at_) % 128
  if dx ≠ 0 then (if dx ≤ 128 - dx then .east else .west)
  else if tileGy at_ < tileGy dst then .south
  else if tileGy dst < tileGy at_ then .north
  else .here

/-- R10: the neighbouring tile in a direction; the X ring wraps, the Y dimension does not. -/
def neighbour (t : Nat) (d : Dir) : Nat :=
  match d with
  | .north => tileAt (tileGx t) (tileGy t - 1)
  | .south => tileAt (tileGx t) (min 63 (tileGy t + 1))
  | .east => tileAt ((tileGx t + 1) % 128) (tileGy t)
  | .west => tileAt ((tileGx t + 127) % 128) (tileGy t)
  | .here => t

def Dir.opposite : Dir → Dir
  | .north => .south | .south => .north | .east => .west | .west => .east | .here => .here

/-- R15: the plane of a message, capsule or configuration packet. -/
def planeOf (src dst : Nat) : Nat := if src.testBit 0 == dst.testBit 0 then 0 else 1

/-- The virtual networks (R14, R442). -/
def vnCopy : Nat := 0
def vnMessage : Nat := 1
def vnCapsule : Nat := 2
def vnConfig : Nat := 3

/-! ### Sending -/

def State.newId (s : State) : Nat × State := (s.ids, { s with ids := s.ids + 1 })

/-- R446: a packet that is one tunnelled flit. -/
def Packet.carrier (p : Packet) : Bool := decide (p.act = .flitReceive)

/-- The network whose buffers hold a packet at a router, or 4 for the tunnel buffers (R446). -/
def Packet.cls (p : Packet) : Nat := if p.carrier then 4 else p.vn

/-- A packet all of whose flits have been sent over a link or into its tunnel. -/
def Packet.onWire (p : Packet) : Bool := p.flit.isSome && decide (p.sent = 0)

/-- A packet in a buffer of its router. -/
def Packet.queued (p : Packet) : Bool := !p.onWire && decide (p.inn ≠ 5)

/-- R14: the buffer that a packet stands in: its router, the port it came in by, its plane and its network. -/
def Packet.buffer (p : Packet) : Nat := ((p.at_ * 8 + p.inn) * 2 + p.plane) * 8 + p.cls

/-- The order in which packets of a buffer have come. -/
def Packet.sooner (p : Nat × Packet) (q : Nat × Packet) : Bool :=
  decide (p.2.since < q.2.since) || (decide (p.2.since = q.2.since) && (decide (p.2.num < q.2.num) || (decide (p.2.num = q.2.num) && decide (p.1 < q.1))))

/-- R15: whether a packet stands at the head of its buffer: a buffer gives up its packets in the order in which they came. -/
def State.atHead (s : State) (i : Nat) (p : Packet) : Bool :=
  p.queued && s.pkts.all fun q => !q.2.queued || decide (q.2.buffer ≠ p.buffer) || decide (q.1 = i) || Packet.sooner (i, p) q

/-- R348: a capsule that has come to the head of its router input counts from now; after 65,536 ticks there it is to be parked. [Assumption 38: DEDUCED.] -/
def State.markHead (s : State) (buffer : Nat) : State :=
  match s.pkts.find? fun q => decide (q.2.buffer = buffer) && s.atHead q.1 q.2 with
  | some (i, p) =>
    if p.cls = vnCapsule ∧ p.headAt.isNone then
      ({ s with pkts := s.pkts.map fun q => if q.1 = i then (i, { q.2 with headAt := some s.tick }) else q } : State).atTick (s.tick + 65536) 0 .capsuleParkTimeout
        { opId i with arg := 1, word := BitVec.ofNat 64 s.tick }
    else s
  | none => s

/-- A packet put into a buffer of a router, which it may leave after some ticks (R354). -/
def State.enqueue (s : State) (i : Nat) (p : Packet) : State :=
  let at0 := s.tick + max 1 (Config.delay s.fresh 10)
  let p := { p with ready := at0, since := s.tick, headAt := none }
  (({ s with pkts := SMap.set s.pkts i p, fresh := s.fresh + 1 } : State).atTick at0 0 .routerForward (opId i)).markHead p.buffer

/-- A packet taken out of its router, whose buffer the next one then heads. -/
def State.dropPacket (s : State) (i : Nat) (p : Packet) : State := ({ s with pkts := SMap.erase s.pkts i } : State).markHead p.buffer

/-- A packet put into its source's router. -/
def State.inject (s : State) (p : Packet) : State :=
  let (i, s) := s.newId
  s.enqueue i { p with num := i }

/-- R15: the plane of a packet: copies use both, in turn of their sending; the others of one source and destination keep to one. [Assumption 57: DEDUCED.] -/
def planeFor (vn src dst num : Nat) : Nat := if vn = vnCopy then num % 2 else planeOf src dst

/-- A packet of a network from one tile to another. -/
def State.packet (s : State) (vn ctx src dst : Nat) (act : Instr) (op : Operand) : Packet :=
  { src := src, at_ := src, dst := dst, more := [], num := 0, vn := vn, plane := planeFor vn src dst s.ids, prio := 0, ready := 0, since := 0, headAt := none,
    ctx := ctx, inn := 4, tunnel := [], flit := none, sent := 0, burst := none, kept := none, act := act, op := op }

/-- A packet of a network from one tile to another that brings an event. -/
def State.send (s : State) (vn ctx src dst : Nat) (act : Instr) (op : Operand) : State := s.inject (s.packet vn ctx src dst act op)

/-- As `State.send`, for a packet that leaves at a later tick. -/
def State.sendAt (s : State) (at_ vn ctx src dst : Nat) (act : Instr) (op : Operand) : State :=
  let (i, s) := s.newId
  let p := { s.packet vn ctx src dst act op with num := i }
  if at_ ≤ s.tick then s.enqueue i p
  else
    let at1 := at_ + max 1 (Config.delay s.fresh 10)
    (({ s with pkts := SMap.set s.pkts i { p with ready := at1, since := at_ }, fresh := s.fresh + 1 } : State).atTick at1 0 .routerForward (opId i)).markHead p.buffer

/-- R436: the stamped burst that a packet brings to its destination: of a multicast, that of the tile it has come to. -/
def State.burstAt (s : State) (p : Packet) : Option Nat :=
  p.burst.bind fun i =>
    if p.act = .copyDelivery then
      (s.bursts.find? fun q => decide (q.2.act = .copyDelivery) && decide (q.2.op.tile = p.dst) && decide (q.2.op.id = p.op.id) && decide (q.2.op.arg = p.op.arg)).map Prod.fst
    else some i

/-- The events that a packet brings, in the agenda of its tick by the tile they come from (R353): a stamped burst's are its application (R436). -/
def State.deliver (s : State) (p : Packet) : State :=
  let s := s.poke p.dst
  match s.burstAt p with
  | some i => s.atTick s.tick (p.src + 1) .burstApply (opId i)
  | none => s.atTick s.tick (p.src + 1) p.act p.op

/-! ### Links (R441) -/

def linkId (z : Bool) (die edge idx : Nat) : Nat := (if z then 2 ^ 15 else 0) + die * 2 ^ 12 + edge * 2 ^ 10 + idx * 2 ^ 5

def State.link (s : State) (id : Nat) : Link := SMap.get s.links s.linkBase id
def State.modLink (s : State) (id : Nat) (f : Link → Link) : State := { s with links := SMap.set s.links id (f (s.link id)) }

def Link.carries (l : Link) : Bool := decide (l.st = .up) || decide (l.st = .degraded)

/-- R448: whether the engines' notices from one die to another wait, the Y link on their way, at the column of the other die's edge tile, carrying nothing. [Assumption 57: DEDUCED.] -/
def State.noticeHeld (s : State) (from_ die : Nat) : Bool := decide (from_ / 4 ≠ die / 4) && !(s.link (linkId false (die % 4) 2 0)).carries

/-! ### Causal stamps (R436) -/

def State.clock (s : State) (die : Nat) : List Nat := SMap.get s.clocks (List.replicate 8 0) die

/-- R436: entries compared as serial numbers modulo 2^32: a at least b. -/
def serialGe (a b : Nat) : Bool := decide ((a + 2 ^ 32 - b) % 2 ^ 32 < 2 ^ 31)

/-- What makes a write: a strand or engine by its code (R437), the handler depth and the sequence number of a strand's trigger. -/
structure Writer where
  strand : Nat
  level  : Nat
  seq    : Nat
deriving DecidableEq, Repr

/-- A writer other than a strand or one of its commands: a PORT, a capsule, a dispatcher, another module. -/
def Writer.other : Writer := ⟨8, 0, 0⟩

/-- A command of a strand's engines. -/
def Writer.command (n : Nat) : Writer := ⟨16 + n, 0, 0⟩

/-- R436: a burst numbered and stamped at its origin. [Assumption 55: DEDUCED.] -/
def State.newBurst (s : State) (origin dest tile : Nat) (w : Writer) (group : Nat) (act : Instr) (op : Operand) : Nat × State :=
  let c := s.clock origin
  let n := (c.getD origin 0 + 1) % 2 ^ 32
  let c := c.set origin n
  let (i, s) := s.newId
  let b : Burst := { origin := origin, dest := dest, num := n, stamp := c, tile := tile, strand := w.strand, level := w.level, seq := w.seq, here := false, done := false, zport := false,
                     group := group, seq0 := 0, sent := 0, act := act, op := op }
  (i, { s with clocks := SMap.set s.clocks origin c, bursts := SMap.set s.bursts i b })

/-- R436: whether a destination's clock lets a burst be applied. [Assumption 55: DEDUCED.] -/
def stampOk (clock : List Nat) (b : Burst) : Bool :=
  (List.range 8).all fun k =>
    if k = b.origin then serialGe (clock.getD k 0) ((b.stamp.getD k 0 + 2 ^ 32 - 1) % 2 ^ 32)
    else serialGe (clock.getD k 0) (b.stamp.getD k 0)

/-- R436: a burst known applied at a die: the clock's entry for its origin passes over every number known applied in a row. -/
def State.noteApplied (s : State) (die origin num : Nat) : State :=
  let key := die * 8 + origin
  let ns := num :: SMap.get s.noticed [] key
  let c := s.clock die
  let run (acc : Nat × List Nat) (_ : Nat) : Nat × List Nat :=
    let next := (acc.1 + 1) % 2 ^ 32
    if acc.2.contains next then (next, acc.2.filter fun m => m ≠ next) else acc
  let r := ns.foldl run (c.getD origin 0, ns)
  { s with clocks := SMap.set s.clocks die (c.set origin r.1), noticed := SMap.setD s.noticed [] key r.2 }

/-- R436: the bursts that have reached a die and may be applied now are looked at again. -/
def State.wakeBursts (s : State) (die : Nat) : State :=
  s.bursts.foldl (fun s p => if p.2.dest = die ∧ p.2.here ∧ !p.2.done ∧ stampOk (s.clock die) p.2 then s.atTick s.tick 0 .burstApply (opId p.1) else s) s

/-- A stamped burst on its way. -/
def State.sendBurst (s : State) (vn ctx src dst i : Nat) : State :=
  match SMap.lookup s.bursts i with
  | some b => s.inject { s.packet vn ctx src dst b.act b.op with burst := some i }
  | none => s

/-- A write of one tile to a home on a die: a plain event at the home, or a stamped burst when the die is another (R436). [Assumption 55: DEDUCED.] -/
def State.sendWrite (s : State) (vn ctx src dst : Nat) (w : Writer) (act : Instr) (op : Operand) : State :=
  if dieOf src = dieOf dst then s.send vn ctx src dst act op
  else
    let (i, s) := s.newBurst (dieOf src) (dieOf dst) src w 0 act op
    s.sendBurst vn ctx src dst i

/-- R424: whether a write to a replicated page has still to reach some other copy. -/
def State.spreading (s : State) (group : Nat) : Bool := decide (group ≠ 0) && s.bursts.any fun b => decide (b.2.group = group) && !b.2.done

/-- BURST_APPLY (R436, R437): a burst is applied once its stamp is satisfied, and its notices go out to every other die. [Assumption 55: DEDUCED.] -/
def execBurstApply (s : State) : Host.Outcome State Fault Refusal :=
  match SMap.lookup s.bursts s.ev.id with
  | none => .next s
  | some b =>
    if b.done then .next s
    else if stampOk (s.clock b.dest) b then
      let s := { s with bursts := SMap.set s.bursts s.ev.id { b with done := true } }
      let s := s.atTick s.tick (b.tile + 1) b.act b.op
      let s := s.noteApplied b.dest b.origin b.num
      let s := (List.range 8).foldl (fun s d =>
        if d = b.dest then s else s.later 11 .appliedNotice { Operand.zero with node := d, arg := b.origin, id := b.num, strand := b.dest }) s
      .next (s.wakeBursts b.dest)
    else .next { s with bursts := SMap.set s.bursts s.ev.id { b with here := true } }

/-- R436: a burst whose packet has been taken off its way counts as applied, so that none that follows waits for it. [Assumption 55: DEDUCED.] -/
def State.burstDropped (s : State) (p : Packet) : State :=
  match p.burst.bind fun i => (SMap.lookup s.bursts i).map fun b => (i, b) with
  | none => s
  | some (i, b) =>
    let s := { s with bursts := SMap.set s.bursts i { b with done := true } }
    let s := s.noteApplied b.dest b.origin b.num
    ((List.range 8).foldl (fun s d =>
      if d = b.dest then s else s.later 11 .appliedNotice { Operand.zero with node := d, arg := b.origin, id := b.num, strand := b.dest }) s).wakeBursts b.dest

/-- R450: a burst that another module has applied: its notices go to every die. [Assumption 57: DEDUCED.] -/
def State.zApplied (s : State) (i : Nat) (b : Burst) : State :=
  (List.range 8).foldl (fun s d => if d = b.origin then s else s.later 11 .appliedNotice { Operand.zero with node := d, arg := b.origin, id := b.num, strand := b.dest })
    { s with bursts := SMap.erase s.bursts i }

/-- APPLIED_NOTICE (R436, R437, R448-R450): a notice waits at a Y link that carries nothing; back at the origin die it ends the burst, elsewhere it counts in the
clock; with the flag it comes from another module. [Assumption 55: DEDUCED.] -/
def execAppliedNotice (s : State) : Host.Outcome State Fault Refusal :=
  let o := s.ev
  if o.flag then
    .next (match SMap.lookup s.bursts o.id with
      | some b => if b.zport then s.zApplied o.id b else s
      | none => s)
  else if s.noticeHeld o.strand o.node then .next (s.after 1 .appliedNotice o)
  else if o.node = o.arg then
    .next { s with bursts := s.bursts.filter fun p => !(p.2.done && decide (p.2.origin = o.arg) && decide (p.2.num = o.id)) }
  else .next ((s.noteApplied o.node o.arg o.id).wakeBursts o.node)

end Sys2Proof.Machine
end

