-- ==== Sys2Proof/Machine/Fetch.lean ====
section
/-! DEFINITION. Fetching and decoding (R50, R64, R69, R87, R197, R199, R218, R23): the slip window, loop back edges and BUNDLE_DECODE. -/

namespace Sys2Proof.Machine

/-! ### Control flow ahead of the slots -/

/-- A loop's flow at the bundle after its last body bundle: the counter it leaves, whether control goes back, and the loop. -/
structure Edge where
  second : Bool
  count  : Nat
  back   : Bool
deriving DecidableEq, Repr

/-- R197: the loops whose last body bundle has index i, the one set up later first. -/
def Stream.edgesAt (x : Stream) (i : Nat) : List Bool :=
  let hit (l : HwLoop) : Bool := l.active && decide (l.last = i)
  match hit x.loop0, hit x.loop1 with
  | false, false => []
  | true, false => [false]
  | false, true => [true]
  | true, true => if x.loop1.order < x.loop0.order then [false, true] else [true, false]

/-- R197: the back edges that act after the bundle of sequence number q and index i, each reading its counter as that bundle
sees it; a later one acts only when an earlier falls through. [Assumption 13: DEDUCED.] -/
def Strand.edges (x : Strand) (q i : Nat) : List Edge :=
  let step (acc : List Edge × Bool) (b : Bool) : List Edge × Bool :=
    if acc.2 then acc
    else
      let n := (x.regAt (codeLc b) q).toNat
      if 1 < n then (acc.1 ++ [⟨b, n - 1, true⟩], true) else (acc.1 ++ [⟨b, 0, false⟩], false)
  ((x.stream.edgesAt i).foldl step ([], false)).1

/-- R197: one back edge: its counter, a write by the last body bundle under any move of that bundle, and where control goes. [Assumption 13: DEDUCED.] -/
def Strand.takeEdge (x : Strand) (c : Issuer) (i : Nat) (e : Edge) : Strand :=
  let l := if e.second then x.stream.loop1 else x.stream.loop0
  let l' := if e.back then l else { l with active := false }
  let st := if e.second then { x.stream with loop1 := l' } else { x.stream with loop0 := l' }
  let st := { st with fetchIdx := List.replicate 8 (if e.back then l.first else (i + 1) % 4096) }
  { x with stream := st }.writeRank c 0 (codeLc e.second) (c.seq + 1) (BitVec.ofNat 1024 e.count)

/-- R70, R197: whether the counters that the edges read have been written. -/
def edgesReady (x : Strand) (q i : Nat) : Bool :=
  (x.stream.edgesAt i).all fun b => !x.stream.writePending (codeLc b) q

/-- R223, R224: whether the counters that the edges write have room in the log. -/
def edgesRoom (co : Core) (x : Strand) (i : Nat) : Bool :=
  (x.stream.edgesAt i).all fun b => logRoom co x (codeLc b)

/-- The index in slot 0's stream of the bundle fetched last. -/
def Stream.lastIdx (x : Stream) : Nat := (x.fetchIdx.headD 0 + 4095) % 4096

/-- The stream with its next index known: a redirection or a back edge due at the next sequence number is taken. [Assumption 13: DEDUCED.] -/
def Strand.settle (x : Strand) (t n step : Nat) : Strand :=
  let st := x.stream
  let q := st.fetchSeq
  match st.redirect with
  | some (q', target) =>
    if q' ≤ q then
      { x with stream := { st with redirect := none, seqEnd := false, fetchIdx := List.replicate 8 target, ctlFrom := min st.ctlFrom q } }
    else { x with stream := { st with seqEnd := false } }
  | none =>
    if st.seqEnd then
      let i := st.lastIdx
      let c : Issuer := ⟨t, n, 0, q - 1, step⟩
      (x.edges (q - 1) i).foldl (fun x e => x.takeEdge c i e) { x with stream := { st with seqEnd := false } }
    else x

/-- R197: whether a back edge that is due, if there is one, may be taken: the counters it reads are written, and those it writes have room
in the log. -/
def Strand.edgeDueReady (co : Core) (x : Strand) : Bool :=
  !x.stream.seqEnd || x.stream.redirect.isSome || (edgesReady x (x.stream.fetchSeq - 1) x.stream.lastIdx && edgesRoom co x x.stream.lastIdx)

/-- Whether settling must wait: for a set-up bundle, for a counter, or for log room. -/
inductive FetchWait where
  | ready | wait | full
deriving DecidableEq, Repr

def Strand.fetchWait (co : Core) (x : Strand) : FetchWait :=
  let st := x.stream
  let edge := st.seqEnd && st.redirect.isNone
  if st.hold.isSome || (st.window.any fun b => b.bad.isSome) || co.reload.isSome then .wait
  else if edge && !edgesReady x (st.fetchSeq - 1) st.lastIdx then .wait
  else if edge && !edgesRoom co x st.lastIdx then .full
  else .ready

/-- R69: some slot has come to the bundle fetched next. [Assumption 13: DEDUCED.] -/
def Stream.wants (x : Stream) : Bool := x.slotSeq.any fun q => decide (x.fetchSeq ≤ q)

/-- R50: a bundle of the code store. -/
def Tile.bundleAt (x : Tile) (i : Nat) : Bundle := SMap.get x.code 0 i

/-- R199: whether index i is the last of an active loop's body or the one before it. -/
def Stream.loopTail (x : Stream) (i : Nat) : Bool :=
  let near (l : HwLoop) : Bool := l.active && (decide (l.last = i) || decide (l.last = (i + 1) % 4096))
  near x.loop0 || near x.loop1

/-- R64, R23: the fault of a bundle, slot by slot: the lowest offending slot, its cause and `DETAIL`. -/
def decodeFault (nbun : Nat) (idx : List Nat) (bits : List Bundle) (place : Nat → BundlePlace) : Option (Nat × Nat × Nat) :=
  if idx.all fun d => d == idx.headD 0 then
    if nbun ≤ idx.headD 0 then some (0, 0, 3)
    else (bundleFault (bits.headD 0) (place (idx.headD 0))).map fun r => (r.1, r.2.cause, 0)
  else (List.range 8).findSome? fun k =>
    if nbun ≤ idx.getD k 0 then some (k, 0, 3)
    else (moveFault (bits.getD k 0) (place (idx.getD k 0)) k).map fun e => (k, e.cause, 0)

/-- The loop set-up a bundle holds, if it does: nothing after it is fetched until slot 0 has issued it (R197). -/
def holdsSetup (b : Bundle) : Bool :=
  let w := bundleMove b 0
  isTriggerWord w && decide (wordUnit w = 0) && (decide (wordPort w = 12) || decide (wordPort w = 13))

/-- R23: the bundle is reloaded from the kernel image; its bits stay bad until the reload has come. -/
def Tile.reloadBundle (y : Tile) (p : Nat) : Tile := { y with core := { y.core with reload := some p } }

/-- R64, R69: the next bundle of the issuing strand is fetched and decoded into the window. -/
def State.fetchBundle (s : State) (t n : Nat) : State :=
  s.modTile t fun y =>
    let x := (y.strand n).settle t n y.core.stepc
    let st := x.stream
    let idx := st.fetchIdx
    match y.core.parity.find? fun p => idx.contains p && decide (p < y.nbun) with
    | some p => (y.setStrand n x).reloadBundle p
    | none =>
      let bits := idx.map y.bundleAt
      let bad := decodeFault y.nbun idx bits fun i => ⟨st.delayNext, st.loopTail i⟩
      let b0 := bits.headD 0
      let live := decide (st.ctlFrom ≤ st.fetchSeq)
      y.setStrand n { x with stream := { st with
        window := st.window ++ [⟨st.fetchSeq, idx, bits, bad⟩]
        fetchSeq := st.fetchSeq + 1
        fetchIdx := idx.map fun i => (i + 1) % 4096
        seqEnd := live && !(st.edgesAt (idx.headD 0)).isEmpty
        delayNext := live && holdsTransfer b0
        hold := if live && holdsSetup b0 then some st.fetchSeq else none } }
/-- BUNDLE_DECODE (R64): the issuing strand's next bundle enters its window. -/
def execBundleDecode (s : State) : Host.Outcome State Fault Refusal :=
  let t := s.ev.tile
  match (s.core t).issuing with
  | none => .next s
  | some n =>
    let x := s.strand t n
    if x.stream.wants && decide (Strand.fetchWait (s.core t) x = .ready) then
      let s' := s.fetchBundle t n
      .next (match (s'.core t).reload with
        | some p => s'.later 1 .bundleReloadDone (opTileId t p)
        | none => s')
    else .next s

end Sys2Proof.Machine
end

