-- ==== Sys2Proof/Machine/Trap.lean ====
section
/-! DEFINITION. Traps and restart marks (R105-R110, R194, R195, R214-R226): the frame, taking a cause, rollback, checkpoints and the
return by `rft`. -/

namespace Sys2Proof.Machine

/-! ### Registers folded flat -/

/-- A sequence number above every version's. -/
def topSeq (vs : List Ver) : Nat := vs.foldl (fun m v => max m v.vis) 0

/-- The newest value of every register, with no version left. -/
def flushVers (base : SMap Wide) (vs : List Ver) : SMap Wide :=
  vs.foldl (fun b v => SMap.setD b 0 v.reg (readAt base vs v.reg (topSeq vs))) base

def isPortReg (reg : Nat) : Bool := decide (0x200 ≤ reg)

/-- The strand's own registers as a handler finds them (R216). -/
def Strand.flushed (x : Strand) : SMap Wide := flushVers x.regs (x.vers.filter fun v => !isPortReg v.reg)

/-- The flags and `oar` with every change counted. -/
def Strand.flagsNow (x : Strand) : BitVec 10 × W64 := x.flagEvs.foldl (fun f e => e.apply f) (x.flagBase, x.oarBase)

/-! ### The frame (R108-R110) -/

def frameAddr (n : Nat) : Nat := 0x7_0000 + n * 0x1000

/-- The largest counts of a frame (R108). -/
def maxDescriptors : Nat := 46
def maxScalars : Nat := 28
def maxWides : Nat := 18
def maxLandings : Nat := 64

/-- The units whose latches stand in the wide area, in order (R108). -/
def wideLatches : List Nat := [6, 10, 11, 12, 13]

/-- Results in flight in the order of their triggers' sequence numbers. -/
def insertFlight : List InFlight → InFlight → List InFlight
  | [], f => [f]
  | g :: r, f => if f.seq < g.seq ∨ (f.seq = g.seq ∧ f.slot < g.slot) then f :: g :: r else g :: insertFlight r f

def orderFlights (p : List InFlight) : List InFlight := p.foldl insertFlight []

/-- The in-flight descriptors, scalar values and wide values of a frame, at step s. -/
def flightWords (s : Nat) : List InFlight → Nat → Nat → List Nat × List Wide × List Wide
  | [], _, _ => ([], [], [])
  | f :: r, ns, nw =>
    let wide := wideUnit f.unit
    let d := (if wide then nw else ns) * 2 ^ 16 + (if wide then 2 ^ 13 else 0) + (f.due - s) * 2 ^ 8
      + (if f.w then 16 else 0) + f.unit
    let rest := flightWords s r (if wide then ns else ns + 1) (if wide then nw + 1 else nw)
    if wide then (d :: rest.1, rest.2.1, f.val :: rest.2.2) else (d :: rest.1, f.val :: rest.2.1, rest.2.2)

/-- A landing descriptor (R110). -/
def landWord (s : Nat) (a : Land) : Nat :=
  2 ^ 18 + (if a.late then 2 ^ 17 else 0) + (if a.data.isSome then 2 ^ 16 else 0) + min (a.due - s) 4095 * 16 + a.reg

/-- The strand's landing entries that the present level of handler has outstanding. -/
def liveLands (co : Core) (n : Nat) (x : Strand) : List Land :=
  co.lands.filter fun a => decide (a.strand = n) && decide (a.level = x.depth) && a.frozen.isNone

def loopWord (l : HwLoop) : Nat := if l.active then 2 ^ 24 + l.last * 2 ^ 12 + l.first else 0

/-- The index a slot issues next: its decoded bundle's, or the one fetched next. -/
def Stream.nextIdx (x : Stream) (k : Nat) : Nat :=
  let q := x.slotSeq.getD k 0
  match x.bundle q with
  | some b => b.idx.getD k 0
  | none => x.fetchIdx.getD k 0

/-- R110: `TSLOTn`. -/
def slotWord (co : Core) (x : Stream) (k : Nat) : Nat :=
  (if co.stalled.contains k then 2 ^ 31 else 0) + (x.slotSeq.getD k 0 - x.minSeq) * 2 ^ 16 + x.nextIdx k

/-- `TSEQ` and the eight `TSLOT` words. -/
def slotWords (co : Core) (x : Stream) : List Nat := x.minSeq :: (List.range 8).map (slotWord co x)

/-- The mask of causes that stay pending (R109). -/
def pendMask (rs : List CauseRec) : Nat := rs.foldl (fun m r => m ||| 2 ^ r.cause) 0

def padTo (n : Nat) (bs : List Byte) : List Byte := (bs ++ List.replicate n 0).take n

/-- R108: the frame of a cause taken with others pending. -/
def frameBytes (tick : Nat) (co : Core) (n : Nat) (x : Strand) (r : CauseRec) (pend : List CauseRec) : List Byte :=
  let s := co.stepc
  let fw := flightWords s (orderFlights co.pipe) 0 0
  let lands := liveLands co n x
  leBytes 8 (pendMask pend * 2 ^ 32 + r.detail.toNat * 2 ^ 16 + r.slot * 2 ^ 8 + r.cause)
    ++ leBytes 8 r.info.toNat
    ++ leBytes 8 tick
    ++ leBytes 8 x.stream.minSeq
    ++ ((List.range 8).flatMap fun k => leBytes 4 (slotWord co x.stream k))
    ++ leBytes 8 (loopWord x.stream.loop0) ++ leBytes 8 (loopWord x.stream.loop1)
    ++ leBytes 8 (fw.1.length + fw.2.1.length * 2 ^ 8 + fw.2.2.length * 2 ^ 16 + lands.length * 2 ^ 24)
    ++ leBytes 8 (((x.ckpt.map fun c => c.index).getD 0) + gatedCount x * 2 ^ 16 + x.log.length * 2 ^ 24
        + (if x.depth = 0 then 2 ^ 31 else 0))
    ++ List.replicate 32 0
    ++ ((List.range 16).flatMap fun u => leBytes 8 (if wideLatches.contains u then 0 else (SMap.get co.latches 0 u).toNat))
    ++ (wideLatches.flatMap fun u => leBytes 128 (SMap.get co.latches 0 u).toNat)
    ++ padTo 256 (lands.flatMap fun a => leBytes 4 (landWord s a))
    ++ padTo 192 (fw.1.flatMap fun d => leBytes 4 d)
    ++ padTo 256 (fw.2.1.flatMap fun v => leBytes 8 v.toNat)
    ++ padTo 2304 (fw.2.2.flatMap fun v => leBytes 128 v.toNat)
    ++ List.replicate 192 0

/-- A little-endian field of a frame. -/
def frameField (f : List Byte) (at0 n : Nat) : Nat := leNat ((f.drop at0).take n)


/-! ### Which cause is taken (R106, R195, R209) -/

/-- The causes that may be taken: 6 and 7 are masked in a handler. -/
def Strand.takeable (x : Strand) : List CauseRec :=
  x.causes.filter fun r => decide (x.depth = 0) || (decide (r.cause ≠ 6) && decide (r.cause ≠ 7))

/-- R106: the lowest-numbered cause other than 8; 8 when it is alone. [Assumption 16: DEDUCED.] -/
def pickCause (rs : List CauseRec) : Option CauseRec :=
  let low (best : Option CauseRec) (r : CauseRec) : Option CauseRec :=
    match best with
    | none => some r
    | some b => if r.cause < b.cause then some r else some b
  match (rs.filter fun r => decide (r.cause ≠ 8)).foldl low none with
  | some r => some r
  | none => rs.head?

/-- R106: what the core keeps of the causes that the frame of a handler level has pending. -/
def Strand.pendAt (x : Strand) (level : Nat) : List CauseRec := (x.pendInfo.filter fun p => decide (p.1 = level)).map Prod.snd

/-- What the core keeps beside the strand with the pending causes of one level replaced. -/
def Strand.setPend (x : Strand) (level : Nat) (rs : List CauseRec) : Strand :=
  { x with pendInfo := (x.pendInfo.filter fun p => decide (p.1 ≠ level)) ++ rs.map fun r => (level, r) }

/-- R226: the cause taken next with those that stay pending; a page fault whose rollback is done comes first. [Assumption 16: DEDUCED.] -/
def Strand.nextCause (x : Strand) : Option (CauseRec × List CauseRec) :=
  match x.rolled with
  | some r => some (r, x.pendAt x.depth ++ x.takeable)
  | none => (pickCause x.takeable).map fun r => (r, x.takeable.filter fun d => decide (d.cause ≠ r.cause))

/-! ### Ending a run faulted (R116, R217) -/

/-- The run ends faulted with a code, at the index of slot 0's next bundle. -/
def Strand.endFaulted (x : Strand) (code : Nat) : Strand :=
  { x with st := .suspended, ending := some ⟨.fault code, 0, [], 0, x.stream.nextIdx 0⟩,
           causes := [], pendInfo := [], rolled := none, afterYield := false, wake := .none }

/-! ### Rollback (R226) -/

/-- A register put back as an entry of the log holds it, with the writes that a slot behind them must not see yet. -/
def Strand.undoEntry (x : Strand) (e : LogEntry) : Strand :=
  { x with regs := SMap.setD x.regs 0 e.reg e.base, vers := (x.vers.filter fun v => decide (v.reg ≠ e.reg)) ++ e.vers }

/-- R223, R226: the log undone, latest entry first, and then the registers that had such writes at the checkpoint, as it holds them. Any
other register that is logged and has no entry stands as at the checkpoint; those that are not logged keep their newest value. -/
def Strand.undoLog (x : Strand) (pend : List LogEntry) : Strand :=
  let flat := { x with regs := flushVers x.regs (x.vers.filter fun v => !isPortReg v.reg && !isLogged v.reg),
                       vers := x.vers.filter fun v => isLogged v.reg, flagBase := x.flagsNow.1, oarBase := x.flagsNow.2, flagEvs := [] }
  { (x.log.reverse ++ pend).foldl Strand.undoEntry flat with log := [] }

/-- R226: what remains of the landing buffer: requests made after the checkpoint are gone, the others count as it says. -/
def rollLands (n step : Nat) (c : Checkpoint) (ls : List Land) : List Land :=
  ls.filterMap fun a =>
    if a.strand ≠ n then some a
    else if c.step < a.trig then none
    else match c.lands.find? fun p => decide (p.1 = a.lid) with
      | some p => some { a with due := step + p.2, frozen := none }
      | none => none

/-- R226: the strand and the core put back at the checkpoint, at a step that stands for the one after it. -/
def State.rollback (s : State) (t n step : Nat) : State :=
  match (s.strand t n).ckpt with
  | none => s
  | some c =>
    (s.modStrand t n fun x =>
      let y := x.undoLog c.pend
      { y with stream := c.stream, vers := y.vers ++ c.portVers, stores := x.stores.filter fun g => g.done && decide (g.level = 0),
               orders := [], lastWaitk := [], alarmBy := none, afterYield := false, timeoutAt := [] }).modCore t fun co =>
      { co with latches := c.latches, ports := c.ports, lands := rollLands n step c co.lands
                pipe := c.pipe.map fun f => { f with due := step + f.due } }

/-! ### Taking a cause (R215-R217) -/

/-- A sequence number above every one that the interrupted slots, their results and their landings know. -/
def handlerSeq (co : Core) (n : Nat) (x : Strand) : Nat :=
  let a := max x.stream.fetchSeq (x.stream.slotSeq.foldl max 0)
  let b := max a (topSeq x.vers)
  let d := max b (x.flagEvs.foldl (fun m e => max m e.vis) 0)
  let e := max d (co.pipe.foldl (fun m f => max m f.vis) 0)
  max e ((co.lands.filter fun a => decide (a.strand = n)).foldl (fun m a => max m a.vis) 0) + 1

def handlerStream (q idx : Nat) : Stream :=
  ⟨List.replicate 8 q, [], q, List.replicate 8 idx, q, false, none, none, .off, .off, false⟩

/-- R217: what an earlier entry set aside, with other operand ports. -/
def Aside.withPorts (a : Aside) (ports : SMap Wide) : Aside := { a with ports := ports, vers := a.vers.filter fun v => !isPortReg v.reg }

/-- R215, R217: everything but the frame: results, landings and ports set aside, in place of those of an earlier entry, `DEPTH` raised, the vector next. -/
def State.enterHandler (s : State) (t n vector : Nat) : State :=
  let co := s.core t
  let x := s.strand t n
  let q := handlerSeq co n x
  let aside : Aside := ⟨co.ports, x.stream, x.regs, x.vers, x.flagEvs, x.flagBase, x.oarBase, orderFlights co.pipe, x.orders,
    x.alarmBy, x.depth, slotWords co x.stream⟩
  (s.modStrand t n fun x =>
    { x with st := .trapped, depth := x.depth + 1, stream := handlerStream q vector
             asides := aside :: (x.asides.filter fun a => decide (a.level < x.depth)).map fun a => a.withPorts (flushVers co.ports (x.vers.filter fun v => isPortReg v.reg))
             regs := x.flushed, vers := [], flagBase := x.flagsNow.1, oarBase := x.flagsNow.2, flagEvs := []
             orders := [], lastWaitk := [], alarmBy := none, timeoutAt := [] }).modCore t fun co =>
    { co with pipe := [], ports := [], poolTill := 0, gather := none, trapNow := true
              lands := co.lands.map fun a =>
                if a.strand = n ∧ a.level = x.depth ∧ a.frozen.isNone then { a with frozen := some (a.due - co.stepc) } else a }

/-- The trap vector of the tile's kernel, if it has one (R112). -/
def Tile.trapVector (y : Tile) : Option Nat := y.kernel.bind fun k => if k.2.tv then some k.2.trapv else none

/-- R186, R217: a cause that ends the run: its results are gone and the special-function pool is released. -/
def State.endTaken (s : State) (t n code : Nat) : State :=
  (s.modStrand t n fun x => { x.endFaulted code with endIds := s.ids }).modCore t fun co => { co with pipe := [], poolTill := 0, gather := none, trapNow := true }

/-- R215: a cause taken at this step: its frame, then the handler, or the end of the run. A back edge whose counter is still to be written stays
due, and acts after `rft`. [Assumption 13: DEDUCED.] [Assumption 16: DEDUCED.] -/
def State.takeCause (s : State) (t n : Nat) (r : CauseRec) (pend : List CauseRec) : State :=
  let s := s.modStrand t n fun x => if x.stream.wants && x.edgeDueReady (s.core t) then x.settle t n (s.core t).stepc else x
  let x := s.strand t n
  let s := s.setMem (memWrite s.mem (tileBase t + frameAddr n) (frameBytes s.tick (s.core t) n x r pend))
  let s := s.modStrand t n fun x =>
    { x with causes := x.causes.filter fun d => !(x.takeable.any fun e => decide (e.cause = d.cause)),
             rolled := none, alarm := if r.cause = 6 then 0 else x.alarm }
  let s := s.modStrand t n fun y => y.setPend x.depth pend
  match (s.tile t).trapVector with
  | some v => if 4 ≤ x.depth then s.endTaken t n r.cause else s.enterHandler t n v
  | none => s.endTaken t n r.cause

/-- TRAP_ENTRY (R106, R195, R215, R226): the issuing strand takes a cause before any slot issues. -/
def execTrapEntry (s : State) : Host.Outcome State Fault Refusal :=
  let t := s.ev.tile
  match (s.core t).issuing with
  | none => .next s
  | some n =>
    let x := s.strand t n
    match x.nextCause with
    | none => .next s
    | some (r, pend) =>
      let s := if r.cause = 8 ∧ x.depth = 0 ∧ x.rolled.isNone then s.rollback t n (s.core t).stepc else s
      .next ((s.takeCause t n r pend).tally t 19 1)

/-! ### Checkpoints (R222, R225) -/

/-- R70: the logged registers with writes that a slot behind them must not see yet. -/
def Strand.pendingRegs (x : Strand) : List LogEntry :=
  (((x.vers.filter fun v => isLogged v.reg).map Ver.reg).eraseDups).map fun r => ⟨r, SMap.get x.regs 0 r, x.vers.filter fun v => decide (v.reg = r)⟩

/-- R222: the checkpoint that a commit at the end of the step before leaves: what a frame for a trap now would hold. The log is empty with
it, so that a result due at this step, which belongs to the checkpoint, takes no entry. -/
def State.checkpoint (s : State) (t n index : Nat) : State :=
  let co := s.core t
  s.modStrand t n fun x =>
    { x with log := [], ckpt := some ⟨x.stream, co.pipe.map fun f => { f with due := f.due - co.stepc }, co.latches, co.ports,
        x.vers.filter (fun v => isPortReg v.reg), x.pendingRegs, (liveLands co n x).map fun a => (a.lid, a.due - co.stepc), index, co.stepc - 1⟩ }

/-- R222: the commit of a mark, at the end of its step; a handler commits nothing. -/
def State.commit (s : State) (t n index : Nat) : State :=
  if (s.strand t n).depth = 0 then
    (s.commitStores t n).modCore t fun co => { co with ckptReq := some (n, index) }
  else s

/-- IMPLICIT_MARK (R224): with every slot stalled and one of them on a full buffer or log, a mark at slot 0's next bundle. -/
def execImplicitMark (s : State) : Host.Outcome State Fault Refusal :=
  let t := s.ev.tile
  let co := s.core t
  match co.issuing with
  | none => .next s
  | some n =>
    let x := s.strand t n
    if co.issued.isEmpty && co.fullLog && !openOutstanding co n x then
      .next (s.modCore t fun co => { co with markReq := some (x.stream.nextIdx 0) })
    else .next s

/-! ### The return (R107, R218, R219) -/

/-- R107: whether a frame is malformed. [Assumption 19: DEDUCED.] -/
def frameBad (f : List Byte) : Bool :=
  let tc := frameField f 0x050 8
  let nd := bitsAt tc 0 6; let ns := bitsAt tc 8 6; let nw := bitsAt tc 16 5; let nl := bitsAt tc 24 7
  decide (maxDescriptors < nd) || decide (maxScalars < ns) || decide (maxWides < nw) || decide (maxLandings < nl)
    || (List.range nd).any fun i =>
      let d := frameField f (0x480 + 4 * i) 4
      match maxLatency (d % 16) with
      | none => true
      | some m => decide (bitsAt d 8 5 = 0) || decide (m < bitsAt d 8 5)
          || decide ((if d.testBit 13 then nw else ns) ≤ bitsAt d 16 5)

/-- R107, R177, R219: the k-th result of a frame put back, due after its remaining steps and of its unit's width (R54, R85); what the core
kept at the same index, where its unit is the same, gives its flags (none otherwise) and, unless the frame's sequence numbers have moved, its place in the interlocks. [Assumption 14: DEDUCED.] [Assumption 19: DEDUCED.] -/
def frameFlight (f : List Byte) (r tseq : Nat) (moved : Bool) (kept : Option InFlight) (k : Nat) : InFlight :=
  let d := frameField f (0x480 + 4 * k) 4
  let unit := d % 16
  let w := d.testBit 4
  let rem := bitsAt d 8 5
  let v : Wide := if d.testBit 13 then BitVec.ofNat 1024 (frameField f (0x640 + 128 * bitsAt d 16 5) 128)
    else BitVec.ofNat 1024 (frameField f (0x540 + 8 * bitsAt d 16 5) 8)
  let v := if wideUnit unit then v else narrow64 v
  match kept with
  | some g =>
    if g.unit = unit then
      if moved then ⟨unit, v, w, r + 1 + rem, tseq, g.slot, tseq + rem, g.flags, g.oar⟩ else { g with val := v, w := w, due := r + 1 + rem }
    else ⟨unit, v, w, r + 1 + rem, tseq, 0, tseq + rem, 0, 0⟩
  | none => ⟨unit, v, w, r + 1 + rem, tseq, 0, tseq + rem, 0, 0⟩

/-- R107, R219, R220: the frozen landing entries of a level as the frame lets them go on. [Assumption 19: DEDUCED.] -/
def thawLands (f : List Byte) (n level r : Nat) (nl : Nat) : Nat → List Land → List Land
  | _, [] => []
  | k, a :: rest =>
    if a.strand = n ∧ a.level = level ∧ a.frozen.isSome then
      let d := frameField f (0x380 + 4 * k) 4
      if k < nl ∧ d.testBit 18 then
        { a with frozen := none, due := r + 1 + bitsAt d 4 12, reg := d % 16, late := d.testBit 17 } :: thawLands f n level r nl (k + 1) rest
      else thawLands f n level r nl (k + 1) rest
    else a :: thawLands f n level r nl k rest

def frameLoop (f : List Byte) (at0 order : Nat) : HwLoop :=
  let w := frameField f at0 8
  if w.testBit 24 then ⟨true, bitsAt w 0 12, bitsAt w 12 12, order⟩ else .off

/-- R218: the stream of an edited frame: slot k at its own index, each fetching onward from there. [Assumption 14: DEDUCED.] [Assumption 19: DEDUCED.] -/
def editedStream (f : List Byte) (o0 o1 : Nat) : Stream :=
  let tseq := frameField f 0x018 8
  let word (k : Nat) := frameField f (0x020 + 4 * k) 4
  let seqs := (List.range 8).map fun k => tseq + bitsAt (word k) 16 5
  let low := seqs.foldl min (seqs.headD 0)
  let idx := (List.range 8).map fun k => (bitsAt (word k) 0 12 + 4096 * 8 + low - seqs.getD k 0) % 4096
  ⟨seqs, [], low, idx, seqs.headD 0, false, none, none, frameLoop f 0x040 o0, frameLoop f 0x048 o1, false⟩

/-- `TSEQ` and the `TSLOT` words of a frame. [Assumption 19: DEDUCED.] -/
def frameSig (f : List Byte) : List Nat := frameField f 0x018 8 :: (List.range 8).map fun k => frameField f (0x020 + 4 * k) 4

/-- The registers that a handler has changed. -/
def Strand.changedSince (x : Strand) (a : Aside) : List Nat :=
  let old := flushVers a.regs (a.vers.filter fun v => !isPortReg v.reg)
  let new := x.flushed
  ((old.map Prod.fst) ++ (new.map Prod.fst)).filter fun r => decide (SMap.get old 0 r ≠ SMap.get new 0 r)

/-- R216: the interrupted code's registers with what the handler changed standing over them. -/
def Strand.mergeBank (x : Strand) (a : Aside) : SMap Wide × List Ver :=
  let new := x.flushed
  (x.changedSince a).foldl (fun (acc : SMap Wide × List Ver) r =>
    (SMap.setD acc.1 0 r (SMap.get new 0 r), acc.2.filter fun v => decide (v.reg ≠ r))) (a.regs, a.vers)

/-- R218: the loops of a frame: as they stood when the frame still says so. -/
def restoreLoops (f : List Byte) (st : Stream) : Stream :=
  let keep (l : HwLoop) (at0 order : Nat) : HwLoop :=
    let g := frameLoop f at0 order
    if g.active = l.active ∧ (!g.active ∨ (g.first = l.first ∧ g.last = l.last)) then l else g
  { st with loop0 := keep st.loop0 0x040 1, loop1 := keep st.loop1 0x048 2 }

/-- What the core set aside at the entry of the present handler level. -/
def Strand.asideHere (x : Strand) : Option Aside := x.asides.find? fun a => decide (a.level + 1 = x.depth)

/-- Whether a handler has given a frame another base of sequence numbers. -/
def Aside.moved (a : Aside) (f : List Byte) : Bool := decide (a.sig.head? ≠ (frameSig f).head?)

/-- R226: the checkpoint once a handler returns: a register that it has changed keeps its value, unless the log covers it. -/
def Strand.ckptBack (x : Strand) : Option Checkpoint :=
  let changed := (x.asideHere.map x.changedSince).getD []
  x.ckpt.map fun c => { c with pend := c.pend.filter fun e => !changed.contains e.reg }

/-- R73: the stores that stand when a handler returns: those of the levels below, and of these the performed ones only while the frame's
sequence numbers have their old base. -/
def Strand.storesBack (x : Strand) (moved : Bool) : List GStore :=
  x.stores.filter fun g => decide (g.level < x.depth) && (!moved || !g.done)

/-- R107, R218: the strand as the frame restores it. A frame whose slots have been edited resumes by them; while its sequence numbers have
their old base, what was written for some of them keeps its place. -/
def Strand.restore (x : Strand) (f : List Byte) : Strand :=
  let stay := { x with depth := x.depth - 1, orders := [], lastWaitk := [], alarmBy := none, timeoutAt := [],
                       stores := x.storesBack ((x.asideHere.map fun (a : Aside) => a.moved f).getD true), ckpt := x.ckptBack
                       asides := x.asides.filter fun a => decide (a.level + 1 < x.depth) }
  let flat := { stay with stream := editedStream f 1 2, regs := x.flushed, vers := [], flagBase := x.flagsNow.1, oarBase := x.flagsNow.2, flagEvs := [] }
  match x.asideHere with
  | some a =>
    if a.moved f then { flat with orders := a.orders }
    else
      let bank := x.mergeBank a
      let same := decide (x.flagsNow = a.flagEvs.foldl (fun g e => e.apply g) (a.flagBase, a.oarBase))
      { stay with stream := if a.sig = frameSig f then restoreLoops f a.stream else editedStream f 1 2
                  regs := bank.1, vers := bank.2, orders := a.orders, alarmBy := a.alarmBy
                  flagBase := if same then a.flagBase else x.flagsNow.1
                  oarBase := if same then a.oarBase else x.flagsNow.2
                  flagEvs := if same then a.flagEvs else [] }
  | none => flat

/-- R217, R218: the operand ports that come back at `rft`. -/
def Strand.portsBack (x : Strand) (f : List Byte) : SMap Wide :=
  match x.asideHere with
  | some a => if a.moved f then flushVers a.ports (a.vers.filter fun v => isPortReg v.reg) else a.ports
  | none => []

/-- R107: the latches of a frame. -/
def frameLatches (f : List Byte) : SMap Wide :=
  (List.range 16).foldl (fun m u =>
    SMap.setD m 0 u (match wideLatches.findIdx? fun d => d == u with
      | some j => BitVec.ofNat 1024 (frameField f (0x100 + 128 * j) 128)
      | none => BitVec.ofNat 1024 (frameField f (0x080 + 8 * u) 8))) []

/-- R107: the causes that a frame's pending bits name, with what the core kept of each. [Assumption 16: DEDUCED.] -/
def pendCauses (kept : List CauseRec) (mask : Nat) : List CauseRec :=
  ((List.range 18).filter fun c => mask.testBit c).map fun c =>
    (kept.find? fun r => decide (r.cause = c)).getD ⟨c, 0, 0, 0⟩

/-- R108, R216: what a handler has asked for and has not yet come when it returns counts as made before the bundles that resume: its requests
and cross-die writes go on at the level returned to. -/
def State.returnAccesses (s : State) (t n level : Nat) : State :=
  { s with
    reqs := s.reqs.map fun p => (p.1, if p.2.tile = t ∧ p.2.strand = n ∧ p.2.level = level then { p.2 with level := level - 1, seq := 0 } else p.2)
    bursts := s.bursts.map fun p => (p.1, if p.2.tile = t ∧ p.2.strand = n ∧ p.2.level = level then { p.2 with level := level - 1 } else p.2) }

/-- R107, R218, R219: `rft` at step r with a sound frame. [Assumption 19: DEDUCED.] -/
def State.returnFrom (s : State) (t n : Nat) (f : List Byte) : State :=
  let co := s.core t
  let r := co.stepc
  let x := s.strand t n
  let pend := frameField f 0x000 8 / 2 ^ 32
  let kept := pendCauses (x.pendAt (x.depth - 1)) (bitsAt pend 0 18)
  let tc := frameField f 0x050 8
  let tseq := frameField f 0x018 8
  let keptPipe := (x.asideHere.map Aside.pipe).getD []
  let moved := (x.asideHere.map fun a => a.moved f).getD true
  let fl := (List.range (bitsAt tc 0 6)).map fun k => frameFlight f r tseq moved keptPipe[k]? k
  let ports := x.portsBack f
  let s := s.modStrand t n fun x => (x.restore f).setPend (x.depth - 1) []
  let low := (s.strand t n).stream.minSeq
  let s := (s.returnAccesses t n x.depth).modCore t fun co =>
    { co with latches := frameLatches f, ports := ports, pipe := (co.pipe.map fun g => { g with vis := min g.vis low, seq := min g.seq low }) ++ fl
              lands := thawLands f n (x.depth - 1) r (bitsAt tc 24 7) 0 (co.lands.map fun a =>
                if a.strand = n ∧ a.level = x.depth then { a with level := x.depth - 1, vis := min a.vis low } else a) }
  if pend.testBit 8 then
    if (frameField f 0x058 8).testBit 31 then
      (s.rollback t n (r + 1)).modStrand t n fun x =>
        { x.setPend x.depth (kept.filter fun d => decide (d.cause ≠ 8)) with rolled := kept.find? fun d => decide (d.cause = 8) }
    else s.endTaken t n 8
  else s.modStrand t n fun x => { x with causes := kept.foldl (fun cs d => if cs.any fun e => decide (e.cause = d.cause) then cs else cs ++ [d]) x.causes }

/-- R382: the barrier wait of the present handler level. -/
def Strand.waitHere (x : Strand) : Option BarWait := x.barWaits.find? fun w => decide (w.level = x.depth)

/-- R377: the outcome of an ended barrier wait of the present handler level reaches its register. -/
def Strand.landBarrier (x : Strand) (step : Nat) : Strand :=
  match x.waitHere with
  | some w => match w.out with
    | some v =>
      { x with barWaits := x.barWaits.filter fun u => u.level ≠ x.depth
               vers := if w.timed then x.vers ++ [⟨codeW w.reg, w.seq + 1, w.seq, w.slot + 1, step - 1, widen v⟩] else x.vers }
    | none => x
  | none => x

/-- R382: after a return, a wait of the level returned to is taken up again, or its outcome lands. [Assumption 20: DEDUCED.] [Assumption 49: DEDUCED.] -/
def State.resumeWait (s : State) (t n : Nat) : State :=
  s.modStrand t n fun x =>
    let x := x.landBarrier (s.core t).stepc
    match x.waitHere with
    | some w => { x with afterYield := true, wake := .barrier w.timed }
    | none => x

/-- R107, R218, R222, R382 `rft`: a mark of the handler that stands in the same bundle commits nothing. [Assumption 18: DEDUCED.] [Assumption 20: DEDUCED.] -/
def execRft (t : Trig) (s : State) : Host.Outcome State Fault Refusal :=
  s.trigger 1 {} t fun c _ s =>
    let x := s.strand c.tile c.strand
    let here := BitVec.ofNat 64 (x.stream.idxOf c.seq c.slot)
    let f := memRead s.mem (tileBase c.tile + frameAddr c.strand) 4096
    if x.depth = 0 then some (.error (s.raiseHere c 0 here 2))
    else if frameBad f then some (.error (s.raiseHere c 0 here 1))
    else some (.error (((s.returnFrom c.tile c.strand f).resumeWait c.tile c.strand).modCore c.tile fun co => { co with issued := c.slot :: co.issued, markReq := none }))

end Sys2Proof.Machine
end

