-- ==== Sys2Proof/Machine/StrandEv.lean ====
section
/-! DEFINITION. The events of a core's step: results (R53, R68), landings and their lateness (R75-R78, R201, R220), the alarm (R221), waking
(R194, R195, R200) and the choice of a strand (R67, R152). -/

namespace Sys2Proof.Machine

/-! ### Results -/

/-- The result that emerges next at this step: by due step, then in the order of the triggers. -/
def dueFlight (co : Core) : Option InFlight :=
  (co.pipe.filter fun f => decide (f.due ≤ co.stepc)).foldl (fun best f =>
    match best with
    | none => some f
    | some b => if f.due < b.due ∨ (f.due = b.due ∧ (f.seq < b.seq ∨ (f.seq = b.seq ∧ f.slot < b.slot))) then some f else some b) none

/-- R53, R68: a result reaches its latch, unless W its `l` register, and sets its flags. -/
def State.emerge (s : State) (t n : Nat) (f : InFlight) : State :=
  let co := s.core t
  let c : Issuer := ⟨t, n, f.slot, f.seq, co.stepc - 1⟩
  (s.modStrand t n fun x =>
    (if f.w then x else x.write c (codeL f.unit) f.vis f.val).addFlags c f.vis f.flags 0 f.oar).modCore t fun co =>
    { co with pipe := co.pipe.erase f, latches := SMap.setD co.latches 0 f.unit f.val }

/-- RESULT_EMERGE (R68). -/
def execResultEmerge (s : State) : Host.Outcome State Fault Refusal :=
  let t := s.ev.tile
  match (s.core t).issuing, dueFlight (s.core t) with
  | some n, some f => .next (s.emerge t n f)
  | _, _ => .next s

/-! ### Landings -/

/-- R201: whether the entry's strand sleeps in `waitl` on its register. -/
def waitlNames (x : Strand) (a : Land) : Bool :=
  match x.st, x.wake with
  | .sleeping, .lands m => m.getLsbD a.reg && decide (a.level = x.depth)
  | _, _ => false

def Land.before (a b : Land) : Bool :=
  decide (a.due < b.due) || (decide (a.due = b.due) && (decide (a.seq < b.seq) || (decide (a.seq = b.seq) && decide (a.slot < b.slot))))

/-- Whether an entry is to land at this step if its data is here (R76, R201, R220), and nothing due earlier at its register stands
before it (R77). -/
def State.landable (s : State) (t : Nat) (a : Land) : Bool :=
  let co := s.core t
  a.frozen.isNone && (decide (a.due ≤ co.stepc) || a.late || waitlNames (s.strand t a.strand) a)
    && !(co.lands.any fun b => b.frozen.isNone && decide (b.strand = a.strand) && decide (b.reg = a.reg) && b.before a)

/-- The first entry in order that a test marks. -/
def firstLand (ls : List Land) (test : Land → Bool) : Option Land :=
  ls.foldl (fun best a =>
    if test a then
      match best with
      | none => some a
      | some b => if a.before b then some a else some b
    else best) none

/-- The entry that lands next at this step. -/
def State.landNow (s : State) (t : Nat) : Option Land := firstLand (s.core t).lands fun a => a.data.isSome && s.landable t a

/-- R76: the due entry whose data has not come, which freezes the core. [Assumption 63: DEDUCED.] -/
def State.landLate (s : State) (t : Nat) : Option Land :=
  let co := s.core t
  firstLand co.lands fun a => a.data.isNone && a.frozen.isNone && !a.late && decide (a.due ≤ co.stepc)
    && !waitlNames (s.strand t a.strand) a

/-- R194: whether what a strand sleeps for has come. -/
def State.awake (s : State) (t n : Nat) : Bool :=
  let x := s.strand t n
  match x.wake with
  | .none => true
  | .tick w => decide (w.toNat ≤ s.tick)
  | .lands m => !((liveLands (s.core t) n x).any fun a => m.getLsbD a.reg)
  | .barrier _ => x.waitHere.isNone

/-- R194, R195: a sleeping strand becomes YIELDED when what it waits for has come. [Assumption 20: DEDUCED.] -/
def State.tryWake (s : State) (t n : Nat) : State :=
  let x := s.strand t n
  if x.st = .sleeping ∧ s.awake t n then s.modStrand t n fun x => { x with st := .yielded, wake := .none } else s

/-- The value an entry writes, as a version of its landing register (R76, R201: a masked entry that lands early counts for every
bundle after the `waitl`, and one that so lands later stands over those before it, R77). -/
def Strand.land (x : Strand) (step : Nat) (a : Land) (v : Wide) : Strand :=
  let vis := if waitlNames x a then min a.vis (x.stream.slotSeq.foldl max 0) else a.vis
  let under (u : Ver) : Bool := decide (vis < a.vis) && decide (u.reg = codeW a.reg) && decide (u.vis = vis)
  let x := { x with vers := x.vers.filter (fun u => !under u) ++ [⟨codeW a.reg, vis, a.seq, a.slot + 1, step - 1, v⟩], timeoutAt := x.timeoutAt.filter fun p => decide (p.1 ≠ a.lid) }
  if a.fills ∧ v.toNat % 256 = 2 then x.addFlags ⟨0, 0, a.slot, a.seq, step - 1⟩ vis flagDBL 0 0 else x

/-- R327, R328: a promise that lands a finite tick arms its key's watch. -/
def State.armWatch (s : State) (t : Nat) (a : Land) : State :=
  let p := (a.data.getD 0).toNat
  match a.key with
  | none => s
  | some k =>
    if p = 0 ∨ p = 2 ^ 64 - 1 then s
    else (s.modStrand t a.strand fun x => { x with keys := x.keys.modify k fun y => { y with watch := some p } }).atTick (max p s.tick) (2 ^ 30) .promiseWatchExpiry
      { Operand.zero with tile := t, strand := a.strand, node := k, word := BitVec.ofNat 64 p }

/-- LANDING (R76, R77, R201): the next due entry lands, or the core freezes for a late one. A freeze goes on, with its count, while some due
entry is still awaited. -/
def execLanding (s : State) : Host.Outcome State Fault Refusal :=
  let t := s.ev.tile
  match s.landNow t with
  | some a =>
    let s := s.modStrand t a.strand fun x => x.land (s.core t).stepc a (a.data.getD 0)
    let s := s.armWatch t a
    let s := s.modCore t fun co => { co with lands := co.lands.filter fun b => decide (b.lid ≠ a.lid) }
    .next ((s.modCore t fun co => { co with frozenAt := if (s.landLate t).isSome then co.frozenAt else none }).tryWake t a.strand)
  | none =>
    match s.landLate t with
    | some _ => .next (s.modCore t fun co => { co with frozenAt := some (co.frozenAt.getD s.tick) })
    | none => .next s

/-- Data for an entry of the landing buffer; an entry that is gone drops it (R107, R226). -/
def State.landData (s : State) (t lid : Nat) (v : Wide) : State :=
  s.modCore t fun co => { co with lands := co.lands.map fun a => if a.lid = lid ∧ a.data.isNone then { a with data := some v } else a }

/-- R105 cause 10, R220: the entry is marked LATE and its strand takes the timeout; a sleeping strand wakes. -/
def State.landTimeout (s : State) (t lid : Nat) : State :=
  match (s.core t).lands.find? fun a => decide (a.lid = lid) with
  | none => s
  | some a =>
    let info : W64 := BitVec.ofNat 64 (a.due % 2 ^ 60 * 16 + a.reg)
    ((s.modCore t fun co => { co with
        frozenAt := none
        lands := co.lands.map fun b => if b.lid = lid then { b with late := true, lateAt := s.tick } else b }).raise t a.strand ⟨10, info, 0, 0⟩).modStrand
      t a.strand fun x => { x with
        st := if x.st = .sleeping then .yielded else x.st
        wake := if x.st = .sleeping then .none else x.wake
        timeoutAt := x.timeoutAt.filter fun p => decide (p.1 ≠ lid) }

/-- The ticks after which a wait for a landing is a timeout (R76, R220). -/
def landLimit : Nat := 4096

/-- R76, R201, R220: the entry that has waited too long: it freezes the core, its strand sleeps on it in `waitl`, or a slot stalls on
a LATE one. [Assumption 63: DEDUCED.] -/
def State.landExpired (s : State) (t : Nat) : Option Land :=
  let co := s.core t
  firstLand co.lands fun a =>
    a.data.isNone && a.frozen.isNone &&
      (if a.late then (s.strand t a.strand).timeoutAt.any fun p => decide (p.1 = a.lid) && decide (p.2 + landLimit < s.tick)
       else if waitlNames (s.strand t a.strand) a then decide (a.lateAt ≠ 0) && decide (a.lateAt + landLimit < s.tick)
       else (match co.frozenAt with | some f => decide (a.due ≤ co.stepc) && decide (f + landLimit < s.tick) | none => false))

/-- LANDING_TIMEOUT (R76, R220). [Assumption 63: DEDUCED.] -/
def execLandingTimeout (s : State) : Host.Outcome State Fault Refusal :=
  match s.landExpired s.ev.tile with
  | some a => if a.lid = s.ev.id then .next ((s.landTimeout s.ev.tile a.lid).tally s.ev.tile 21 1) else .next s
  | none => .next s

/-! ### The alarm and sleep -/

/-- R195: a cause that arises for a strand: a sleeping one wakes, unless the cause is masked. -/
def State.raiseAsync (s : State) (t n : Nat) (r : CauseRec) : State :=
  (s.raise t n r).modStrand t n fun x =>
    if x.st = .sleeping ∧ !x.takeable.isEmpty then { x with st := .yielded, wake := .none } else x

/-- R221: an armed alarm whose deadline has come and whose cause has not been raised. -/
def State.alarmDue (s : State) (t n : Nat) : Bool :=
  let x := s.strand t n
  decide (x.alarm ≠ 0) && decide (x.alarm.toNat ≤ s.tick) && decide (x.st ≠ .free) && decide (x.st ≠ .suspended)
    && !(x.causes.any fun r => decide (r.cause = 6)) && !(x.pendInfo.any fun p => decide (p.2.cause = 6))

/-- ALARM_EXPIRY (R221): cause 6 with the deadline. -/
def execAlarmExpiry (s : State) : Host.Outcome State Fault Refusal :=
  let t := s.ev.tile; let n := s.ev.strand
  if s.alarmDue t n then .next (s.raiseAsync t n ⟨6, (s.strand t n).alarm, 0, 0⟩) else .next s

/-- R200: a strand whose wake tick has come. -/
def State.sleepDue (s : State) (t n : Nat) : Bool :=
  let x := s.strand t n
  decide (x.st = .sleeping) && (match x.wake with | .tick w => decide (w.toNat ≤ s.tick) | _ => false)

/-- SLEEP_WAKE (R200). -/
def execSleepWake (s : State) : Host.Outcome State Fault Refusal :=
  if s.sleepDue s.ev.tile s.ev.strand then .next (s.tryWake s.ev.tile s.ev.strand) else .next s

/-! ### The choice of a strand -/

/-- R152: the next ready strand after the one that issued last, that strand itself last of all. -/
def Tile.readyStrand (y : Tile) : Option Nat :=
  ((List.range 8).map fun i => (y.core.lastIss + 1 + i) % 8).find? fun n =>
    let x := y.strand n
    decide (x.st = .resident) || decide (x.st = .yielded)

/-- R67, R190: latches, operand ports and transposer cleared at a switch. [Assumption 17: DEDUCED.] -/
def Core.switched (co : Core) (n : Nat) : Core :=
  { co with latches := [], ports := [], trn := Trn.reset, issuing := some n, lastIss := n, stalled := [], issued := []
            gather := none, busySlot := [], poolTill := 0 }

/-- STRAND_SWITCH (R67, R152, R194). [Assumption 17: DEDUCED.] -/
def execStrandSwitch (s : State) : Host.Outcome State Fault Refusal :=
  let t := s.ev.tile
  match (s.core t).issuing, (s.tile t).readyStrand with
  | none, some n =>
    .next ((s.modStrand t n fun x => { x with st := .issuing, vers := x.vers.filter fun v => !isPortReg v.reg }).modCore t fun co => co.switched n)
  | _, _ => .next s

end Sys2Proof.Machine
end

