-- ==== Sys2Proof/Machine/Page.lean ====
section
/-! DEFINITION. Translation (R403-R412), discard, reclaim and migration (R414-R416), and the report of a page fault (R106, R165, R217). -/

namespace Sys2Proof.Machine

/-! ### Regions (R5, R388) -/

def clusterAt (cx cy : Nat) : Nat := (cy / 2 * 4 + cx / 2) * 4 + cy % 2 * 2 + cx % 2
def clusterCol (t : Nat) : Nat := tileGx t / 16
def clusterRow (t : Nat) : Nat := tileGy t / 16

def Region.holds (r : Region) (t : Nat) : Bool :=
  decide (r.ox ≤ clusterCol t) && decide (clusterCol t < r.ox + r.w) && decide (r.oy ≤ clusterRow t) && decide (clusterRow t < r.oy + r.h)

/-- The dies that hold a cluster of a region, in ascending number. -/
def Region.dies (r : Region) : List Nat :=
  (List.range 8).filter fun d => (List.range 4).any fun k => r.holds (d * 1024 + k / 2 * 512 + k % 2 * 16)

/-- The clusters of a region in ascending module cluster number. -/
def Region.clusters (r : Region) : List Nat :=
  (List.range 32).filter fun k => r.holds (k / 4 * 1024 + k / 2 % 2 * 512 + k % 2 * 16)

/-- The tiles of a region in ascending identifier. -/
def Region.tiles (r : Region) : List Nat :=
  r.dies.flatMap fun d => ((List.range 1024).map (· + d * 1024)).filter fun t => r.holds t

/-- R136, R388: a context's home die. -/
def Ctx.home (c : Ctx) : Nat := ((c.region.map Region.dies).getD []).headD 0
def Ctx.dies (c : Ctx) : List Nat := (c.region.map Region.dies).getD []
def Ctx.tiles (c : Ctx) : List Nat := (c.region.map Region.tiles).getD []
def Ctx.holds (c : Ctx) (t : Nat) : Bool := (c.region.map fun r => r.holds t).getD false

/-- R386, R401: the context in whose region a tile lies, which tags what its engines exchange; 0 for none. -/
def State.ctxOn (s : State) (t : Nat) : Nat := ((s.ctxs.find? fun p => p.2.holds t).map Prod.fst).getD 0

/-! ### Leaves (R403-R407) -/

def leafV (w : W64) : Bool := w.getLsbD 0
def leafR (w : W64) : Bool := w.getLsbD 1
def leafW (w : W64) : Bool := w.getLsbD 2
def leafX (w : W64) : Bool := w.getLsbD 3
def leafDS (w : W64) : Nat := (w.extractLsb' 4 2).toNat
def leafC (w : W64) : Bool := w.getLsbD 6
def leafP (w : W64) : Bool := w.getLsbD 7
def leafH (w : W64) : Bool := w.getLsbD 11
def leafFrame (w : W64) : Nat := (w.extractLsb' 16 32).toNat
def leafCidp (w : W64) : Nat := (w.extractLsb' 48 8).toNat
def leafMig (w : W64) : Nat := (w.extractLsb' 56 3).toNat

/-- R403: index bits and leaf size of a level. -/
def levelShift (level : Nat) : Nat := 43 - 9 * level
def levelSize (level : Nat) : Nat := 2 ^ levelShift level

/-- R407: whether a frame may stand in a leaf of this size. -/
def frameOk (frame size : Nat) : Bool :=
  match physKind (frame * 2 ^ 16) with
  | .hbm _ => isUsableHbm (frame * 2 ^ 16 + size - 1)
  | .window _ _ => decide (size = 2 ^ 16)
  | .sync _ off => decide (size = 2 ^ 16) && !syncReserved off
  | .host => true
  | _ => false

/-- R406: a leaf with V 1 that is malformed at its level. -/
def leafMalformed (level : Nat) (w : W64) : Bool :=
  let pa := leafFrame w * 2 ^ 16
  decide (level = 0) || decide (w.extractLsb' 59 5 ≠ 0) || decide (1 < leafMig w ∧ leafMig w ≠ 2) || decide (leafDS w = 3)
    || decide (w.extractLsb' 12 4 ≠ 0) || decide (pa % levelSize level ≠ 0 ∧ level < 3)
    || !frameOk (leafFrame w) (levelSize level) || (leafH w != decide (hostBase ≤ pa))
    || (leafH w && (leafP w || decide (leafDS w ≠ 0)))
    || (leafP w && !(decide (homeDie pa = 0) && isUsableHbm pa))
    || (decide (leafDS w ≠ 0) && !isUsableHbm pa)

/-- R404, R406: a table entry with V 1 that is malformed. -/
def tableMalformed (level : Nat) (w : W64) : Bool :=
  decide (level = 3) || decide (w.extractLsb' 48 16 ≠ 0) || decide (w.extractLsb' 9 3 ≠ 0) || decide (w.extractLsb' 1 7 ≠ 0)
    || !isUsableHbm ((w.extractLsb' 12 36).toNat * 2 ^ 12)

/-- R403: a walk from a table: the leaf entry's address, its word and its level. -/
def State.walkFrom (s : State) (va : Nat) : Nat → Nat → Nat → Option (Nat × W64 × Nat)
  | 0, _, _ => none
  | fuel + 1, level, table =>
    let a := table + 8 * (va / levelSize level % 512)
    match s.physRead a 8 with
    | none => none
    | some bs =>
      let w : W64 := BitVec.ofNat 64 (leNat bs)
      if !leafV w then none
      else if w.getLsbD 8 then (if leafMalformed level w then none else some (a, w, level))
      else if tableMalformed level w then none
      else s.walkFrom va fuel (level + 1) ((w.extractLsb' 12 36).toNat * 2 ^ 12)

/-- R403, R413: the physical address under a leaf of a level, at the copy of a die when the page is replicated. -/
def leafPa (w : W64) (level va die : Nat) : Nat :=
  leafFrame w * 2 ^ 16 + va % levelSize level + (if leafP w then die * dieSpan else 0)

def State.ctx (s : State) (n : Nat) : Ctx := SMap.get s.ctxs Ctx.none n
def State.modCtx (s : State) (n : Nat) (f : Ctx → Ctx) : State := { s with ctxs := SMap.set s.ctxs n (f (s.ctx n)) }

/-- R403: the leaf of a virtual address of a context. -/
def State.pageWalk (s : State) (ctx va : Nat) : Option (Nat × W64 × Nat) :=
  if 2 ^ 52 ≤ va then none else s.walkFrom va 4 0 (s.ctx ctx).root

/-! ### What an access does with a leaf (R409) -/

/-- The kinds of access that translate. [Assumption 24: DEDUCED.] -/
inductive Access where
  | read | write | both | code
deriving DecidableEq, Repr

def Access.writes : Access → Bool
  | .write | .both => true
  | .read | .code => false

inductive LeafCheck where
  | ok | zeros | held | revive | refused | fault (kind : Nat)
deriving DecidableEq, Repr

/-- R409, R411, R412: the first line that applies; `cid` is the identity of a PORT walk, which every page that it touches must let through (R270):
a read of a page that moves, is discarded or is being reclaimed asks for it too. [Assumption 24: DEDUCED.] -/
def checkLeaf (w : W64) (acc : Access) (cid : Option Nat) : LeafCheck :=
  let permitted := match acc with
    | .read => leafR w | .write => leafW w | .both => leafR w && leafW w | .code => leafX w
  let let_ := match cid with | some c => decide (leafCidp w = 0) || (decide (c ≠ 0) && decide (leafCidp w = c)) | none => true
  if !permitted then .fault 2
  else if acc.writes ∧ leafMig w ≠ 0 then .held
  else if acc.writes ∧ leafDS w = 1 then .revive
  else if acc.writes ∧ leafDS w = 2 then .fault 4
  else if !let_ then .refused
  else if leafMig w = 0 ∧ leafDS w ≠ 0 then .zeros
  else .ok

/-! ### The TLB (R408) -/

def TlbEntry.hits (e : TlbEntry) (die ctx va : Nat) : Bool :=
  decide (e.die = die) && decide (e.ctx = ctx) && decide (e.va ≤ va) && decide (va < e.va + e.size)

def State.tlbFind (s : State) (die ctx va : Nat) : Option TlbEntry := s.tlb.find? fun e => e.hits die ctx va

/-- R408: bits set in a leaf by an atomic OR at its home. -/
def State.orLeaf (s : State) (leaf : Nat) (bits : Nat) : State :=
  (s.physWrite leaf (leBytes 8 (s.physWord leaf 8 ||| bits)) false).1

/-- R403: the physical address under a leaf; a replicated page is reached at the copy of a die (R413). -/
def TlbEntry.pa (e : TlbEntry) (va copy : Nat) : Nat :=
  leafFrame e.word * 2 ^ 16 + (va - e.va) + (if leafP e.word then copy * dieSpan else 0)

/-- The page is dropped from every die's TLB (R408, R415). -/
def State.dropTlb (s : State) (leaf : Nat) : State := { s with tlb := s.tlb.filter fun e => e.leaf ≠ leaf }

/-- R467: the tile whose access a translation is for. -/
def State.asker (s : State) (waiter : Option (Instr × Operand)) (slot : Option (Nat × Nat)) : Option Nat :=
  match slot, waiter with
  | some p, _ => some p.1
  | none, some (.remoteAccessPerform, o) => (SMap.lookup s.reqs o.id).map fun r => r.tile
  | none, some (.hbmWrite, o) => some o.tile
  | none, some (_, o) => (SMap.lookup s.cmds o.id).map fun m => m.tile
  | none, none => none

/-- R24: the page walkers of a die, and the entries of its TLB. -/
def pageWalkers : Nat := 32
def tlbEntries : Nat := 65536

/-- R24, R408: an entry put into its die's TLB; a full one gives up one of its entries, any. [Assumption 56: DEDUCED.] -/
def State.tlbInsert (s : State) (e : TlbEntry) : State :=
  let mine := s.tlb.filter fun d => decide (d.die = e.die)
  if mine.length < tlbEntries then { s with tlb := e :: s.tlb }
  else
    let gone := mine[(Config.freeWord s.fresh).toNat % tlbEntries]?
    { s with tlb := e :: s.tlb.filter (fun d => some d ≠ gone), fresh := s.fresh + 1 }

/-- R24: a page walker that is free takes up the die's oldest waiting walk. -/
def State.nextWalk (s : State) (die : Nat) : State :=
  match s.walks.find? fun p => decide (p.2.die = die) && !p.2.begun with
  | some p => { s with walks := SMap.set s.walks p.1 { p.2 with begun := true } }.later 20 .pageWalkComplete (opId p.1)
  | none => s

/-- A walk begun for an event or a stalled slot; one in progress for the same page is shared, and one that finds no free walker waits for one. [Assumption 56: DEDUCED.] -/
def State.startWalk (s : State) (die ctx va : Nat) (write : Bool) (waiter : Option (Instr × Operand)) (slot : Option (Nat × Nat)) : State :=
  let join (w : PWalk) : PWalk := { w with
    waiters := w.waiters ++ waiter.toList
    slots := w.slots ++ (slot.toList.filter fun x => !w.slots.contains x)
    write := w.write || write }
  match s.walks.find? fun p => decide (p.2.die = die) && decide (p.2.ctx = ctx) && decide (p.2.va / 2 ^ 16 = va / 2 ^ 16) with
  | some p => { s with walks := SMap.set s.walks p.1 (join p.2) }
  | none =>
    let (i, s) := (s.tallyWork die (s.asker waiter slot) 29 1).newId
    let free := decide ((s.walks.filter fun p => decide (p.2.die = die) && p.2.begun).length < pageWalkers)
    let s := { s with walks := SMap.set s.walks i (join ⟨die, ctx, va, write, [], [], free⟩) }
    if free then s.later 20 .pageWalkComplete (opId i) else s

/-- Events performed again now, each told whether its walk found nothing. -/
def State.redo (s : State) (es : List (Instr × Operand)) (nothing : Bool) : State :=
  es.foldl (fun s e => s.atTick s.tick 0 e.1 { e.2 with flag := nothing }) s

/-- PAGE_WALK_COMPLETE (R408): the leaf enters the TLB with its A and D bits set, and what waited goes on; with no valid leaf, what
waited is told so. [Assumption 56: DEDUCED.] -/
def execPageWalkComplete (s : State) : Host.Outcome State Fault Refusal :=
  match SMap.lookup s.walks s.ev.id with
  | none => .next s
  | some w =>
    let s := ({ s with walks := SMap.erase s.walks s.ev.id } : State).nextWalk w.die
    match s.pageWalk w.ctx w.va with
    | some (leaf, word, level) =>
      let bits := 2 ^ 9 + (if w.write then 2 ^ 10 else 0)
      let s := s.orLeaf leaf bits
      let size := levelSize level
      .next ((s.tlbInsert ⟨w.die, w.ctx, w.va / size * size, size, leaf, word ||| BitVec.ofNat 64 bits⟩).redo w.waiters false)
    | none =>
      .next (w.slots.foldl (fun s p => s.modStrand p.1 p.2 fun x => { x with noLeaf := some w.va }) (s.redo w.waiters true))

/-! ### Revival (R415) -/

/-- The page that a leaf of a size maps, copy by copy. -/
def pageCopies (word : W64) : List Nat := if leafP word then (List.range 8).map (· * dieSpan) else [0]

/-- Whether a physical address lies in a page or in one of its copies. -/
def pageHolds (word : W64) (pa size x : Nat) : Bool := (pageCopies word).any fun d => decide (pa + d ≤ x) && decide (x < pa + d + size)

/-- R415: every line of a page and of its copies becomes a zero line. -/
def State.zeroPage (s : State) (pa size : Nat) (word : W64) : State :=
  let within (l : Nat) : Bool := (pageCopies word).any fun d => decide ((pa + d) / lineSize ≤ l) && decide (l < (pa + d + size) / lineSize)
  { s with tags := s.tags.filter fun p => !within p.1, badLines := s.badLines.filter fun l => !within l }

/-- A page job of a leaf. -/
def State.jobOf (s : State) (leaf : Nat) : Option (Nat × PageJob) := s.pageJobs.find? fun p => decide (p.2.leaf = leaf)

/-- R415: whether a page is under revival: its reads give zeros, and its writes wait. -/
def State.reviving (s : State) (leaf : Nat) : Bool :=
  match s.jobOf leaf with
  | some (_, ⟨.revive, _, _, _, _, _, _, _⟩) => true
  | _ => false

def setField (w : W64) (lo n v : Nat) : W64 :=
  BitVec.ofNat 64 (w.toNat - bitsAt w.toNat lo n * 2 ^ lo + v * 2 ^ lo)

def State.writeLeaf (s : State) (leaf : Nat) (w : W64) : State := (s.physWrite leaf (leBytes 8 w.toNat) false).1
def State.leafWord (s : State) (leaf : Nat) : W64 := BitVec.ofNat 64 (s.physWord leaf 8)

/-- R415: the compare-and-swap of DS from discarded to live; the loser finds the page as it then stands. -/
def State.reviveLeaf (s : State) (ctx va leaf size : Nat) : State :=
  let w := s.leafWord leaf
  if leafV w ∧ leafDS w = 1 then
    let (i, s) := (s.writeLeaf leaf (setField w 4 2 0)).newId
    { s with pageJobs := SMap.set s.pageJobs i ⟨.revive, ctx, va, leaf, size, 0, false, none⟩ }.later 21 .revivalDone (opId i)
  else s.dropTlb leaf

/-! ### Replicated pages (R439) -/

def State.lamportOf (s : State) (die : Nat) : Nat := SMap.get s.lamport 0 die

/-- The granules of a run of bytes: address and bytes of each part. -/
def granuleParts (pa : Nat) (bs : List Byte) : List (Nat × List Byte) :=
  if bs.isEmpty then []
  else (List.range ((pa + bs.length - 1) / 16 - pa / 16 + 1)).map fun i =>
    let lo := max pa ((pa / 16 + i) * 16)
    (lo, (bs.drop (lo - pa)).take ((pa / 16 + i + 1) * 16 - lo))

/-- R413, R439: a write that an agent of a tile has performed at its own die's copy of a replicated page takes its time, is recorded for its granules and sets
out for every other copy; with the number of its propagation. -/
def State.spreadWrite (s : State) (tile : Nat) (w : Writer) (ctx pa : Nat) (bs : List Byte) (comp : Bool) : State × Nat :=
  let (group, s) := s.newId
  let die := dieOf tile
  let time := (s.lamportOf die + 1) % 2 ^ 32
  let pair := time * 8 + die
  let s := { s with lamport := SMap.set s.lamport die time
                    pairs := (granuleParts pa bs).foldl (fun m g => SMap.set m (g.1 / 16) pair) s.pairs }
  (((List.range 8).filter fun d => d ≠ die).foldl (fun s d =>
    let at0 := pa - die * dieSpan + d * dieSpan
    let op : Operand := { tile := tile, strand := w.strand, node := d, id := pair, arg := if comp then 1 else 0, word := BitVec.ofNat 64 at0, bytes := bs, flag := true }
    let (i, s) := s.newBurst die d tile w group .hbmWrite op
    s.sendBurst vnCopy ctx (homeTile pa) (homeTile at0) i) s, group)

/-! ### The hardware's own accesses to a context's memory (R409, R413, R415, R416) -/

/-- The physical address of a virtual one, at the copy of the context's home die. -/
def State.ctxPa (s : State) (ctx va : Nat) : Option Nat :=
  (s.pageWalk ctx va).map fun r => leafPa r.2.1 r.2.2 va (s.ctx ctx).home

/-- A write of the dispatcher or a Mordant that waits for its page. -/
def ctxHeld (ctx va : Nat) (bs : List Byte) : Instr × Operand :=
  (.hbmWrite, { Operand.zero with id := ctx, arg := 6, word := BitVec.ofNat 64 va, bytes := bs })

/-- Bytes of one page of a context, read by the hardware of its home die, over which its own writes that wait stand (R425); nothing where the page, the right to read or
the data is missing. [Assumption 24: DEDUCED.] -/
def State.ctxRead (s : State) (ctx va n : Nat) : Option (List Byte) :=
  match s.pageWalk ctx va with
  | none => none
  | some (leaf, w, level) =>
    let base := match checkLeaf w .read none with
      | .zeros => some (List.replicate n 0)
      | .ok => if s.reviving leaf then some (List.replicate n 0) else s.physRead (leafPa w level va (s.ctx ctx).home) n
      | _ => none
    base.map fun bs => (s.held.filter fun h => decide (h.1 = leaf) && decide (h.2.1 = .hbmWrite) && decide (h.2.2.arg = 6) && decide (h.2.2.id = ctx)).foldr
      (fun h bs => overlay bs va h.2.2.word.toNat h.2.2.bytes) bs

/-- Bytes written within one page of a context by the hardware of its home die: held while the page moves or is revived, and dropped where the page or the right to write
is missing. [Assumption 24: DEDUCED.] -/
def State.ctxWrite (s : State) (ctx va : Nat) (bs : List Byte) : State :=
  match s.pageWalk ctx va with
  | none => s
  | some (leaf, w, level) =>
    let hold (s : State) : State := { s with held := (leaf, ctxHeld ctx va bs) :: s.held }
    match checkLeaf w .write none with
    | .ok =>
      if s.reviving leaf then hold s
      else
        let die := (s.ctx ctx).home
        let pa := leafPa w level va die
        let s := if w.getLsbD 9 && w.getLsbD 10 then s else s.orLeaf leaf (2 ^ 9 + 2 ^ 10)
        let s := (s.physWrite pa bs (leafC w)).1
        if leafP w then (s.spreadWrite (edgeTile die) .other ctx pa bs (leafC w)).1 else s
    | .held => hold s
    | .revive => hold (s.reviveLeaf ctx (va / levelSize level * levelSize level) leaf (levelSize level))
    | _ => s

/-- What waited for a page goes on, oldest first: the hardware's own writes at once, other events within this tick. -/
def State.releaseHeld (s : State) (leaf : Nat) : State :=
  let mine := ((s.held.filter fun h => decide (h.1 = leaf)).map Prod.snd).reverse
  let own (e : Instr × Operand) : Bool := decide (e.1 = .hbmWrite) && decide (e.2.arg = 6)
  let s := (mine.filter own).foldl (fun s e => s.ctxWrite e.2.id e.2.word.toNat e.2.bytes) { s with held := s.held.filter fun h => h.1 ≠ leaf }
  s.redo (mine.filter fun e => !own e) false

/-- REVIVAL_DONE (R415): the zero fill is complete, the page leaves every TLB, and held writes go on. -/
def execRevivalDone (s : State) : Host.Outcome State Fault Refusal :=
  match SMap.lookup s.pageJobs s.ev.id with
  | some ⟨.revive, _, _, leaf, size, _, _, _⟩ =>
    let w := s.leafWord leaf
    let s := s.zeroPage (leafFrame w * 2 ^ 16) size w
    let s := { s with pageJobs := SMap.erase s.pageJobs s.ev.id }
    .next ((s.dropTlb leaf).releaseHeld leaf)
  | _ => .next s

/-! ### Translating (R409, R416) -/

/-- What a translation gives the event that asks for it. -/
inductive Xlate where
  | wait                                 -- the event is performed again later
  | fault (kind : Nat)
  | refused                              -- the page's identity refuses the PORT (R411)
  | zeros (e : TlbEntry)
  | ok (e : TlbEntry)
deriving DecidableEq, Repr

/-- A translation on a die for an event, which is performed again once a walk, a revival or a migration it must wait for is
over. -/
def State.translate (s : State) (die ctx va : Nat) (acc : Access) (cid : Option Nat) (retry : Instr × Operand) : Xlate × State :=
  if 2 ^ 52 ≤ va then (.fault 1, s)
  else match s.tlbFind die ctx va with
    | none => if retry.2.flag then (.fault 1, s) else (.wait, s.startWalk die ctx va acc.writes (some retry) none)
    | some e =>
      let hold : Xlate × State := (.wait, { s with held := (e.leaf, retry) :: s.held })
      match checkLeaf e.word acc cid with
      | .fault k => (.fault k, s)
      | .refused => (.refused, s)
      | .zeros => (.zeros e, s)
      | .held => hold
      | .revive =>
        if (s.jobOf e.leaf).isSome then hold
        else
          let s' := s.reviveLeaf ctx e.va e.leaf e.size
          if (s'.jobOf e.leaf).isSome then (.wait, { s' with held := (e.leaf, retry) :: s'.held })
          else (.wait, s'.redo [retry] false)
      | .ok =>
        if s.reviving e.leaf then (if acc.writes then hold else (.zeros e, s))
        else if acc.writes ∧ !e.word.getLsbD 10 then
          let s := s.orLeaf e.leaf (2 ^ 10)
          (.ok e, { s with tlb := s.tlb.map fun d => if d.leaf = e.leaf ∧ d.die = e.die then { d with word := d.word ||| 0x400#64 } else d })
        else (.ok e, s)

/-! ### Translation that stalls a slot (R163, R225, R352) -/

/-- What a stalling slot's translation gives. -/
inductive SlotXlate where
  | wait (s : State)
  | none (s : State)                     -- no valid leaf
  | some (e : TlbEntry)
deriving DecidableEq, Repr

/-- A slot's translation of a virtual address: it stalls on a miss until the walk ends. [Assumption 56: DEDUCED.] -/
def State.slotTranslate (s : State) (c : Issuer) (ctx va : Nat) (write : Bool) : SlotXlate :=
  match s.tlbFind (dieOf c.tile) ctx va with
  | .some e => .some e
  | .none =>
    match (s.strand c.tile c.strand).noLeaf with
    | .some a =>
      if a / 2 ^ 16 = va / 2 ^ 16 then .none (s.modStrand c.tile c.strand fun x => { x with noLeaf := Option.none })
      else .wait ((s.modStrand c.tile c.strand fun x => { x with noLeaf := Option.none }).startWalk (dieOf c.tile) ctx va write Option.none (.some (c.tile, c.strand)))
    | .none => .wait (s.startWalk (dieOf c.tile) ctx va write Option.none (.some (c.tile, c.strand)))

/-- R163, R225: a page fault that is synchronous to the slot. -/
def State.slotFault (s : State) (c : Issuer) (va : Nat) : State := (s.raiseHere c 8 (BitVec.ofNat 64 va) 0).tally c.tile 20 1

/-! ### Reports of open accesses (R106, R165, R217) -/

/-- R106: bit 8 of the pending mask of a strand's frame is set, and what the cause holds is kept. [Assumption 18: DEDUCED.] [Assumption 24: DEDUCED.] -/
def State.pendFault (s : State) (t n : Nat) (r : CauseRec) : State :=
  let a := tileBase t + frameAddr n
  (s.setMem (memWrite s.mem a (leBytes 8 (leNat (memRead s.mem a 8) ||| 2 ^ 40)))).modStrand t n fun x =>
    x.setPend (x.depth - 1) ((x.pendAt (x.depth - 1)).filter (fun d => decide (d.cause ≠ 8)) ++ [r])

/-! ### Reclaim and migration (R414, R416) -/

/-- The physical address of a write on its way that has been translated: a propagation, or one of a Z port, a walk engine or a capsule. -/
def writeBound (i : Instr) (o : Operand) : Option Nat :=
  if i = .hbmWrite ∧ (o.flag ∨ o.arg = 2 ∨ o.arg = 3 ∨ o.arg = 4) then some o.word.toNat else none

/-- The physical address of a walk engine's read on its way to its home. -/
def readBound (i : Instr) (o : Operand) : Option Nat :=
  if i = .walkBurst ∧ (o.arg = 4 ∨ o.arg = 5) ∧ o.bytes.getD 8 0 ≠ 1 then some o.word.toNat else none

/-- What is on its way: in the agenda, in packets, and in bursts. -/
def State.underway (s : State) (bound : Instr → Operand → Option Nat) (at0 : Nat → Bool) : Bool :=
  let hit (i : Instr) (o : Operand) : Bool := (bound i o).any at0
  (s.agenda.any fun e => hit e.2.2.1 e.2.2.2) || (s.pkts.any fun p => hit p.2.act p.2.op) || s.bursts.any fun b => hit b.2.act b.2.op

/-- R414: whether a request translated to a page or to one of its copies is still to be performed; `writes` counts only writes. [Assumption 56: DEDUCED.] -/
def State.reqsIn (s : State) (word : W64) (size : Nat) (writes : Bool) : Bool :=
  let at0 := pageHolds word (leafFrame word * 2 ^ 16) size
  (s.reqs.any fun p => decide (0 < p.2.stage) && at0 p.2.pa
    && (!writes || (match p.2.kind with | .load => false | .ltag => false | .frd => false | .query => false | _ => true)))
    || s.underway writeBound at0 || (!writes && s.underway readBound at0)

/-- RECLAIM_DONE (R414): V 0 is written, and the frame is free once requests to it are performed. -/
def execReclaimDone (s : State) : Host.Outcome State Fault Refusal :=
  match SMap.lookup s.pageJobs s.ev.id with
  | some ⟨.reclaim, _, _, leaf, size, _, _, _⟩ =>
    let w := s.leafWord leaf
    let s := if leafV w then (s.writeLeaf leaf (setField w 0 1 0)).dropTlb leaf else s
    if s.reqsIn w size false then .next (s.later 22 .reclaimDone (opId s.ev.id))
    else .next ({ s with pageJobs := SMap.erase s.pageJobs s.ev.id }.releaseHeld leaf)
  | _ => .next s

/-- MIGRATION_COPY_START (R414): a DRAINING page with no pin, whose earlier writes are performed, enters COPYING. -/
def execMigrationCopyStart (s : State) : Host.Outcome State Fault Refusal :=
  match SMap.lookup s.pageJobs s.ev.id with
  | some ⟨.drain, ctx, va, leaf, size, frame, host, cmd⟩ =>
    let w := s.leafWord leaf
    if SMap.get s.pins 0 leaf ≠ 0 ∨ s.reqsIn w size true then .next (s.later 23 .migrationCopyStart (opId s.ev.id))
    else .next (({ s with pageJobs := SMap.set s.pageJobs s.ev.id ⟨.copy, ctx, va, leaf, size, frame, host, cmd⟩ }.writeLeaf leaf (setField w 56 3 2)).later
      24 .migrationCopyDone (opId s.ev.id))
  | _ => .next s

/-- R416: the lines of a page copied as plain data and encoded afresh at the new frame; a line that cannot be read leaves the
new one as it stands. [Assumption 56: DEDUCED.] -/
def State.copyPage (s : State) (from_ to_ : Nat) (comp : Bool) : Nat → State
  | 0 => s
  | k + 1 =>
    let s := s.copyPage from_ to_ comp k
    match s.physRead (from_ + k * lineSize) lineSize with
    | some bs => (s.physWrite (to_ + k * lineSize) bs comp).1
    | none => { s with badLines := (to_ / lineSize + k) :: s.badLines }

end Sys2Proof.Machine
end

