-- ==== Sys2Proof/Machine/Queue.lean ====
section
/-! DEFINITION. Queues: a context's memory, its rings and record pool, continuation records, ready and tile queues, launch queues and
their states (R136-R148, R150, R387, R388). -/

namespace Sys2Proof.Machine

/-! ### A context's memory -/

def State.ctxWord (s : State) (ctx va n : Nat) : Nat := leNat ((s.ctxRead ctx va n).getD [])

/-- What reading a context's memory under its leaves comes to: bytes, or the code of the failure: 8 without a page or a right, 13 without readable data. -/
inductive ImageRead where
  | ok (bs : List Byte)
  | failed (code : Nat)
deriving DecidableEq, Repr

def ImageRead.fails : ImageRead → Bool
  | .ok _ => false
  | .failed _ => true

/-- R117, R409, R413, R420: bytes of a context's memory, page by page, as an agent of a die fetches them as code or reads them as data. [Assumption 24: DEDUCED.] [Assumption 44: DEDUCED.] -/
def State.imageRead (s : State) (die ctx va : Nat) (acc : Access) : Nat → Nat → ImageRead
  | 0, _ => .ok []
  | fuel + 1, n =>
    if n = 0 then .ok []
    else
      let k := min n (2 ^ 16 - va % 2 ^ 16)
      match s.pageWalk ctx va with
      | none => .failed 8
      | some (leaf, w, level) =>
        let read : ImageRead := match checkLeaf w acc none with
          | .fault _ => .failed 8
          | .zeros => .ok (List.replicate k 0)
          | _ =>
            if s.reviving leaf then .ok (List.replicate k 0)
            else match s.physRead (leafPa w level va die) k with
              | some bs => .ok bs
              | none => .failed 13
        match read with
        | .failed c => .failed c
        | .ok bs => match s.imageRead die ctx (va + k) acc fuel (n - k) with
          | .ok rest => .ok (bs ++ rest)
          | e => e

/-! ### Continuation records (R146) -/

structure Record where
  ctx   : Nat
  prio  : Nat
  st    : Nat
  rslot : Nat
  nc    : Nat
  age   : Nat
  etk   : Nat
  idx   : Nat
  wid   : Nat
  link  : Nat
  xl    : Nat
  kslot : Nat
  c     : List Nat
deriving DecidableEq, Repr

def recReady : Nat := 0
def recRunning : Nat := 1
def recDeferred : Nat := 2
def recParked : Nat := 3
def recFaulted : Nat := 4

/-- Bytes 0-7 of a record. -/
def Record.head (r : Record) : Nat :=
  r.ctx % 4096 * 2 ^ 52 + r.prio * 2 ^ 49 + r.st * 2 ^ 46 + r.rslot * 2 ^ 44 + r.nc * 2 ^ 42 + r.age * 2 ^ 40 + r.etk * 2 ^ 12 + r.idx

def Record.bytes (r : Record) : List Byte :=
  leBytes 8 r.head ++ leBytes 8 r.wid ++ leBytes 8 r.link ++ leBytes 8 (r.xl / 64 * 2 ^ 16 + r.kslot)
    ++ (List.range 4).flatMap fun j => leBytes 8 (r.c.getD j 0)

def wordAt (bs : List Byte) (k : Nat) : Nat := frameField bs (8 * k) 8

def Record.ofBytes (bs : List Byte) : Record :=
  let w := wordAt bs 0
  { ctx := bitsAt w 52 12, prio := bitsAt w 49 3, st := bitsAt w 46 3, rslot := bitsAt w 44 2, nc := bitsAt w 42 2
    age := bitsAt w 40 2, etk := bitsAt w 12 23, idx := bitsAt w 0 12, wid := wordAt bs 1, link := wordAt bs 2
    xl := bitsAt (wordAt bs 3) 16 48 * 64, kslot := bitsAt (wordAt bs 3) 0 16, c := (List.range 4).map fun j => wordAt bs (4 + j) }

/-- R146: `ETK` of the present tick. -/
def State.etk (s : State) : Nat := s.tick / 1024 % 2 ^ 23

def Ctx.recVa (c : Ctx) (slot : Nat) : Nat := c.poolBase + 64 * slot
def State.recBytes (s : State) (ctx slot : Nat) : List Byte := (s.ctxRead ctx ((s.ctx ctx).recVa slot) 64).getD (List.replicate 64 0)
def State.record (s : State) (ctx slot : Nat) : Record := Record.ofBytes (s.recBytes ctx slot)
def State.writeRecord (s : State) (ctx slot : Nat) (r : Record) : State := s.ctxWrite ctx ((s.ctx ctx).recVa slot) r.bytes

/-! ### Rings (R148, R387) -/

def Ctx.ringCap (c : Ctx) (park : Bool) : Nat := 2 ^ (if park then c.pcap else c.fcap)
def Ctx.launchBase (c : Ctx) (q : Nat) : Nat := c.ringBase + q * 64 * 2 ^ c.qcap

def Ctx.ringVa (c : Ctx) (park : Bool) : Nat :=
  let fault := c.launchBase c.launchQs.length
  if park then (fault + 64 + 16 * 2 ^ c.fcap + 63) / 64 * 64 else fault

def ringIx (park : Bool) : Nat := if park then 1 else 0
def Ctx.pidx (c : Ctx) (park : Bool) : Nat := c.rings.getD (ringIx park) 0

/-- R387: the consumer index as its word stands, or the producer's when the word gives no sound difference. -/
def State.ringCidx (s : State) (ctx : Nat) (park : Bool) : Nat :=
  let c := s.ctx ctx
  let i := s.ctxWord ctx (c.ringVa park + 8) 4
  if (c.pidx park + 2 ^ 32 - i) % 2 ^ 32 ≤ c.ringCap park then i else c.pidx park

def State.ringFull (s : State) (ctx : Nat) (park : Bool) : Bool :=
  decide (((s.ctx ctx).pidx park + 2 ^ 32 - s.ringCidx ctx park) % 2 ^ 32 = (s.ctx ctx).ringCap park)

def RingEntry.bytes (e : RingEntry) : List Byte := leBytes 8 (e.kind * 2 ^ 56 + e.code * 2 ^ 40) ++ leBytes 8 e.item

/-- R387: entries that `CIDX` has passed since it was last read; each of `KIND` 0 frees its record's pool slot. [Assumption 47: DEDUCED.] -/
def State.scanRing (s : State) (ctx : Nat) (park : Bool) : State :=
  let c := s.ctx ctx
  let seen := c.seen.getD (ringIx park) 0
  let now := s.ringCidx ctx park
  let n := (now + 2 ^ 32 - seen) % 2 ^ 32
  let n := if n ≤ (c.pidx park + 2 ^ 32 - seen) % 2 ^ 32 then n else 0
  let freed := (List.range n).filterMap fun i =>
    let a := c.ringVa park + 64 + 16 * ((seen + i) % 2 ^ 32 % c.ringCap park)
    if s.ctxWord ctx (a + 7) 1 = 0 then some ((s.ctxWord ctx (a + 8) 8 - c.poolBase) / 64) else none
  s.modCtx ctx fun c => { c with seen := c.seen.set (ringIx park) now, pool := freed.foldl (fun m i => SMap.erase m i) c.pool }

def State.scanRings (s : State) (ctx : Nat) : State := (s.scanRing ctx false).scanRing ctx true

/-- R347, R387: the spill cell of an entry, 16 KiB; those of the park ring follow those of the fault ring. [Assumption 40: DEDUCED.] -/
def Ctx.spillCell (c : Ctx) (park : Bool) (p : Nat) : Nat :=
  c.spillBase + 2 ^ 14 * (if park then 2 ^ c.fcap + p % 2 ^ c.pcap else p % 2 ^ c.fcap)

/-- Bytes written to a context's memory, page by page. -/
def State.ctxWriteSpan (s : State) (ctx va : Nat) (bs : List Byte) : State :=
  let first := 2 ^ 16 - va % 2 ^ 16
  if bs.length ≤ first then s.ctxWrite ctx va bs else (s.ctxWrite ctx va (bs.take first)).ctxWrite ctx (va + first) (bs.drop first)

/-- An entry written at the producer's place, a capsule's bytes in its spill cell first. [Assumption 47: DEDUCED.] -/
def State.putEntry (s : State) (ctx : Nat) (e : RingEntry) : State :=
  let c := s.ctx ctx
  let p := c.pidx e.park
  let s := if e.kind = 2 then s.ctxWriteSpan ctx (c.spillCell e.park p) e.cap else s
  let e := if e.kind = 2 then { e with item := c.spillCell e.park p } else e
  let s := s.ctxWrite ctx (c.ringVa e.park + 64 + 16 * (p % c.ringCap e.park)) e.bytes
  let s := s.ctxWrite ctx (c.ringVa e.park) (leBytes 8 ((p + 1) % 2 ^ 32))
  s.modCtx ctx fun c => { c with rings := c.rings.set (ringIx e.park) ((p + 1) % 2 ^ 32) }

/-- R387: the control blocks of a context's rings as they are at reset, once, as soon as the context's page table reaches them. [Assumption 47: DEDUCED.] -/
def State.resetRings (s : State) (ctx : Nat) : State :=
  let c := s.ctx ctx
  if c.ringsSet ∨ [false, true].any fun park => (s.ctxPa ctx (c.ringVa park)).isNone then s
  else ([false, true].foldl (fun s park => s.ctxWrite ctx (c.ringVa park) (List.replicate 64 0)) s).modCtx ctx fun c => { c with ringsSet := true }

/-- R387: word 0 of a ring's control block is the hardware's: a store to it by any other agent does not stay. -/
def State.keepRings (s : State) (pa n : Nat) : State :=
  s.ctxs.foldl (fun s q =>
    if !q.2.ringsSet then s
    else [false, true].foldl (fun s park => match s.ctxPa q.1 (q.2.ringVa park) with
      | some a => if a < pa + n ∧ pa < a + 8 then s.ctxWrite q.1 (q.2.ringVa park) (leBytes 8 (q.2.pidx park)) else s
      | none => s) s) s

/-- R387: the ticks after which the Mordant rereads `CIDX` while an entry is held. -/
def recheckTicks : Nat := 1024

/-- R138, R148: a hardware agent's entry: written, or held while its ring is full. A destroyed context takes none (R138). [Assumption 47: DEDUCED.] -/
def State.ringEntry (s : State) (ctx : Nat) (e : RingEntry) : State :=
  let s := s.scanRing ctx e.park
  let c := s.ctx ctx
  if c.st = .destroyed then s
  else if s.ringFull ctx e.park ∨ c.held.any fun h => h.park == e.park then
    let s' := s.modCtx ctx fun c => { c with held := c.held ++ [e] }
    if c.held.isEmpty then s'.after recheckTicks .faultRingRecheck { Operand.zero with node := ctx } else s'
  else s.putEntry ctx e

/-! ### Waking the dispatchers -/

/-- The order of a dispatcher's choice among the events of a tick: after all arrivals. -/
def dispatchOrder : Nat := 2 ^ 21

/-- R149: a die's dispatcher is to choose, no sooner than 4 ticks after it last sent. -/
def State.wakeDie (s : State) (die : Nat) : State :=
  s.once (max s.tick (SMap.get s.dispNext 0 die)) dispatchOrder .dispatch { Operand.zero with node := die }

/-- R129: the gangs that wait are looked at again. -/
def State.wakeGangs (s : State) : State :=
  s.gangs.foldl (fun s p => if p.2.st = .waiting then s.once s.tick (dispatchOrder - 1) .gangDispatch (opId p.1) else s) s

/-- Launch queues with entries, gangs that wait and generators that have more to create are looked at, then the dies of a
context's region. -/
def State.wakeCtx (s : State) (ctx : Nat) : State :=
  let c := s.ctx ctx
  let s := (List.range c.launchQs.length).foldl (fun s q =>
    if (c.launchQs.getD q LaunchQ.reset).cidx < (c.launchQs.getD q LaunchQ.reset).pidx then
      s.once s.tick (dispatchOrder - 3) .launchDequeue { Operand.zero with node := ctx, arg := q } else s) s
  let s := s.wakeGangs
  let s := s.launches.foldl (fun s p => if p.2.ctx = ctx then s.once s.tick (dispatchOrder - 2) .recordGenerate (opId p.1) else s) s
  let s := if s.spawns.any (fun e => decide (e.ctx = ctx)) then s.once s.tick (dispatchOrder - 2) .recordGenerate (opId 0) else s
  c.dies.foldl (fun s d => s.wakeDie d) s

/-! ### Queue states (R138) -/

/-- R138: whether the queues of a context are PAUSED; a launch queue that the firmware has paused too opens only once both reasons have ended. [Assumption 47: DEDUCED.] -/
def Ctx.paused (c : Ctx) : Bool := decide (c.st ≠ .running) || c.waving || !c.held.isEmpty

/-- FAULT_RING_RECHECK (R138, R148, R387): held entries are written while their ring has space; with none left the queues open. [Assumption 47: DEDUCED.] -/
def execFaultRingRecheck (s : State) : Host.Outcome State Fault Refusal :=
  let ctx := s.ev.node
  let s := s.scanRings ctx
  let put (acc : State × List RingEntry) (e : RingEntry) : State × List RingEntry :=
    if acc.1.ringFull ctx e.park ∨ acc.2.any fun h => h.park == e.park then (acc.1, acc.2 ++ [e]) else (acc.1.putEntry ctx e, acc.2)
  let r := (s.ctx ctx).held.foldl put (s, [])
  let s' := r.1.modCtx ctx fun c => { c with held := r.2 }
  if (s.ctx ctx).held.isEmpty then .next s
  else if r.2.isEmpty then .next (s'.wakeCtx ctx)
  else .next (s'.after recheckTicks .faultRingRecheck s.ev)

/-! ### The pool (R137) -/

/-- The lowest free slot. [Assumption 47: DEDUCED.] -/
def Ctx.freeSlot (c : Ctx) : Option Nat := (List.range c.poolCount).find? fun i => (SMap.lookup c.pool i).isNone

/-- A slot taken for a launch, if one is free. -/
def State.takeSlot (s : State) (ctx launch gang : Nat) : Option (Nat × State) :=
  let s := s.scanRings ctx
  (s.ctx ctx).freeSlot.map fun i => (i, s.modCtx ctx fun c => { c with pool := SMap.set c.pool i ⟨launch, gang, 0, 0, 0⟩ })

def Ctx.slotInfo (c : Ctx) (i : Nat) : PoolSlot := SMap.get c.pool ⟨0, 0, 0, 0, 0⟩ i

/-! ### Launches (R119) -/

def State.launch (s : State) (id : Nat) : Option Launch := SMap.lookup s.launches id
def State.modLaunch (s : State) (id : Nat) (f : Launch → Launch) : State :=
  match s.launch id with
  | some l => { s with launches := SMap.set s.launches id (f l) }
  | none => s

/-- R119: a launch completes once its generator is exhausted and no record, spawn entry or run of it remains. -/
def State.checkLaunch (s : State) (id : Nat) : State :=
  match s.launch id with
  | some l =>
    if !l.gen ∧ l.recs = 0 ∧ !(s.spawns.any fun e => decide (e.launch = id + 1)) then s.later 30 .launchCompletion (opId id) else s
  | none => s

/-! ### Identifiers and groups (R112, R124, R127) -/

/-- R115: where a kernel's code stands. -/
def KHeader.codeAt (h : KHeader) : Nat := h.base + 0x1000 + h.nslt * 0x1000

/-- The step between identifiers: 2^p. -/
def KHeader.inc (h : KHeader) : Nat := 2 ^ (64 - h.widths.sum)

/-- R124: the identifier down to a level. -/
def KHeader.keyOf (h : KHeader) (level wid : Nat) : Nat :=
  let b := 2 ^ (64 - (h.widths.take (level + 1)).sum)
  wid / b * b

/-- R127: what names the group one level up; 0 at level 0. -/
def KHeader.parentKey (h : KHeader) (level wid : Nat) : Nat := if level = 0 then 0 else h.keyOf (level - 1) wid

def Ctx.kernel (c : Ctx) (kslot : Nat) : Option Kernel := SMap.lookup c.kernels kslot

/-- R127: the groups that some record, spawn entry or unwalked identifier of a launch belongs to. -/
def State.groupLives (s : State) (id : Nat) (l : Launch) (h : KHeader) (level key : Nat) : Bool :=
  let size := 2 ^ (64 - (h.widths.take (level + 1)).sum)
  let holds (wid : Nat) : Bool := decide (h.keyOf level wid = key)
  ((s.ctx l.ctx).pool.any fun p => decide (p.2.launch = id + 1) && holds (s.record l.ctx p.1).wid)
    || (l.next.any fun w => decide (w < key + size) && decide (key ≤ l.last))
    || s.spawns.any fun e => decide (e.launch = id + 1) && decide (e.next < key + size) && decide (key ≤ e.next + e.inc * (e.left - 1))

/-- R127: PACK choices of groups whose every task has ended are released. -/
def State.releasePacks (s : State) (launch : Nat) : State :=
  if launch = 0 then s
  else match s.launch (launch - 1) with
    | none => s
    | some l => match (s.ctx l.ctx).kernel l.kslot with
      | none => s
      | some k => s.modLaunch (launch - 1) fun m => { m with choices := m.choices.filter fun c => decide (k.hdr.place.getD c.level 0 ≠ 3) || s.groupLives (launch - 1) l k.hdr c.level c.key }

/-- A record or run of a launch that is no longer the launch's; `exits` counts one that ended by `exit`. [Assumption 42: DEDUCED.] -/
def State.leaveLaunch (s : State) (launch exits : Nat) : State :=
  if launch = 0 then s
  else ((s.modLaunch (launch - 1) fun l => { l with recs := l.recs - 1, exits := l.exits + exits }).releasePacks launch).checkLaunch (launch - 1)

/-! ### Ready and tile queues (R136, R147, R150) -/

/-- The last record of a queue linked to a new one, whose own link ends the list. -/
def State.linkTail (s : State) (ctx : Nat) (queue : List Nat) (slot : Nat) : State :=
  let c := s.ctx ctx
  let s := match queue.getLast? with
    | some t => s.ctxWrite ctx (c.recVa t + 16) (leBytes 8 (c.recVa slot))
    | none => s
  s.ctxWrite ctx (c.recVa slot + 16) (leBytes 8 0)

/-- The record before a removed one linked to the record after it. -/
def State.linkOver (s : State) (ctx : Nat) (queue : List Nat) (slot : Nat) : State :=
  let c := s.ctx ctx
  match queue.findIdx? fun i => i == slot with
  | some (k + 1) => s.ctxWrite ctx (c.recVa (queue.getD k 0) + 16) (leBytes 8 ((queue[k + 2]?.map c.recVa).getD 0))
  | _ => s

/-- R137: a generator or the spawn queues are looked at again after some ticks, when `CIDX` may have freed a slot of a full pool. -/
def State.retryGenerate (s : State) (id : Nat) : State := s.once (s.tick + recheckTicks) (dispatchOrder - 2) .recordGenerate (opId id)

/-- R150: the tick at which a record of a ready queue is first old enough. -/
def State.agingTick (s : State) (ctx etk : Nat) : Nat :=
  let iv := 2 ^ (s.ctx ctx).aging / 1024
  let d := (s.tick / 1024 % 2 ^ 23 + 2 ^ 23 - etk) % 2 ^ 23
  if iv ≤ d then s.tick else (s.tick / 1024 + iv - d) * 1024

/-- R150: the promotion of a record of a ready queue, at the tick at which it falls due. -/
def State.armAging (s : State) (ctx slot : Nat) : State :=
  let r := s.record ctx slot
  if r.age < 2 ∧ r.prio < 7 then s.once (s.agingTick ctx r.etk) 0 .agingPromotion { Operand.zero with node := ctx, id := slot } else s

/-- R150, R394: every promotion that fell due while a context was frozen is made once it has thawed. -/
def State.armReady (s : State) (ctx : Nat) : State := ((s.ctx ctx).ready.flatMap id).foldl (fun s slot => s.armAging ctx slot) s

/-- A record at the tail of the ready queue of its priority. [Assumption 47: DEDUCED.] -/
def State.readyAppend (s : State) (ctx slot : Nat) : State :=
  let r := s.record ctx slot
  let q := (s.ctx ctx).ready.getD r.prio []
  ((s.linkTail ctx q slot).modCtx ctx fun c => { c with ready := c.ready.set r.prio (q ++ [slot]) }).armAging ctx slot

def State.readyRemove (s : State) (ctx prio slot : Nat) : State :=
  let q := (s.ctx ctx).ready.getD prio []
  (s.linkOver ctx q slot).modCtx ctx fun c => { c with ready := c.ready.set prio (q.erase slot) }

def State.tileAppend (s : State) (ctx tile slot : Nat) : State :=
  let q := SMap.get (s.ctx ctx).tileQ [] tile
  (s.linkTail ctx q slot).modCtx ctx fun c => { c with tileQ := SMap.setD c.tileQ [] tile (q ++ [slot]) }

def State.tileRemove (s : State) (ctx tile slot : Nat) : State :=
  let q := SMap.get (s.ctx ctx).tileQ [] tile
  (s.linkOver ctx q slot).modCtx ctx fun c => { c with tileQ := SMap.setD c.tileQ [] tile (q.erase slot) }

/-- R147, R361: a READY record goes to the ready queue of its priority, or to its tile's queue for a gang member. -/
def State.makeReady (s : State) (ctx slot : Nat) : State :=
  let p := (s.ctx ctx).slotInfo slot
  (if p.gang = 0 then s.readyAppend ctx slot else s.tileAppend ctx p.tile slot).wakeCtx ctx

/-- AGING_PROMOTION (R150): a record that has waited for the interval moves to the tail of the queue one priority higher. -/
def execAgingPromotion (s : State) : Host.Outcome State Fault Refusal :=
  let ctx := s.ev.node
  let slot := s.ev.id
  let r := s.record ctx slot
  let iv := 2 ^ (s.ctx ctx).aging / 1024
  if ((s.ctx ctx).ready.getD r.prio []).contains slot ∧ r.age < 2 ∧ r.prio < 7 ∧ iv ≤ (s.etk + 2 ^ 23 - r.etk) % 2 ^ 23
      ∧ (s.ctx ctx).st = .running then
    let s := s.readyRemove ctx r.prio slot
    let s := s.writeRecord ctx slot { r with prio := r.prio + 1, age := r.age + 1, etk := s.etk, link := 0 }
    .next ((s.readyAppend ctx slot).wakeCtx ctx)
  else .next s

/-- R148: a record set aside on a fault or park ring; its launch no longer waits for it. -/
def State.setAside (s : State) (ctx slot : Nat) (park : Bool) (code : Nat) : State :=
  let p := (s.ctx ctx).slotInfo slot
  let s := s.writeRecord ctx slot { s.record ctx slot with st := if park then recParked else recFaulted }
  let s := s.modCtx ctx fun c => { c with pool := SMap.set c.pool slot ⟨0, 0, 0, 0, 0⟩ }
  (s.ringEntry ctx ⟨park, (s.ctx ctx).recVa slot, 0, code, []⟩).leaveLaunch p.launch 0

end Sys2Proof.Machine
end

