-- ==== Sys2Proof/Machine/Req.lean ====
section
/-! DEFINITION. Remote requests: landing specifications (R75), the checks of handles at use (R164, R352, R370), `openx` (R163), remote
loads and stores (R165, R172-R174), and their passage to the home and back (R353, R425, R437). -/

namespace Sys2Proof.Machine

/-! ### Landing specifications (R75) -/

structure LandSpec where
  ord   : Nat
  scope : Nat
  ofs   : Nat
  lreg  : Nat
deriving DecidableEq, Repr

/-- R75: nothing for a refused specification. -/
def landSpec (w : W64) : Option LandSpec :=
  let v := w.toNat
  if bitsAt v 4 12 = 0 ∨ 2 ^ 20 ≤ v then none else some ⟨bitsAt v 16 2, bitsAt v 18 2, bitsAt v 4 12, bitsAt v 0 4⟩

def LandSpec.release (p : LandSpec) : Bool := p.ord.testBit 1
def LandSpec.acquire (p : LandSpec) : Bool := p.ord.testBit 0

/-- R76: room for one more outstanding request. -/
def landRoom (co : Core) : Bool := decide (co.lands.length < 64)

/-- What a trigger needs before a request of the strand: it waits as an access (R206, R314). -/
def requestNeed (use0 use1 use2 commit reads : Bool) : Need :=
  { use0 := use0, use1 := use1, use2 := use2, commit := commit, access := true, reads := reads }

/-- R73, R356: a release waits in its slot until every slot has issued the accesses of earlier bundles. [Assumption 43: DEDUCED.] -/
def State.releaseReady (s : State) (c : Issuer) (rel : Bool) : Bool :=
  !rel || !(s.strand c.tile c.strand).stream.unissuedBelow c.seq isAccess

/-- R75: a trigger with a landing specification, refused with cause 2 when it or its `ORD` is not acceptable. -/
def State.landTrigger (s : State) (u : Nat) (n : Need) (t : Trig) (spec : Opnds → W64) (ords : List Nat)
    (eff : Issuer → Opnds → LandSpec → State → Option (Except State State)) : Host.Outcome State Fault Refusal :=
  s.trigger u n t fun c o s =>
    match landSpec (spec o) with
    | none => some (.error (s.illegalDest c 0))
    | some p =>
      if !ords.contains p.ord then some (.error (s.illegalDest c 0))
      else if !s.releaseReady c p.release then none
      else eff c o p s

/-! ### Handles at use (R164, R352, R370) -/

/-- What a handle leads to. -/
inductive Target where
  | null
  | violation
  | pinned (pa : Nat) (comp : Bool)
  | opened (va : Nat)
deriving DecidableEq, Repr

/-- Bits of R114 `ACC` that an access needs. -/
def Access.bits : Access → Nat
  | .read => 1 | .write => 2 | .both => 3 | .code => 1

/-- R164: a handle checked for an access of a size, its low k bits ignored (R166). [Assumption 24: DEDUCED.] -/
def Strand.target (x : Strand) (h : W64) (k size : Nat) (acc : Access) : Target :=
  match handleClass h with
  | .null => .null
  | .bad => .violation
  | .opened => .opened (handleVa h / 2 ^ k * 2 ^ k)
  | .pinned =>
    let e := x.extSlot (handleSlot h)
    let a := handlePa h / 2 ^ k * 2 ^ k
    if e.rlen = 0 ∨ a < e.pb ∨ e.pb + e.rlen < a + size ∨ (x.extent e.ent).acc.toNat &&& acc.bits ≠ acc.bits then .violation
    else .pinned a e.comp

/-- R352: where SYN operations may act: usable HBM and the unreserved parts of synchronisation windows. -/
def synHome (pa : Nat) : Bool :=
  match physKind pa with
  | .hbm _ => true
  | .sync _ off => !syncReserved off
  | _ => false

/-- R369: where barrier triggers may act. -/
def barHome (pa : Nat) : Bool :=
  match physKind pa with
  | .sync _ off => !syncReserved off
  | _ => false

/-- R166: the flags of an access through a handle whose low k bits are ignored. [Assumption 24: DEDUCED.] -/
def handleMis (k : Nat) (h : W64) : BitVec 10 := flagIf (decide (h.toNat % 2 ^ k ≠ 0)) flagMIS

def State.addFlags (s : State) (c : Issuer) (f : BitVec 10) : State := s.modStrand c.tile c.strand fun x => x.addFlags c (c.seq + 1) f 0 0

/-- R164: the extent-violation trap. [Assumption 24: DEDUCED.] -/
def State.violation (s : State) (c : Issuer) (h : W64) : State := s.raiseHere c 9 h 0

/-! ### Landing entries -/

/-- A landing entry made by the issuing slot, due d steps after it. -/
def State.addLand (s : State) (c : Issuer) (p : LandSpec) (data : Option Wide) (parts : Nat) (isOpen fills : Bool) (va : Nat) : Nat × State :=
  let co := s.core c.tile
  (co.nextLid, s.modCore c.tile fun co =>
    { co with nextLid := co.nextLid + 1
              lands := co.lands ++ [{ lid := co.nextLid, strand := c.strand, reg := p.lreg, due := c.step + p.ofs, vis := c.seq + p.ofs, seq := c.seq
                                      slot := c.slot, trig := c.step, level := (s.strand c.tile c.strand).depth, data := data, parts := parts, half := 0
                                      fills := fills, late := false, lateAt := 0, isOpen := isOpen, va := BitVec.ofNat 64 va, key := none, frozen := none }] })

/-- A request put on its way by the issuing slot. -/
def State.addReq (s : State) (r : Req) : Nat × State :=
  let (i, s) := s.newId
  (i, { s with reqs := SMap.set s.reqs i r }.after 1 .remoteAccessPerform (opId i))

/-- R425: whether a physical address lies in a tile's own window. -/
def ownWindow (t pa : Nat) : Bool :=
  match physKind pa with
  | .window u _ => decide (u = t)
  | _ => false

/-- R413: where an open access of a tile's context goes as its tables now stand: the physical address, at the tile's own die's copy, and whether its page is replicated. -/
def State.openPa (s : State) (t ctx va : Nat) : Option (Nat × Bool) := (s.pageWalk ctx va).map fun r => (leafPa r.2.1 r.2.2 va (dieOf t), leafP r.2.1)

/-- The request of the issuing slot for one part of an access. -/
def State.mkReq (s : State) (c : Issuer) (p : LandSpec) (lid : Option Nat) (kind : ReqKind) (h : W64) (tg : Target) (off len : Nat)
    (data : List Byte) (cmp : W64) : Req :=
  let x := s.strand c.tile c.strand
  let at0 := match tg with | .pinned a _ => a | .opened a => a | _ => 0
  { tile := c.tile, strand := c.strand, run := x.run, seq := c.seq, slot := c.slot, level := x.depth, lid := lid, kind := kind, ctx := x.ctx
    handle := h, opened := (match tg with | .opened _ => true | _ => false), va := at0 + off, pa := at0 + off, off := off, len := len
    comp := (match tg with | .pinned _ b => b | _ => false), repl := false, data := (data.drop off).take len, cmp := cmp
    rel := p.release, scope := p.scope, stage := 0, spread := 0
    own := (match tg with
      | .pinned a _ => ownWindow c.tile (a + off)
      | .opened a => (s.openPa c.tile x.ctx (a + off)).any fun q => ownWindow c.tile q.1
      | _ => false)
    fences := if kind = .store then s.liveReleases c else [] }

/-- The parts of an open access that stand in different pages: offset and length of each. [Assumption 23: DEDUCED.] -/
def pageParts (tg : Target) (size : Nat) : List (Nat × Nat) :=
  match tg with
  | .opened a =>
    let first := 2 ^ 16 - a % 2 ^ 16
    if first < size then [(0, first), (first, size - first)] else [(0, size)]
  | _ => [(0, size)]

/-- A request sent, part by part; an acquire holds the strand's later accesses until its parts are performed (R173). [Assumption 23: DEDUCED.] -/
def State.sendParts (s : State) (c : Issuer) (p : LandSpec) (lid : Option Nat) (kind : ReqKind) (h : W64) (tg : Target) (size : Nat)
    (data : List Byte) (cmp : W64) : State :=
  (pageParts tg size).foldl (fun s q =>
    let (i, s) := s.addReq (s.mkReq c p lid kind h tg q.1 q.2 data cmp)
    if p.acquire then s.modStrand c.tile c.strand fun x => { x with orders := x.orders ++ [⟨c.seq, true, false, p.scope, some i, 0⟩] } else s) s

/-! ### `openx` (R163) -/

/-- R163 `openx`: a handle with a reserved bit set is none of the first three lines'. [Assumption 24: DEDUCED.] -/
def execOpenx (t : Trig) (s : State) : Host.Outcome State Fault Refusal :=
  s.trigger 5 { use0 := true, result := some 5 } t fun c o s =>
    let h := low64 o.t
    match handleClass h with
    | .pinned => some (.ok (s.result c 5 2 t.w (widen (h + low64 o.o0)) 0 0))
    | .null => some (.ok (s.result c 5 2 t.w 0 flagNUL 0))
    | .bad => some (.error (s.violation c h))
    | .opened =>
      let v := (h + low64 o.o0).toNat % 2 ^ 52
      match s.slotTranslate c (s.strand c.tile c.strand).ctx v false with
      | .wait s' => some (.error (s'.stall c))
      | .none s' => some (.error (s'.slotFault c v))
      | .some _ => some (.ok (s.result c 5 2 t.w (widen (openHandle v)) 0 0))

/-! ### Remote loads and stores (R172-R174) -/

/-- R164, R172: a load of the remote accesses: size, ignored low bits, what it does at the home. -/
def State.remoteLoad (s : State) (kind : ReqKind) (size k : Nat) (ords : List Nat) (mis : Bool) (t : Trig) : Host.Outcome State Fault Refusal :=
  s.landTrigger 6 (requestNeed true false false false true) t (fun o => low64 o.o0) ords fun c o p s =>
    let h := low64 o.t
    let tg := (s.strand c.tile c.strand).target h k size .read
    match tg with
    | .violation => some (.error (s.violation c h))
    | _ =>
      if !landRoom (s.core c.tile) then none
      else
        let s := s.addFlags c (if mis then handleMis k h else 0)
        match tg with
        | .null => some (.ok ((s.addLand c p (some 0) 0 false false 0).2.addFlags c flagNUL))
        | .opened va =>
          let (i, s) := s.addLand c p none (pageParts tg size).length true false va
          some (.ok (s.sendParts c p (some i) kind h tg size [] 0))
        | _ =>
          let (i, s) := s.addLand c p none 1 false false 0
          some (.ok (s.sendParts c p (some i) kind h tg size [] 0))

/-- R172 `ldx`. -/
def execLdx (t : Trig) (s : State) : Host.Outcome State Fault Refusal := s.remoteLoad .load 8 3 [0, 1] true t

/-- R172 `ldxv`. -/
def execLdxv (t : Trig) (s : State) : Host.Outcome State Fault Refusal := s.remoteLoad .load 128 4 [0, 1] true t

/-- R172, R174 `ltag`. -/
def execLtag (t : Trig) (s : State) : Host.Outcome State Fault Refusal := s.remoteLoad .ltag 128 7 [0] false t

/-- What the translation of an open store or SYN operation at its slot gives (R225, R352). -/
inductive SlotLeaf where
  | wait (s : State)
  | fault (s : State)
  | ok (e : TlbEntry)
deriving DecidableEq, Repr

/-- R225, R352: the slot waits for the walk; a missing leaf or a refused access faults. -/
def State.slotLeaf (s : State) (c : Issuer) (va : Nat) (acc : Access) : SlotLeaf :=
  match s.slotTranslate c (s.strand c.tile c.strand).ctx va acc.writes with
  | .wait s' => .wait (s'.stall c)
  | .none s' => .fault (s'.slotFault c va)
  | .some e => match checkLeaf e.word acc none with
    | .fault _ => .fault (s.slotFault c va)
    | _ => .ok e

/-- The translation of every page of an open access at its slot; the leaves found. -/
def State.slotLeaves (s : State) (c : Issuer) (tg : Target) (size : Nat) (acc : Access) : Except State (List TlbEntry) :=
  match tg with
  | .opened va => (pageParts tg size).foldl (fun acc' q =>
      match acc' with
      | .error s' => .error s'
      | .ok es => match s.slotLeaf c (va + q.1) acc with
        | .wait s' => .error s'
        | .fault s' => .error s'
        | .ok e => .ok (es ++ [e])) (.ok [])
  | _ => .ok []

/-- R370: a store through the strand's own `GBAR` handle into the release schedule of its group barrier. [Assumption 26: DEDUCED.] -/
def gbarStore (x : Strand) (h : W64) (k size : Nat) : Bool :=
  let a := handlePa h / 2 ^ k * 2 ^ k
  let b := handlePa x.gbar
  decide (x.gbar ≠ 0) && decide (h.toNat / 2 ^ 48 = x.gbar.toNat / 2 ^ 48) && decide (b + 0x10 ≤ a) && decide (a + size ≤ b + 0x20)

/-- R164, R172, R225, R370: a remote store. -/
def State.remoteStore (s : State) (size k : Nat) (t : Trig) : Host.Outcome State Fault Refusal :=
  s.landTrigger 6 { requestNeed true false true true false with later := true } t (fun o => low64 o.o2) [0, 2] fun c o p s =>
    let h := low64 o.t
    let x := s.strand c.tile c.strand
    let tg := if gbarStore x h k size then .pinned (handlePa h / 2 ^ k * 2 ^ k) false else x.target h k size .write
    match tg with
    | .violation => some (.error (s.violation c h))
    | _ =>
      match s.slotLeaves c tg size .write with
      | .error s' => some (.error s')
      | .ok _ =>
        if !landRoom (s.core c.tile) then none
        else
          let s := s.addFlags c (handleMis k h)
          match tg with
          | .null => some (.ok ((s.addLand c p (some 1) 0 false false 0).2.addFlags c flagNUL))
          | _ =>
            let (i, s) := s.addLand c p none (pageParts tg size).length false false 0
            some (.ok (s.sendParts c p (some i) .store h tg size (leBytes size o.o0.toNat) 0))

/-- R172 `stx`. -/
def execStx (t : Trig) (s : State) : Host.Outcome State Fault Refusal := s.remoteStore 8 3 t

/-- R172 `stxv`. -/
def execStxv (t : Trig) (s : State) : Host.Outcome State Fault Refusal := s.remoteStore 128 4 t

/-! ### On the way (R165, R353, R425, R437) -/

def ReqKind.access : ReqKind → Access
  | .load => .read
  | .ltag => .read
  | .store => .write
  | _ => .both

/-- The event that performs a request at its home. -/
def ReqKind.event : ReqKind → Instr
  | .load => .remoteAccessPerform
  | .ltag => .remoteAccessPerform
  | .store => .remoteAccessPerform
  | .atomic _ => .mordantAtomic
  | .red _ _ => .mordantRed
  | .frd => .frdPerform
  | .fwr => .fwrPerform
  | .frst => .frstPerform
  | .defer _ => .futureDeferral
  | .query => .barqPerform
  | .arrive => .barrierArrival
  | .drop => .barrierArrival
  | .arriveWait => .barrierArrival
  | .arriveTimed _ => .barrierArrival

def Req.crossStore (r : Req) : Bool := decide (r.kind = .store) && decide (homeDie r.pa ≠ dieOf r.tile)

def Req.sameStrand (r q : Req) : Bool := decide (r.tile = q.tile) && decide (r.strand = q.strand) && decide (r.run = q.run)

/-- R436, R437: whether a store at its tile's translation unit goes out as a stamped burst. -/
def State.goesStamped (s : State) (r : Req) : Bool :=
  decide (r.kind = .store) && (if r.opened then (s.openPa r.tile r.ctx r.va).any fun q => !q.2 && decide (homeDie q.1 ≠ dieOf r.tile) else r.crossStore)

/-- R356, R437: what a release by a request, or by a fence before a store, still waits for: the strand's requests of bundles below q, its gated stores, and at module scope the writes that are
on their way. A stamped burst needs of its strand's other stamped bursts only that they have been sent. -/
def State.releaseWaits (s : State) (i : Nat) (r : Req) (q scope upto : Nat) : Bool :=
  let stamped := s.goesStamped r
  (s.reqs.any fun p => decide (p.1 ≠ i) && p.2.sameStrand r && decide (p.2.level = r.level) && decide (p.2.seq < q)
      && !(stamped && p.2.crossStore && decide (0 < p.2.stage)))
    || (decide (r.level = 0) && (s.strand r.tile r.strand).gatedBelow q)
    || (decide (2 ≤ scope) && ((!stamped && s.unapplied r.tile r.strand r.level q upto) || s.halfSpread (dieOf r.tile) upto stamped))

/-- Whether a request is held by its own release or a fence before it. [Assumption 23: DEDUCED.] -/
def State.withheld (s : State) (i : Nat) (r : Req) : Bool :=
  (r.rel && s.releaseWaits i r r.seq r.scope i) || r.fences.any fun o => s.releaseWaits i r o.seq o.scope o.upto

/-- R173, R425: an earlier request of the strand that may be for the same location. -/
def State.sameLocation (s : State) (i : Nat) (r : Req) (pa : Option Nat) : Bool :=
  s.reqs.any fun p => decide (p.1 < i) && p.2.sameStrand r &&
    (if p.2.stage = 0 ∧ p.2.opened then true
     else match pa with
       | some a => decide (p.2.pa < a + r.len) && decide (a < p.2.pa + p.2.len)
       | none => false)

/-- Whether a request is a plain load or store. -/
def ReqKind.plain : ReqKind → Bool
  | .load => true
  | .ltag => true
  | .store => true
  | _ => false

/-- Whether an address is in an HBM. -/
def homeHbm (pa : Nat) : Bool :=
  match physKind pa with
  | .hbm _ => true
  | _ => false

/-- R353, R422: where a request is performed: a plain access to HBM at its stack's controller, which the Mordant proxies for the others. -/
def Req.homeTile (r : Req) : Nat := if r.kind.plain then Sys2Proof.Machine.homeTile r.pa else if homeHbm r.pa then edgeTile (homeDie r.pa) else Sys2Proof.Machine.homeTile r.pa

/-- A reply on its way to the requester: the landing entry, the code of an error, and what the request brought. -/
def State.reply (s : State) (i : Nat) (r : Req) (kind code : Nat) (bs : List Byte) : State :=
  { s with reqs := SMap.erase s.reqs i }.send vnMessage r.ctx r.homeTile r.tile .landingDataArrival
    { tile := r.tile, strand := r.strand, node := kind, id := (r.lid.map (· + 1)).getD 0, arg := code, word := r.handle, bytes := bs, flag := false }

/-- Data in its place in the whole access. -/
def Req.placed (r : Req) (bs : List Byte) : List Byte := List.replicate r.off 0 ++ bs

/-- R165: an abandoned open request is reported. -/
def State.abandon (s : State) (i : Nat) : State := s.later 31 .pageFaultReport (opId i)

/-- The place of a request's copy of a leaf: the tile's own die (R413). -/
def Req.copyDie (r : Req) : Nat := dieOf r.tile

/-- R353: the request leaves its tile for the home of its address. -/
def State.toHome (s : State) (i : Nat) (r : Req) : State :=
  let s := ({ s with reqs := SMap.set s.reqs i { r with stage := 1 } } : State).tally r.tile 26 (if r.run = 0 || (r.kind.plain && homeHbm r.pa) then 0 else 1)
  if r.crossStore then s.sendWrite vnMessage r.ctx r.tile r.homeTile ⟨r.strand, r.level, r.seq⟩ r.kind.event (opId i)
  else s.send vnMessage r.ctx r.tile r.homeTile r.kind.event (opId i)

/-- R409: reads of a discarded or reclaiming page: zeros, and for `ltag` the tag of a zero line (R174). -/
def State.zeroReply (s : State) (i : Nat) (r : Req) : State :=
  s.reply i { r with pa := dieOf r.tile * dieSpan } 0 0 (r.placed (match r.kind with | .ltag => leBytes 8 1 | _ => List.replicate r.len 0))

/-- R365: the record of an ended run whose handle is refused goes to the fault ring. -/
def State.deferRefused (s : State) (i : Nat) (r : Req) : State :=
  match r.kind with
  | .defer _ => s.atTick s.tick 0 .futureDeferral { opId i with flag := true }
  | _ => s.abandon i

/-- A request at its tile's translation unit. -/
def State.departReq (s : State) (i : Nat) (r : Req) : State :=
  let poll := s.after 1 .remoteAccessPerform (opId i)
  if s.withheld i r then poll
  else if r.opened then
    if s.sameLocation i r none then poll
    else match s.translate (dieOf r.tile) r.ctx r.va r.kind.access none (.remoteAccessPerform, s.ev) with
      | (.wait, s') => s'
      | (.fault _, s') => s'.deferRefused i r
      | (.refused, s') => s'.deferRefused i r
      | (.zeros _, s') => s'.zeroReply i r
      | (.ok e, s') =>
        let pa := e.pa r.va r.copyDie
        let r := { r with pa := pa, comp := leafC e.word, repl := leafP e.word, own := ownWindow r.tile pa }
        match r.kind with
        | .defer _ => if !synHome pa || r.repl then s'.deferRefused i r else s'.toHome i r
        | _ => if s'.sameLocation i r (some pa) then s'.after 1 .remoteAccessPerform (opId i) else s'.toHome i r
  else if s.sameLocation i r (some r.pa) then poll
  else s.toHome i r

/-- Whether an address is read and written through an HBM controller. -/
def throughHbm (pa : Nat) : Bool :=
  match physKind pa with
  | .hbm _ => true
  | .overflow _ => true
  | _ => false

/-- R467: HBM lines read for a tile with a tag other than 0x0. [Assumption 62: DEDUCED.] -/
def State.tallyRead (s : State) (tile : Option Nat) (pa n : Nat) : State :=
  if throughHbm pa then s.tallyWork (homeDie pa) tile 30 ((linesOf pa n).filter fun l => decide (s.tagOf l ≠ 0)).length else s

/-- R467: partial-line merges for a tile, and the lines that they read. [Assumption 62: DEDUCED.] -/
def State.tallyMerge (s : State) (tile : Option Nat) (pa n : Nat) : State :=
  if throughHbm pa then
    let ls := (linesOf pa n).filter fun l => decide (l * lineSize < pa) || decide (pa + n < (l + 1) * lineSize)
    (s.tallyWork (homeDie pa) tile 31 ls.length).tallyWork (homeDie pa) tile 30 (ls.filter fun l => decide (s.tagOf l ≠ 0)).length
  else s

/-- R467: a Mordant operation performed for a request, which reads the location's lines. [Assumption 62: DEDUCED.] -/
def State.tallyMordant (s : State) (r : Req) : State :=
  let who := if r.run = 0 then none else some r.tile
  (s.tallyRead who r.pa r.len).tallyWork (homeDie r.pa) who 27 1

/-- R358, R420: the code of data that cannot be read. -/
def errorCode (pa : Nat) : Nat :=
  match physKind pa with
  | .sync _ off => if off < 0x80_0000 then 1 else 4
  | _ => 4

/-- The bytes of a load: through its own tile's window in its place among the strand's scratchpad accesses (R425). -/
def State.loadBytes (s : State) (r : Req) : Option (List Byte) :=
  match r.own, physKind r.pa with
  | true, .window t off => some ((s.scratchView t r.strand r.level r.seq off r.len).mapIdx fun i b => if off + i < scratchSize then b else 0)
  | _, _ => s.physRead r.pa r.len

/-- R425: whether a load through its own tile's window has to wait for a store of an earlier bundle that has not been issued. [Assumption 12: DEDUCED.] -/
def State.ownWaits (s : State) (r : Req) : Bool :=
  let x := s.strand r.tile r.strand
  r.own && decide (r.kind ≠ .store) && decide (r.level = x.depth) && x.ending.isNone
    && x.stream.unissuedBelow r.seq fun w => isTriggerWord w && isStorePort (wordUnit w) (wordPort w)

/-- A load performed: its data, or zero and the error. -/
def State.doLoad (s : State) (i : Nat) (r : Req) : State :=
  let s := s.tallyRead (some r.tile) r.pa r.len
  let s := match physKind r.pa with | .window t off => s.oweBanks t false (granulesAt off r.len) | _ => s
  match s.loadBytes r with
  | some bs => s.reply i r 0 0 (r.placed bs)
  | none => s.reply i r 0 (errorCode r.pa) []

/-- R174: the tag of a line. [Assumption 27: DEDUCED.] -/
def State.doTag (s : State) (i : Nat) (r : Req) : State :=
  s.reply i r 0 0 (leBytes 8 (if throughHbm r.pa then s.tagOf (r.pa / lineSize) else 2 ^ 8))

end Sys2Proof.Machine
end

