-- ==== Sys2Proof/Machine/Barrier.lean ====
section
/-! DEFINITION. Barriers (R368-R385): the Mordant's part, the Ridge controllers, the tile's part, and the five triggers. -/

namespace Sys2Proof.Machine

/-! ### The object (R368) -/

structure Bar where
  phase : Nat
  bst   : Nat
  scp   : Nat
  a     : Nat
  drp   : Nat
  e     : Nat
  sched : List Byte                      -- words 0x10 and 0x18
deriving DecidableEq, Repr

def Bar.ofBytes (bs : List Byte) : Bar :=
  let w := frameField bs 0 8
  let v := frameField bs 8 8
  ⟨bitsAt w 32 32, bitsAt w 30 2, bitsAt w 28 2, bitsAt w 0 20, bitsAt v 24 20, bitsAt v 0 20, (bs.drop 16).take 16⟩

def State.barBytes (s : State) (bar : Nat) : Option (List Byte) := s.physRead bar 40

/-- The count fields written back; every other bit as it stands. -/
def State.putBar (s : State) (bar phase a drp e : Nat) : State :=
  let w := s.physWord bar 8
  let v := s.physWord (bar + 8) 8
  let w' := phase % 2 ^ 32 * 2 ^ 32 + bitsAt w 20 12 * 2 ^ 20 + a % 2 ^ 20
  let v' := bitsAt v 44 20 * 2 ^ 44 + drp % 2 ^ 20 * 2 ^ 24 + bitsAt v 20 4 * 2 ^ 20 + e % 2 ^ 20
  ((s.physWrite bar (leBytes 8 w') false).1.physWrite (bar + 8) (leBytes 8 v') false).1

/-- R368: release phases P and spacing Δ of a schedule. -/
def schedPhases (sched : List Byte) : Nat := bitsAt (leNat sched) 112 3 + 1
def schedDelta (sched : List Byte) : Nat := max 16 (bitsAt (leNat sched) 96 12 + 1)
/-- R380: the release phase of a tile column. -/
def schedColumn (sched : List Byte) (x : Nat) : Nat := min (bitsAt (leNat sched) (3 * x) 3) (schedPhases sched - 1)

/-! ### Contexts that are evicted (R393, R397) -/

/-- The latest image of a context. -/
def State.imageOf (s : State) (ctx : Nat) : Option (Nat × Image) :=
  s.images.foldl (fun (best : Option (Nat × Image)) p => if p.2.ctx = ctx then some p else best) none

/-- Where a context's tiles are: its region, or while it is evicted the one it has left. -/
def State.place (s : State) (ctx : Nat) : Option Region :=
  if (s.ctx ctx).st = .evicted then (s.imageOf ctx).map fun p => p.2.region else (s.ctx ctx).region

/-- A packet for a context's tile; while the context is evicted, what it brings waits with the image. -/
def State.sendTo (s : State) (vn ctx src dst : Nat) (act : Instr) (op : Operand) : State :=
  if (s.ctx ctx).st = .evicted then
    match s.imageOf ctx with
    | some (i, g) => { s with images := SMap.set s.images i { g with pending := g.pending ++ [(s.tick, 0, act, op)] } }
    | none => s
  else s.send vn ctx src dst act op

/-! ### Completion (R379-R381) -/

def ridgeOp (die bar phase ctx : Nat) (sched : List Byte) : Operand :=
  { Operand.zero with node := die, word := BitVec.ofNat 64 bar, arg := phase, id := ctx, bytes := sched }

/-- R379-R381: a phase that has all its arrivals completes. [Assumption 49: DEDUCED.] -/
def State.evalBar (s : State) (bar : Nat) : State :=
  match s.barBytes bar with
  | none => s
  | some bs =>
    let b := Bar.ofBytes bs
    if b.bst = 1 ∧ 0 < b.e ∧ b.e ≤ b.a then
      let ctx := SMap.get s.barMarks 0 bar
      let die := homeDie bar
      let close := s.tick + 2 + (schedPhases b.sched - 1) * schedDelta b.sched
      let s := s.putBar bar (b.phase + 1) 0 0 (b.e - min b.drp b.e)
      let s := (s.physWrite (bar + 0x20) (leBytes 8 s.tick) false).1
      let s := { s with waiters := s.waiters.filter fun w => !(decide (w.bar = bar) && decide (w.phase = b.phase)), windows := SMap.set s.windows bar close }
      let s := s.atTick close 0 .releaseWindowEnd { Operand.zero with word := BitVec.ofNat 64 bar }
      let s := s.atTick (s.tick + 2) 0 .ridgeRelease (ridgeOp die bar b.phase ctx b.sched)
      if 2 ≤ b.scp then ((((s.place ctx).map Region.dies).getD []).filter fun d => d ≠ die).foldl (fun s d => s.later 40 .ridgeRelease (ridgeOp d bar b.phase ctx b.sched)) s else s
    else s

/-- R369: a plain write or an atomic on a block: the mark is cleared when `BST` is off, else completion is evaluated. -/
def State.barWritten (s : State) (bar : Nat) : State :=
  match SMap.lookup s.barMarks bar with
  | none => s
  | some _ =>
    if bitsAt (s.physWord bar 8) 30 2 = 1 then s.evalBar bar else { s with barMarks := SMap.erase s.barMarks bar }

/-- The blocks of synchronisation windows that a write touches. -/
def State.syncWritten (s : State) (pa n : Nat) : State :=
  match physKind pa with
  | .sync _ _ => ((List.range ((pa + n - 1) / 64 - pa / 64 + 1)).map fun i => (pa / 64 + i) * 64).foldl (fun s b => s.barWritten b) s
  | _ => s

/-! ### Arrivals (R374, R377) -/

/-- R377: the timed waiters a Mordant holds. -/
def maxWaiters : Nat := 4096

/-- The error of an arrival or drop, if there is one (R384). -/
def State.barError (s : State) (r : Req) (b : Bar) : Option Nat :=
  let carried := leNat (r.data.take 8)
  if b.bst ≠ 1 then some 0x10
  else match r.kind with
    | .drop => if carried = b.phase + 1 then some 0x11 else none
    | k =>
      if b.e = 0 then some 0x12
      else match k with
        | .arrive => none
        | .arriveTimed _ =>
          if b.scp < 2 ∧ dieOf r.tile ≠ homeDie r.pa then some 0x14
          else if maxWaiters ≤ (s.waiters.filter fun w => decide (homeDie w.bar = homeDie r.pa)).length then some 0x13 else none
        | _ => if b.scp < 2 ∧ dieOf r.tile ≠ homeDie r.pa then some 0x14 else none

/-- The kind of a reply by what was asked: plain, arrival or drop, wait. -/
def ReqKind.replyKind : ReqKind → Nat
  | .arrive => 1 | .drop => 1 | .arriveWait => 2 | .arriveTimed _ => 2 | _ => 0

/-- R131, R369: a gang group none of whose members is left retires once its last drop is performed: its barrier is freed, with its mark, and the
gangs that wait are looked at again (R133). [Assumption 49: DEDUCED.] -/
def State.retireGang (s : State) (id : Nat) : State :=
  match SMap.lookup s.gangs id with
  | some g =>
    if g.left = 0 ∧ !(s.reqs.any fun p => decide (p.2.kind = .drop) && decide (p.2.run = 0) && decide (p.2.pa = g.bar)) then
      State.wakeGangs { s with
        gangs := SMap.erase s.gangs id, barBusy := s.barBusy.filter fun b => b ≠ g.bar
        barMarks := if g.bar = 0 then s.barMarks else SMap.erase s.barMarks g.bar }
    else s
  | none => s

/-- The gangs whose members have all ended retire. -/
def State.retireGangs (s : State) : State := s.gangs.foldl (fun s p => s.retireGang p.1) s

/-- R372: an error of the dispatcher's own drop is reported to the context's owner. -/
def State.barReply (s : State) (i : Nat) (r : Req) (code : Nat) (bs : List Byte) : State :=
  if r.run = 0 then
    let s := { s with reqs := SMap.erase s.reqs i }
    if code = 0 then s else s.modCtx r.ctx fun c => { c with lastErr := (r.pa, code) }
  else s.reply i r r.kind.replyKind code bs

/-- BARRIER_ARRIVAL (R374, R377). [Assumption 49: DEDUCED.] -/
def execBarrierArrival (s : State) : Host.Outcome State Fault Refusal :=
  let i := s.ev.id
  match SMap.lookup s.reqs i with
  | none => .next s
  | some r =>
    let s := { s.tallyMordant r with barMarks := SMap.set s.barMarks r.pa r.ctx }
    match s.barBytes r.pa with
    | none => .next (s.barReply i r (errorCode r.pa) (leBytes 8 0 ++ leBytes 8 r.pa ++ leBytes 8 i)).retireGangs
    | some bs =>
      let b := Bar.ofBytes bs
      match s.barError r b with
      | some code => .next (s.barReply i r code (leBytes 8 0 ++ leBytes 8 r.pa ++ leBytes 8 i)).retireGangs
      | none =>
        let a := b.a + 1
        let drp := if r.kind = .drop then b.drp + 1 else b.drp
        let s := s.putBar r.pa b.phase a drp b.e
        let s := s.barReply i r 0 (leBytes 8 (b.phase * 2 ^ 32 + (if b.e ≤ a then 2 ^ 31 else 0) + a % 2 ^ 20) ++ leBytes 8 r.pa ++ leBytes 8 i)
        let s := match r.kind with
          | .arriveTimed d => ({ s with waiters := s.waiters ++ [(⟨r.pa, b.phase, d, r.tile, r.strand, i, r.ctx⟩ : Waiter)] } : State).atTick (max d s.tick) (2 ^ 20) .timedWaiterDeadline (opId i)
          | _ => s
        .next (s.evalBar r.pa).retireGangs

/-- TIMED_WAITER_DEADLINE (R377, R379). [Assumption 49: DEDUCED.] -/
def execTimedWaiterDeadline (s : State) : Host.Outcome State Fault Refusal :=
  match s.waiters.find? fun w => decide (w.rid = s.ev.id) with
  | none => .next s
  | some w =>
    .next (({ s with waiters := s.waiters.filter fun v => v.rid ≠ w.rid, timeouts := w.rid :: s.timeouts } : State).sendTo vnMessage w.ctx (edgeTile (homeDie w.bar)) w.tile .landingDataArrival
      { Operand.zero with tile := w.tile, strand := w.strand, node := 3, bytes := leBytes 8 w.phase ++ leBytes 8 w.rid })

/-- R378: words 0x00 and 0x08 as `barq` lands them. -/
def State.queryWords (s : State) (bar : Nat) (bs : List Byte) : List Byte :=
  let w := frameField bs 0 8
  let active := decide (bitsAt w 30 2 = 1)
  let win := active && (match SMap.lookup s.windows bar with | some t => decide (s.tick < t) | none => false)
  leBytes 8 (bitsAt w 32 32 * 2 ^ 32 + (if win then 2 ^ 31 else 0) + bitsAt w 0 31) ++ (bs.drop 8).take 8

/-- BARQ_PERFORM (R378). -/
def execBarqPerform (s : State) : Host.Outcome State Fault Refusal :=
  let i := s.ev.id
  match SMap.lookup s.reqs i with
  | none => .next s
  | some r =>
    let s := { s.tallyMordant r with barMarks := SMap.set s.barMarks r.pa r.ctx }
    match s.barBytes r.pa with
    | none => .next (s.reply i r 0 (errorCode r.pa) [])
    | some bs => .next ((s.reply i r 0 0 (s.queryWords r.pa bs)).evalBar r.pa)

/-- RELEASE_WINDOW_END (R371, R380). [Assumption 49: DEDUCED.] -/
def execReleaseWindowEnd (s : State) : Host.Outcome State Fault Refusal :=
  match SMap.lookup s.windows s.ev.word.toNat with
  | some t => if t ≤ s.tick then .next { s with windows := SMap.erase s.windows s.ev.word.toNat } else .next s
  | none => .next s

/-! ### The Ridge controllers (R380, R381) -/

/-- RIDGE_RELEASE (R380, R448): at T0 a notice is set for each tile column of the die; the word of another die's Mordant waits at a Y link that carries nothing. -/
def execRidgeRelease (s : State) : Host.Outcome State Fault Refusal :=
  let o := s.ev
  if s.noticeHeld (homeDie o.word.toNat) o.node then .next (s.after 1 .ridgeRelease o)
  else .next ((List.range 32).foldl (fun s x =>
    s.atTick (s.tick + schedColumn o.bytes x * schedDelta o.bytes) 0 .releaseNoticeEmit { o with node := o.node * 32 + x }) s)

/-- RELEASE_NOTICE_EMIT (R380): a column's notice goes to its tiles within the context's region. -/
def execReleaseNoticeEmit (s : State) : Host.Outcome State Fault Refusal :=
  let o := s.ev
  let die := o.node / 32
  let tiles := ((List.range 32).map fun y => die * 1024 + y * 32 + o.node % 32).filter fun t => ((s.place o.id).map fun r => r.holds t).getD false
  .next (tiles.foldl (fun s t => s.sendTo vnConfig o.id (edgeTile die) t .barrierWake { o with tile := t, bytes := [] }) s)

/-! ### At the tile (R376, R377, R382) -/

/-- R376: a phase q at or after p. -/
def phaseGe (q p : Nat) : Bool := decide ((q + 2 ^ 32 - p) % 2 ^ 32 < 2 ^ 31)

/-- The wait of an arrival changed. -/
def Strand.modWait (x : Strand) (rid : Nat) (f : BarWait → BarWait) : Strand := { x with barWaits := x.barWaits.map fun w => if w.rid = rid then f w else w }

/-- The end of a strand's wait: the outcome lands when the strand is at the wait's level, and it wakes. -/
def State.endWait (s : State) (t n rid : Nat) (v : W64) : State :=
  (s.modStrand t n fun x => (x.modWait rid fun w => { w with out := some v }).landBarrier (s.core t).stepc).tryWake t n

/-- R377: the outcome word. -/
def outcomeWord (phase out : Nat) : W64 := BitVec.ofNat 64 (phase * 2 ^ 32 + out * 2 ^ 30)

/-- R376, R377: a wait ends once both halves are at the tile; one that the Mordant has timed out ends by the timeout reply alone. [Assumption 49: DEDUCED.] -/
def State.tryEndWait (s : State) (t n : Nat) : State :=
  (s.strand t n).barWaits.foldl (fun s w => match w.phase, w.notice, w.out with
    | some p, some q, none => if phaseGe q p && !s.timeouts.contains w.rid then s.endWait t n w.rid (outcomeWord p 1) else s
    | _, _, _ => s) s

/-- R376: the newest release notice of a barrier, kept by the waits at it. -/
def Strand.takeNotice (x : Strand) (bar q : Nat) : Strand :=
  { x with barWaits := x.barWaits.map fun w =>
      if w.bar = bar then { w with notice := some (match w.notice with | some p => if phaseGe q p then q else p | none => q) } else w }

/-- BARRIER_WAKE (R376, R380): a release notice reaches a tile. -/
def execBarrierWake (s : State) : Host.Outcome State Fault Refusal :=
  let t := s.ev.tile
  let bar := s.ev.word.toNat
  let q := s.ev.arg
  s.unlessStopped t .barrierWake fun s =>
    .next ((List.range 8).foldl (fun s n =>
      if (s.strand t n).barWaits.any fun w => decide (w.bar = bar) then (s.modStrand t n fun x => x.takeNotice bar q).tryEndWait t n else s) s)

/-- R372: the reply to the arrival or drop that set the arrival record gives it its phase; an error clears it. -/
def Strand.recordReply (x : Strand) (rid phase : Nat) (err : Bool) : Strand :=
  match x.arrival with
  | some a => if a.rid = rid ∧ a.pending then { x with arrival := if err then none else some { a with phase := phase, pending := false } } else x
  | none => x

/-- R376, R377: the reply to a wait's arrival. -/
def State.waitReply (s : State) (t n phase rid : Nat) (err : Bool) : State :=
  let s := s.modStrand t n fun x => x.recordReply rid phase err
  if err then s.endWait t n rid 0 else (s.modStrand t n fun x => x.modWait rid fun w => { w with phase := some phase }).tryEndWait t n

/-- R377: the timeout reply. -/
def State.waitTimeout (s : State) (t n phase rid : Nat) : State :=
  let s := { s with timeouts := s.timeouts.filter fun i => i ≠ rid }
  if (s.strand t n).barWaits.any fun w => decide (w.rid = rid) && w.out.isNone then s.endWait t n rid (outcomeWord phase 2) else s

/-- R372, R376: no reply comes to an arrival whose request was given up: its record is cleared, and its wait ends. [Assumption 49: DEDUCED.] -/
def State.loseArrival (s : State) (i : Nat) (r : Req) : State :=
  match r.kind.replyKind with
  | 0 => s
  | _ =>
    let s := s.modStrand r.tile r.strand fun x => { x with arrival := x.arrival.filter fun a => a.rid ≠ i }
    if (s.strand r.tile r.strand).barWaits.any fun w => decide (w.rid = i) then s.endWait r.tile r.strand i 0 else s

/-- PAGE_FAULT_REPORT (R165): cause 8 on the strand of an abandoned open request: pending in the frame when the request stands
frozen behind a handler, else raised on the strand; a handler's own request is given up. An arrival given up ends as with an error (R372, R376). -/
def execPageFaultReport (s : State) : Host.Outcome State Fault Refusal :=
  match SMap.lookup s.reqs s.ev.id with
  | none => .next s
  | some r =>
    let s := { s with reqs := SMap.erase s.reqs s.ev.id }
    let x := s.strand r.tile r.strand
    let live := (s.core r.tile).lands.any fun a => decide (some a.lid = r.lid) && decide (a.strand = r.strand)
    let waits := x.barWaits.any fun w => decide (w.rid = s.ev.id)
    let cause : CauseRec := ⟨8, BitVec.ofNat 64 r.va, 0, r.slot⟩
    if !live && !waits then .next s
    else
      let s := (s.loseArrival s.ev.id r).tally r.tile 20 1
      if r.level < x.depth then .next (s.pendFault r.tile r.strand cause)
      else if r.level = 0 then .next (s.raiseAsync r.tile r.strand cause)
      else .next ((s.modCore r.tile fun co => { co with lands := co.lands.filter fun a => decide (some a.lid ≠ r.lid) }).raiseAsync r.tile r.strand cause)

/-! ### The triggers (R369, R370, R373) -/

/-- Where a SYN trigger's handle leads, or why the trigger does not issue. -/
inductive SynTarget where
  | stop (s : State)
  | null
  | at_ (tg : Target) (pa : Nat) (comp : Bool)
deriving DecidableEq, Repr

/-- R352, R369: the handle of a SYN trigger, checked for an access of a size with its low k bits ignored. -/
def State.synTarget (s : State) (c : Issuer) (h : W64) (k size : Nat) (home : Nat → Bool) : SynTarget :=
  let tg := (s.strand c.tile c.strand).target h k size .both
  match tg with
  | .null => .null
  | .violation => .stop (s.violation c h)
  | .pinned pa comp => if home pa then .at_ tg pa comp else .stop (s.violation c h)
  | .opened va =>
    match s.slotLeaves c tg size .both with
    | .error s' => .stop s'
    | .ok es =>
      if es.any (fun e => leafP e.word) || (es.zip (pageParts tg size)).any (fun q => !home (q.1.pa (va + q.2.1) 0)) then .stop (s.violation c h)
      else match es with
        | e :: _ => .at_ tg (e.pa va 0) (leafC e.word)
        | [] => .stop (s.violation c h)

/-- R370: the strand's own group barrier is accepted as it stands. -/
def State.barTarget (s : State) (c : Issuer) (h : W64) : SynTarget :=
  let g := (s.strand c.tile c.strand).gbar
  if h = g ∧ g ≠ 0 then .at_ (.pinned (handlePa g) false) (handlePa g) false else s.synTarget c h 6 64 barHome

/-- R373: `barr`, `bard` and `barq`: a landing, no wait. -/
def State.barTrigger (s : State) (t : Trig) (ords : List Nat) (kind : ReqKind) : Host.Outcome State Fault Refusal :=
  s.landTrigger 8 (requestNeed false false true true false) t (fun o => low64 o.o2) ords fun c o p s =>
    let h := low64 o.t
    match s.barTarget c h with
    | .stop s' => some (.error s')
    | .null =>
      if !landRoom (s.core c.tile) then none
      else some (.ok (((s.addFlags c (handleMis 6 h)).addLand c p (some 0) 0 false false 0).2.addFlags c flagNUL))
    | .at_ tg pa _ =>
      let rec' := (s.strand c.tile c.strand).arrival
      let mine := match rec' with | some a => decide (a.bar = pa) | none => false
      let pending := match rec' with | some a => mine && a.pending | none => false
      if !landRoom (s.core c.tile) || (kind == .drop && pending) then none
      else
        let carried := match rec' with | some a => if mine then a.phase + 1 else 0 | none => 0
        let s := s.addFlags c (handleMis 6 h)
        let (i, s) := s.addLand c p none 1 false false 0
        let rid := s.newId.1
        let s := s.sendParts c p (some i) kind h tg 64 (leBytes 8 carried) 0
        some (.ok (if kind = .query then s else s.modStrand c.tile c.strand fun x => { x with arrival := some ⟨pa, rid, 0, true⟩ }))

/-- R373 `barr`. -/
def execBarr (t : Trig) (s : State) : Host.Outcome State Fault Refusal := s.barTrigger t [0, 2] .arrive

/-- R372, R373 `bard`. -/
def execBard (t : Trig) (s : State) : Host.Outcome State Fault Refusal := s.barTrigger t [0, 2] .drop

/-- R373, R378 `barq`. -/
def execBarq (t : Trig) (s : State) : Host.Outcome State Fault Refusal := s.barTrigger t [0, 1] .query

/-- R376, R377: an arrival that waits: the strand gives up the core until the wait ends. The arrival is a release (R383). [Assumption 43: DEDUCED.] [Assumption 49: DEDUCED.] -/
def State.arriveAndWait (s : State) (c : Issuer) (h : W64) (tg : Target) (pa : Nat) (kind : ReqKind) (timed : Bool) (deadline reg : Nat) : State :=
  let s := s.addFlags c (handleMis 6 h)
  let p : LandSpec := ⟨2, 2, 1, reg⟩
  let (i, s) := s.addReq (s.mkReq c p none kind h tg 0 64 [] 0)
  let level := (s.strand c.tile c.strand).depth
  (s.modStrand c.tile c.strand fun x => { x with
    arrival := some ⟨pa, i, 0, true⟩
    barWaits := x.barWaits.filter (fun w => w.level ≠ level) ++ [⟨pa, timed, i, level, deadline, reg, c.seq, c.slot, none, none, none⟩] }).giveUp c (.barrier timed)

/-- R373, R376 `barw`. -/
def execBarw (t : Trig) (s : State) : Host.Outcome State Fault Refusal :=
  s.trigger 8 (requestNeed false false false true false) t fun c o s =>
    let h := low64 o.t
    if !s.releaseReady c true then none
    else match s.barTarget c h with
      | .stop s' => some (.error s')
      | .null => some (.ok (((s.addFlags c (handleMis 6 h ||| flagNUL))).giveUp c .none))
      | .at_ tg pa _ => some (.ok (s.arriveAndWait c h tg pa .arriveWait false 0 0))

/-- R373, R377 `bartw`: a null handle lands zero at once. -/
def execBartw (t : Trig) (s : State) : Host.Outcome State Fault Refusal :=
  s.landTrigger 8 (requestNeed true false true true false) t (fun o => low64 o.o2) [0] fun c o p s =>
    let h := low64 o.t
    if !s.releaseReady c true then none
    else match s.barTarget c h with
      | .stop s' => some (.error s')
      | .null =>
        let s := s.addFlags c (handleMis 6 h ||| flagNUL)
        some (.ok ((s.modStrand c.tile c.strand fun x => { x with vers := x.vers ++ [⟨codeW p.lreg, c.seq + 1, c.seq, c.slot + 1, c.step, 0⟩] }).giveUp c .none))
      | .at_ tg pa _ => some (.ok (s.arriveAndWait c h tg pa (.arriveTimed (low64 o.o0).toNat) true (low64 o.o0).toNat p.lreg))

end Sys2Proof.Machine
end

