-- ==== Sys2Proof/Machine/CapHead.lean ====
section
/-! DEFINITION. Capsules: the head and its fields (R330, R331), the checks of a send (R338, R341), and where a capsule goes from there: on its way, into
memory, or into a spill cell (R332, R339, R346-R348). -/

namespace Sys2Proof.Machine

/-! ### The head (R330) -/

/-- n bits of a number replaced from bit lo. -/
def putBits (w lo n v : Nat) : Nat := w - bitsAt w lo n * 2 ^ lo + v % 2 ^ n * 2 ^ lo

def setWord (bs : List Byte) (k v : Nat) : List Byte := bs.take (8 * k) ++ leBytes 8 v ++ bs.drop (8 * k + 8)

/-- A field of word k of a head. -/
def headField (bs : List Byte) (k lo n : Nat) : Nat := bitsAt (wordAt bs k) lo n
def setHead (bs : List Byte) (k lo n v : Nat) : List Byte := setWord bs k (putBits (wordAt bs k) lo n v)

def capId (bs : List Byte) : Nat := headField bs 0 32 32
def capCtx (bs : List Byte) : Nat := headField bs 0 20 12
def capPrio (bs : List Byte) : Nat := headField bs 0 17 3
def capFpol (bs : List Byte) : Nat := headField bs 0 15 2
def capStops (bs : List Byte) : Nat := headField bs 0 11 4
def capCur (bs : List Byte) : Nat := headField bs 0 7 4
def capFmt (bs : List Byte) : Nat := headField bs 1 60 4
def capLen (bs : List Byte) : Nat := headField bs 1 0 15
def capGw (bs : List Byte) : Nat := headField bs 2 32 32
def capTag (bs : List Byte) : Nat := headField bs 4 32 32
def capFork (bs : List Byte) : Nat := headField bs 4 24 8
def capForks (bs : List Byte) : Nat := headField bs 4 16 8
def capKernel (bs : List Byte) : Nat := headField bs 5 48 16
def capAux (bs : List Byte) : Nat := wordAt bs 7
def capData (bs : List Byte) : List Byte := (bs.drop 256).take (capLen bs)

/-- The size of a head. -/
def headSize : Nat := 256

/-- R330, R336, R338: a descriptor that may stand in a head. -/
def descriptorOk (w : Nat) : Bool :=
  decide (bitsAt w 58 2 = 0) && decide (bitsAt w 15 13 = 0) && decide (bitsAt w 0 15 % 16 = 0) && decide (bitsAt w 0 15 ≤ 16128)
    && decide (bitsAt w 0 15 = bitsAt w 43 15 * bitsAt w 28 15)

/-- R338: a head that may be sent from an address. -/
def headOk (bs : List Byte) (a : Nat) : Bool :=
  decide (headField bs 0 0 7 = 0) && decide (capStops bs ≤ 12) && decide (capFpol bs < 2) && descriptorOk (wordAt bs 1)
    && decide (headField bs 4 0 16 = 0) && decide (a % 64 = 0) && decide (a + headSize + capLen bs ≤ scratchSize)

/-! ### Stops (R331, R332) -/

/-- A field of stop i, by its bit in the 16 bytes. -/
def stopField (bs : List Byte) (i lo n : Nat) : Nat :=
  if lo < 64 then bitsAt (wordAt bs (8 + 2 * i)) lo n else bitsAt (wordAt bs (9 + 2 * i)) (lo - 64) n

def stopKind (bs : List Byte) (i : Nat) : Nat := stopField bs i 125 3
def stopDest (bs : List Byte) (i : Nat) : Nat := stopField bs i 109 13
def stopHandler (bs : List Byte) (i : Nat) : Nat := stopField bs i 101 8
def stopSlate (bs : List Byte) (i : Nat) : Nat := stopField bs i 96 5
def stopArg (bs : List Byte) (i : Nat) : Nat := stopField bs i 0 32

/-- The bytes that a RETURN stop writes: the data, or with `WH` the whole capsule. -/
def returnBytes (bs : List Byte) (i : Nat) : List Byte := if (stopArg bs i).testBit 31 then bs.take headSize ++ capData bs else capData bs

/-- R332: a field that its stop kind does not use is set, or a RETURN's range runs past the scratchpad. -/
def stopStray (bs : List Byte) (i : Nat) : Bool :=
  let hs := stopField bs i 96 13
  let arg := stopArg bs i
  match stopKind bs i with
  | 0 => false
  | 1 => decide (stopDest bs i % 1024 ≠ 0 ∨ hs ≠ 0 ∨ arg ≠ 0)
  | 2 => decide (stopDest bs i ≠ 0 ∨ hs ≠ 0)
  | 3 => decide (hs ≠ 0 ∨ bitsAt arg 30 1 ≠ 0 ∨ bitsAt arg 19 5 ≠ 0 ∨ arg % 16 ≠ 0
      ∨ scratchSize < bitsAt arg 0 19 + capLen bs + (if arg.testBit 31 then headSize else 0))
  | _ => decide (stopDest bs i ≠ 0 ∨ hs ≠ 0 ∨ arg ≠ 0)

/-- R341: why a capsule may not go towards stop i. [Assumption 37: DEDUCED.] -/
def stopRefusal (c : Ctx) (bs : List Byte) (i : Nat) : Option Nat :=
  let k := stopKind bs i
  if capStops bs ≤ i ∨ 4 < k ∨ stopField bs i 122 3 ≠ 0 ∨ stopField bs i 64 32 ≠ 0 ∨ stopField bs i 32 32 ≠ 0 then some 2
  else if (k = 0 ∨ k = 3) ∧ !c.holds (stopDest bs i) then some 1
  else if k = 1 ∧ !c.dies.contains (stopDest bs i / 1024) then some 1
  else if stopStray bs i then some 2 else none

/-! ### Diversion and parking (R346-R348) -/

/-- A capsule on its way over the capsule network, with what it is to do at its destination. -/
def State.sendCapsule (s : State) (src dst ctx : Nat) (act : Instr) (op : Operand) : State :=
  s.inject { s.packet vnCapsule ctx src dst act { op with tile := dst } with prio := capPrio op.bytes }

/-- R332, R436: a capsule's return, which writes its data at its stop: to another die a stamped burst. -/
def State.sendReturn (s : State) (src dst ctx : Nat) (op : Operand) : State :=
  if dieOf src = dieOf dst then s.sendCapsule src dst ctx .capsuleReturnDelivery op
  else
    let (i, s) := s.newBurst (dieOf src) (dieOf dst) src .other 0 .capsuleReturnDelivery { op with tile := dst }
    s.inject { s.packet vnCapsule ctx src dst .capsuleReturnDelivery { op with tile := dst } with prio := capPrio op.bytes, burst := some i }

/-- R346: the stop that a stand-in goes to: the first MEET at or after a stop. [Assumption 40: DEDUCED.] -/
def standInStop (c : Ctx) (bs : List Byte) (stop : Nat) : Option Nat :=
  (List.range (capStops bs)).find? fun j => decide (stop ≤ j) && decide (stopKind bs j = 1) && (stopRefusal c bs j).isNone

/-- R341, R347: the head of a capsule that goes into a spill cell. -/
def spillHead (bs : List Byte) (code stop : Nat) : List Byte := setHead (setHead bs 3 48 16 code) 3 44 4 stop

/-- R467: a capsule diverted or parked, at a tile or, by its die alone, at a Mordant. -/
def State.tallyDivert (s : State) (at_ : Nat) (mordant : Bool) : State := if mordant then s.tallyDie (dieOf at_) 25 1 else s.tally at_ 25 1

/-- R346, R347: a capsule diverted at a tile or a Mordant, and its stand-in. -/
def State.divert (s : State) (src ctx : Nat) (bs : List Byte) (code stop : Nat) (mordant : Bool := false) : State :=
  let cap := spillHead bs code stop
  let s := (s.tallyDivert src mordant).ringEntry ctx ⟨false, 0, 2, code, cap⟩
  if capFpol bs = 1 then
    match standInStop (s.ctx ctx) bs stop with
    | some j => s.sendCapsule src (edgeTile (stopDest bs j / 1024)) ctx .meetArrival
        { Operand.zero with node := stopDest bs j / 1024, arg := j, id := ctx, bytes := setHead cap 0 7 4 j, flag := true }
    | none => s
  else s

/-- R348: a capsule parked. [Assumption 40: DEDUCED.] -/
def State.parkCapsule (s : State) (at_ : Nat) (bs : List Byte) (code : Nat) : State :=
  (s.tallyDivert at_ false).ringEntry (capCtx bs) ⟨true, 0, 2, code, spillHead bs code (capCur bs)⟩

/-! ### Sending (R332, R339, R341) -/

/-- R332, R344: a capsule's data written to a virtual address of its context; the capsule comes along, for a fault diverts it. [Assumption 39: DEDUCED.] -/
def State.storeCapsule (s : State) (src ctx va : Nat) (bs : List Byte) (mordant : Bool) : State :=
  s.later 50 .hbmWrite { Operand.zero with tile := src, id := ctx, arg := 5, word := BitVec.ofNat 64 (va % 2 ^ 52), bytes := bs, flag := mordant }

/-- R332, R341, R393: a capsule sent towards its stop `CUR` by a tile or a Mordant, whose own parks where its first hop lies in a stopped region. [Assumption
37: DEDUCED.] [Assumption 37: DEDUCED.] -/
def State.capSend (s : State) (src ctx : Nat) (bs : List Byte) (mordant : Bool := false) : State :=
  let bs := setHead bs 0 20 12 ctx
  let i := capCur bs
  if (s.ctx ctx).st = .destroyed then s
  else match stopRefusal (s.ctx ctx) bs i with
    | some code => s.divert src ctx bs code i mordant
    | none =>
      let op : Operand := { Operand.zero with id := ctx, arg := i, bytes := bs }
      if mordant && decide (stopKind bs i ≠ 2) && (s.tile src).stopped && (s.ctx ctx).holds src then s.parkCapsule src bs 0xFFFC
      else
      match stopKind bs i with
      | 0 => s.sendCapsule src (stopDest bs i) ctx .capsuleArrival op
      | 1 => s.sendCapsule src (edgeTile (stopDest bs i / 1024)) ctx .meetArrival { op with node := stopDest bs i / 1024 }
      | 2 => s.storeCapsule src ctx (capAux bs + stopArg bs i) bs mordant
      | 3 => s.sendReturn src (stopDest bs i) ctx op
      | _ => s.divert src ctx bs 0xFF i mordant

end Sys2Proof.Machine
end

