-- ==== Sys2Proof/Machine/Vec.lean ====
section
/-! DEFINITION. VEC (R178, R179): lane-by-lane arithmetic. -/

namespace Sys2Proof.Machine

/-! ### Element-wise shapes -/

/-- Element numbers of a wide value. -/
def elemNat (w : Nat) (x : Wide) (e : Nat) : Nat := (elem w x e).toNat

/-- A floating-point operation on every element of a view, o0 and T (R178). -/
def fpMap2 (w : Nat) (f : Nat → Nat → Nat × BitVec 10) (o : Opnds) : Wide × BitVec 10 :=
  ofElemsFlags w (1024 / w) fun e => f (elemNat w o.o0 e) (elemNat w o.t e)

/-- The same on o0, o1 and T. -/
def fpMap3 (w : Nat) (f : Nat → Nat → Nat → Nat × BitVec 10) (o : Opnds) : Wide × BitVec 10 :=
  ofElemsFlags w (1024 / w) fun e => f (elemNat w o.o0 e) (elemNat w o.o1 e) (elemNat w o.t e)

/-- A flagless operation on the 32-bit lanes of o0 and T. -/
def laneMap2 (f : BitVec 32 → BitVec 32 → BitVec 32) (o : Opnds) : Wide × BitVec 10 :=
  (ofElems 32 32 fun i => f (elem 32 o.o0 i) (elem 32 o.t i), 0)

/-- R178: a product of FP16 elements, exact in FP32, with `INV` for 0 × ∞ alone. -/
def mulWiden (a b : Nat) : Nat × BitVec 10 :=
  let r := numMul (fp16.decode a) (fp16.decode b)
  ((fp32.rne r.1).1, r.2)

/-- R178 `adds.i8` on one byte. -/
def addSat8 (a b : BitVec 8) : Nat × BitVec 10 :=
  let v := a.toInt + b.toInt
  if v < -128 then (0x80, flagSAT) else if 127 < v then (0x7F, flagSAT) else ((BitVec.ofInt 8 v).toNat, 0)

/-- R178 `dot4.i8` on lane i. -/
def dot4Lane (a b : Wide) (i : Nat) : BitVec 32 :=
  BitVec.ofInt 32 (((List.range 4).map fun k => (elem 8 a (4 * i + k)).toInt * (elem 8 b (4 * i + k)).toInt).sum)

/-- R178 `abs.f32` on one lane: bit 31 cleared, NaN canonical. -/
def absLane (x : BitVec 32) : BitVec 32 :=
  if (fp32.decode x.toNat).isNan then BitVec.ofNat 32 fp32.nanCode else x &&& 0x7FFFFFFF

/-! ### The instructions -/

/-- R178: a VEC operation of o0 and T. -/
def State.vec2 (s : State) (lat : Nat) (t : Trig) (f : Opnds → Wide × BitVec 10) : Host.Outcome State Fault Refusal :=
  s.compute 10 lat { use0 := true } t f

/-- R178: a VEC operation of o0, o1 and T. -/
def State.vec3 (s : State) (lat : Nat) (t : Trig) (f : Opnds → Wide × BitVec 10) : Host.Outcome State Fault Refusal :=
  s.compute 10 lat { use0 := true, use1 := true } t f

/-- R178 `add.f32`. -/
def execAddF32 (t : Trig) (s : State) : Host.Outcome State Fault Refusal := s.vec2 3 t (fpMap2 32 fp32.add)

/-- R178 `sub.f32`. -/
def execSubF32 (t : Trig) (s : State) : Host.Outcome State Fault Refusal := s.vec2 3 t (fpMap2 32 fp32.sub)

/-- R178 `mul.f32`. -/
def execMulF32 (t : Trig) (s : State) : Host.Outcome State Fault Refusal := s.vec2 4 t (fpMap2 32 fp32.mul)

/-- R178 `fma.f32`, one rounding. -/
def execFmaF32 (t : Trig) (s : State) : Host.Outcome State Fault Refusal := s.vec3 4 t (fpMap3 32 fp32.fma)

/-- R179 `min.f32`. -/
def execMinF32 (t : Trig) (s : State) : Host.Outcome State Fault Refusal :=
  s.vec2 3 t (fpMap2 32 fun a b => (fp32.minOf a b, 0))

/-- R179 `max.f32`. -/
def execMaxF32 (t : Trig) (s : State) : Host.Outcome State Fault Refusal :=
  s.vec2 3 t (fpMap2 32 fun a b => (fp32.maxOf a b, 0))

/-- R178 `abs.f32`. -/
def execAbsF32 (t : Trig) (s : State) : Host.Outcome State Fault Refusal :=
  s.compute 10 3 {} t fun o => (ofElems 32 32 fun i => absLane (elem 32 o.t i), 0)

/-- R178 `add.h`. -/
def execAddH (t : Trig) (s : State) : Host.Outcome State Fault Refusal := s.vec2 3 t (fpMap2 16 fp16.add)

/-- R178 `mul.h`. -/
def execMulH (t : Trig) (s : State) : Host.Outcome State Fault Refusal := s.vec2 4 t (fpMap2 16 fp16.mul)

/-- R178 `fma.h`. -/
def execFmaH (t : Trig) (s : State) : Host.Outcome State Fault Refusal := s.vec3 4 t (fpMap3 16 fp16.fma)

/-- R178 `mulwl.h`: the low 32 elements. -/
def execMulwlH (t : Trig) (s : State) : Host.Outcome State Fault Refusal :=
  s.vec2 5 t fun o => ofElemsFlags 32 32 fun i => mulWiden (elemNat 16 o.o0 i) (elemNat 16 o.t i)

/-- R178 `mulwh.h`: the high 32 elements. -/
def execMulwhH (t : Trig) (s : State) : Host.Outcome State Fault Refusal :=
  s.vec2 5 t fun o => ofElemsFlags 32 32 fun i => mulWiden (elemNat 16 o.o0 (32 + i)) (elemNat 16 o.t (32 + i))

/-- R178 `add.b`. -/
def execAddB (t : Trig) (s : State) : Host.Outcome State Fault Refusal := s.vec2 3 t (fpMap2 16 bf16.add)

/-- R178 `fma.b`. -/
def execFmaB (t : Trig) (s : State) : Host.Outcome State Fault Refusal := s.vec3 4 t (fpMap3 16 bf16.fma)

/-- R178 `add.i32`. -/
def execAddI32 (t : Trig) (s : State) : Host.Outcome State Fault Refusal := s.vec2 2 t (laneMap2 fun a b => a + b)

/-- R178 `sub.i32`. -/
def execSubI32 (t : Trig) (s : State) : Host.Outcome State Fault Refusal := s.vec2 2 t (laneMap2 fun a b => a - b)

/-- R178 `mul.i32`. -/
def execMulI32 (t : Trig) (s : State) : Host.Outcome State Fault Refusal := s.vec2 4 t (laneMap2 fun a b => a * b)

/-- R178 `dot4.i8`. -/
def execDot4I8 (t : Trig) (s : State) : Host.Outcome State Fault Refusal :=
  s.vec2 4 t fun o => (ofElems 32 32 fun i => dot4Lane o.o0 o.t i, 0)

/-- R178 `adds.i8`. -/
def execAddsI8 (t : Trig) (s : State) : Host.Outcome State Fault Refusal :=
  s.vec2 2 t fun o => ofElemsFlags 8 128 fun e => addSat8 (elem 8 o.o0 e) (elem 8 o.t e)

/-- R178 `and`. -/
def execVecAnd (t : Trig) (s : State) : Host.Outcome State Fault Refusal := s.vec2 1 t fun o => (o.o0 &&& o.t, 0)

/-- R178 `or`. -/
def execVecOr (t : Trig) (s : State) : Host.Outcome State Fault Refusal := s.vec2 1 t fun o => (o.o0 ||| o.t, 0)

/-- R178 `xor`. -/
def execVecXor (t : Trig) (s : State) : Host.Outcome State Fault Refusal := s.vec2 1 t fun o => (o.o0 ^^^ o.t, 0)

/-- R178 `shl`. -/
def execVecShl (t : Trig) (s : State) : Host.Outcome State Fault Refusal :=
  s.vec2 1 t (laneMap2 fun a b => a <<< (b &&& 31).toNat)

/-- R178 `shr`. -/
def execVecShr (t : Trig) (s : State) : Host.Outcome State Fault Refusal :=
  s.vec2 1 t (laneMap2 fun a b => a >>> (b &&& 31).toNat)

/-- R178 `sar`. -/
def execVecSar (t : Trig) (s : State) : Host.Outcome State Fault Refusal :=
  s.vec2 1 t (laneMap2 fun a b => a.sshiftRight (b &&& 31).toNat)

/-- R178 `sel`: any non-zero lane of A selects B. -/
def execVecSel (t : Trig) (s : State) : Host.Outcome State Fault Refusal :=
  s.vec3 1 t fun o => (ofElems 32 32 fun i => if elem 32 o.o0 i ≠ 0 then elem 32 o.o1 i else elem 32 o.t i, 0)

end Sys2Proof.Machine
end

