-- ==== Sys2Proof/Machine/Nodes.lean ====
section
/-! DEFINITION. What a collar node does with one token (R245, R250-R266): pure functions of the node. -/

namespace Sys2Proof.Machine

/-! ### Kinds and fields (R18, R250) -/

inductive NodeKind where
  | decode | norm | gate | promote | affine | activate | convert | corner | reduce | smax | join | port
deriving DecidableEq, Repr

/-- R18: the kind of a node by its number. -/
def nodeKind (n : Nat) : NodeKind :=
  if n < 12 then (match n % 3 with | 0 => .decode | 1 => .norm | _ => .gate)
  else if n < 44 then (match n % 4 with | 0 => .promote | 1 => .affine | 2 => .activate | _ => .convert)
  else match n with | 44 => .corner | 45 => .reduce | 46 => .smax | 47 => .join | _ => .port

/-- R285: a ring node or PORT without an input source and an output destination. [Assumption 33: DEDUCED.] -/
def Plane.idle (p : Plane) : Bool := p.sel.isEmpty && p.dst.isEmpty

/-- A lane node that has `BYP` (R250). -/
def NodeKind.bypasses : NodeKind → Bool
  | .decode | .norm | .gate | .affine | .activate | .convert => true
  | _ => false

def NodeKind.ring : NodeKind → Bool
  | .corner | .reduce | .smax | .join => true
  | _ => false

/-- Bits of a parameter register. -/
def Plane.fld (p : Plane) (r lo n : Nat) : Nat := bitsAt (p.p.getD r 0).toNat lo n
def Plane.flag (p : Plane) (r b : Nat) : Bool := (p.p.getD r 0).getLsbD b

def Plane.byp (p : Plane) : Bool := p.flag 0 63
def Plane.fsrc (p : Plane) : Bool := p.flag 0 59
def Plane.fmtField (p : Plane) : Nat := p.fld 0 52 4
def Plane.amode (p : Plane) : Nat := p.fld 0 49 3
def Plane.ssrc (p : Plane) : Nat := p.fld 0 46 2
def Plane.klen (p : Plane) : Nat := p.fld 0 0 32
def Plane.coop (p : Plane) : Bool := p.flag 0 62
def Plane.gen (p : Plane) : Bool := p.flag 0 61
def Plane.rm (p : Plane) : Nat := p.fld 0 50 2
def Plane.sat (p : Plane) : Bool := p.flag 0 49
def Plane.seed (p : Plane) : Nat := p.fld 0 0 32
def Plane.along (p : Plane) : Bool := p.flag 0 2
def Plane.rop (p : Plane) : Nat := p.fld 0 0 2
def Plane.inm (p : Plane) : Nat := p.fld 0 4 4
def Plane.jm (p : Plane) : Nat := p.fld 0 0 2
def Plane.dir (p : Plane) : Nat := p.fld 0 61 3
def Plane.ordt (p : Plane) : Bool := p.flag 0 60
def Plane.fnet (p : Plane) : Bool := p.flag 0 59
/-- R267: the `EDGE` field to PORT k: enable and scope. -/
def Plane.edge (p : Plane) (k : Nat) : Bool × Nat := (p.flag 0 (49 + 3 * k), p.fld 0 (47 + 3 * k) 2)
def Plane.spb (p : Plane) : Nat := 64 * p.fld 0 6 13

/-- Bits lo to lo + n - 1. -/
def bitsMask (lo n : Nat) : W64 := (BitVec.ofNat 64 (2 ^ n - 1)) <<< lo

/-- R250, R253-R267: the assigned bits of P0, P1 and P2 of each kind; the others are reserved. -/
def assignedBits : NodeKind → List W64
  | .decode => [bitsMask 63 1 ||| bitsMask 59 1 ||| bitsMask 52 4 ||| bitsMask 49 3 ||| bitsMask 46 2 ||| bitsMask 0 32, bitsMask 0 32]
  | .norm => [bitsMask 61 3 ||| bitsMask 0 1, bitsMask 0 64]
  | .gate => [bitsMask 63 1 ||| bitsMask 0 2, bitsMask 0 32]
  | .promote => [bitsMask 0 1]
  | .affine => [bitsMask 63 1 ||| bitsMask 12 9 ||| bitsMask 0 3]
  | .activate => [bitsMask 63 1 ||| bitsMask 0 2, bitsMask 0 64, bitsMask 0 32]
  | .convert => [bitsMask 63 1 ||| bitsMask 59 1 ||| bitsMask 52 4 ||| bitsMask 49 3 ||| bitsMask 0 32]
  | .corner => [bitsMask 0 4]
  | .reduce => [bitsMask 4 4 ||| bitsMask 0 3]
  | .smax => [bitsMask 0 32]
  | .join => [bitsMask 0 2]
  | .port => [bitsMask 47 17 ||| bitsMask 6 13]

def Plane.reservedSet (p : Plane) (k : NodeKind) : Bool :=
  (List.range 8).any fun r => p.p.getD r 0 &&& ~~~((assignedBits k).getD r 0) ≠ 0

/-! ### Formats and tokens (R32, R245, R251) -/

/-- R32: bytes of an element of a format code. -/
def elemBytes (fmt : Nat) : Nat :=
  if fmt = 0 ∨ fmt = 6 then 4 else if fmt = 1 ∨ fmt = 2 then 2 else 1

/-- The floating-point format of a code. -/
def codeFmt (fmt : Nat) : Fmt :=
  match fmt with | 0 => fp32 | 1 => fp16 | 2 => bf16 | 4 => e5m2 | 8 => e5m2 | _ => e4m3

def Tok.count (x : Tok) : Nat := 16 / elemBytes x.fmt
def Tok.elem (x : Tok) (w e : Nat) : Nat := (x.data.extractLsb' (w * e) w).toNat

/-- Elements of w bits packed into a payload. -/
def packData (w : Nat) (l : List Nat) : BitVec 128 := BitVec.ofNat 128 (l.reverse.foldl (fun acc v => acc * 2 ^ w + v % 2 ^ w) 0)

/-- Mask bits by element. -/
def packMask (l : List Bool) : BitVec 16 := BitVec.ofNat 16 (l.reverse.foldl (fun acc b => 2 * acc + (if b then 1 else 0)) 0)

/-- A data token. -/
def dataTok (h t sv : Bool) (fmt : Nat) (mask : BitVec 16) (scl : BitVec 32) (data : BitVec 128) : Tok := ⟨0, h, t, sv, fmt, mask, scl, data, 0, false, false⟩

/-- R251: the sticky bits of `NS` that arithmetic flags set. -/
def nsBits (f : BitVec 10) : W64 :=
  (if f &&& flagINV ≠ 0 then 32 else 0) ||| (if f &&& flagOVF ≠ 0 then 16 else 0) ||| (if f &&& flagUNF ≠ 0 then 8 else 0)
    ||| (if f &&& flagINX ≠ 0 then 4 else 0) ||| (if f &&& flagSAT ≠ 0 then 2 else 0)

def Node.flags (nd : Node) (f : BitVec 10) : Node := { nd with ns := nd.ns ||| nsBits f }

/-- An FP32 word of the node store. -/
def Node.word (nd : Node) (a : Nat) : Nat := SMap.get nd.store 0 (a / 4)

/-- R293: whether `cres` has told the node to take the offending token as a burst's tail. -/
def Node.forced (nd : Node) : Bool := (nd.resume.map fun r => decide (r.1 = 2)).getD false

/-- What a node does with a token: its new state and its outputs, or a node cause and its detail (R252). -/
abbrev NodeStep := Except (Nat × Nat) (Node × List Tok)

/-- Elements computed one after another, flags joined. -/
def mapFlags (l : List Nat) (f : Nat → Nat → Nat × BitVec 10) : List Nat × BitVec 10 :=
  (l.zipIdx).foldl (fun acc p => let r := f p.2 p.1; (acc.1 ++ [r.1], acc.2 ||| r.2)) ([], 0)

/-- R250: a token whose `FMT` is another is refused. -/
def Tok.needs (x : Tok) (fmt : Nat) : Bool := decide (x.fmt = fmt)

/-! ### DECODE (R33-R35, R253-R255) -/

/-- R33: the native format of an array mode. -/
def nativeFmt (mode : Nat) : Nat :=
  if mode ≤ 2 then 3 else if mode ≤ 4 then 5 else if mode = 5 then 1 else 2

/-- R33: the activation formats that DECODE takes for a mode. [Assumption 31: DEDUCED.] -/
def decodeTakes (mode fmt : Nat) : Bool :=
  match nativeFmt mode with
  | 3 => [3, 4, 7, 8].contains fmt
  | 5 => fmt == 5
  | 1 => [1, 4, 0].contains fmt
  | _ => [2, 0].contains fmt

/-- R254: elements of an output token. -/
def decodeE (mode : Nat) : Nat := if mode = 1 ∨ mode = 2 ∨ mode = 4 then 16 else 8

/-- R49, R253: the input format. -/
def Node.decodeFmt (nd : Node) (p : Plane) : Nat := if p.fsrc then bitsAt nd.snap.toNat 38 4 else p.fmtField

/-- R35: the code of block j of a vector. [Assumption 31: DEDUCED.] -/
def mxCode (codes j : Nat) : Nat := codes / 2 ^ (8 * j) % 256

/-- R35: emax of the blocks of the vector at position v0 that K reaches. -/
def mxEmax (codes klen v0 : Nat) : Nat :=
  let es := (List.range 4).filterMap fun j =>
    if (klen = 0 ∨ v0 + 32 * j < klen) ∧ mxCode codes j ≠ 255 then some (mxCode codes j) else none
  if es.isEmpty then 127 else es.foldl max 0

/-- A value times a power of two. -/
def scaleNum (x : Num) (k : Int) : Num := match x with | .fin s m e => .fin s m (e + k) | y => y

/-- R35: the scale of an imported vector. -/
def mxScale (fmt codes klen v0 : Nat) : Nat :=
  (fp32.rne (.fin false 1 ((mxEmax codes klen v0 : Int) - 127 + (if fmt = 8 then 8 else 0)))).1

/-- R33-R35: an element of position p in the native format. -/
def decodeElem (fmt native codes klen p v : Nat) : Nat × BitVec 10 :=
  if fmt = native then (v, 0)
  else
    let x := (codeFmt fmt).decode v
    if fmt = 7 ∨ fmt = 8 then
      let e := mxCode codes (p % 128 / 32)
      match x with
      | .fin .. =>
        if e = 255 then (e4m3.nanCode, 0)
        else e4m3.rne (scaleNum x ((e : Int) - mxEmax codes klen (p - p % 128) - (if fmt = 8 then 8 else 0)))
      | _ => (e4m3.nanCode, 0)
    else if native = 3 then e4m3.rne (scaleNum x (-8))
    else (codeFmt native).rne x

/-- R254: the place of the next element in the row: the lane's part of it and the row's position. -/
def decodePos (p : Plane) (lane n k : Nat) : Nat :=
  let E := decodeE p.amode
  let nt := (p.klen + 4 * E - 1) / (4 * E)
  4 * E * (if nt = 0 then n else n % nt) + E * lane + k

/-- R254, R255: the scale of output token n, by the scales of the scratchpad array. -/
def Node.decodeScale (nd : Node) (p : Plane) (lane n : Nat) (array : Nat → BitVec 32) : BitVec 32 × BitVec 10 :=
  let E := decodeE p.amode
  let nt := (p.klen + 4 * E - 1) / (4 * E)
  let pos := decodePos p lane n 0
  let fmt := nd.decodeFmt p
  let named : Option (BitVec 32) :=
    if p.ssrc = 1 then some (array (bitsAt nd.snap.toNat 2 17 * 4 + 4 * (n / nt * ((p.klen + 127) / 128) + pos / 128)))
    else if p.ssrc = 2 then some (BitVec.ofNat 32 (p.fld 1 0 32)) else none
  if fmt = 7 ∨ fmt = 8 then
    let sa := mxScale fmt nd.codes p.klen (pos - pos % 128)
    match named with
    | none => (BitVec.ofNat 32 sa, 0)
    | some x => let r := fp32.mul sa x.toNat; (BitVec.ofNat 32 r.1, r.2)
  else
    let base := named.getD nd.scale
    if fmt = 4 then let r := fp32.mul base.toNat 0x43800000; (BitVec.ofNat 32 r.1, r.2)
    else (base, 0)

/-- R254: one element packed; a full token is emitted. The element with which the lane's part of a vector begins brings the codes of the token that it
stands in, whose lack of `SV` leaves them open (R255). -/
def Node.decodeOne (p : Plane) (lane : Nat) (array : Nat → BitVec 32) (free : W64) (tok : Tok) (acc : Node × List Tok) (v : Nat) : Node × List Tok :=
  let (nd, outs) := acc
  let E := decodeE p.amode
  let n := nd.cnt
  let nt := (p.klen + 4 * E - 1) / (4 * E)
  let begins := (decide (nd.decodeFmt p = 7) || decide (nd.decodeFmt p = 8)) && decide (decodePos p lane n nd.elems.length % 128 = E * lane)
  let nd := if begins then { nd with codes := if tok.sv then tok.scl.toNat else free.toNat % 2 ^ 32 } else nd
  let r := decodeElem (nd.decodeFmt p) (nativeFmt p.amode) nd.codes p.klen (decodePos p lane n nd.elems.length) v
  let marks := if nd.elems.isEmpty then (if tok.h then 1#2 else 0#2) else nd.marks
  let nd := ({ nd with elems := nd.elems ++ [(r.1, true)], marks := marks } : Node).flags r.2
  if nd.elems.length < E then (nd, outs)
  else
    let mask := packMask ((List.range E).map fun e => decide (p.klen = 0) || decide (decodePos p lane n e < p.klen))
    let h := if nt = 0 then marks.getLsbD 0 else decide (n % nt = 0)
    let t := if nt = 0 then tok.t else decide (n % nt = nt - 1)
    let sc := if p.amode < 5 then nd.decodeScale p lane n array else (0, 0)
    let out := dataTok h t (decide (p.amode < 5)) (nativeFmt p.amode) mask sc.1 (packData (8 * elemBytes (nativeFmt p.amode)) (nd.elems.map Prod.fst))
    (({ nd with cnt := n + 1, elems := [], marks := 0 } : Node).flags sc.2, outs ++ [out])

/-- R254, R255: a token at DECODE. [Assumption 31: DEDUCED.] -/
def Node.decodeToken (nd : Node) (lane : Nat) (array : Nat → BitVec 32) (free : W64) (tok : Tok) : NodeStep :=
  let p := nd.active
  let fmt := nd.decodeFmt p
  if !tok.needs fmt then .error (5, 0)
  else
    let nd := if fmt ≠ 7 ∧ fmt ≠ 8 ∧ tok.sv then { nd with scale := tok.scl } else nd
    let w := 8 * elemBytes fmt
    .ok (((List.range tok.count).map (tok.elem w)).foldl (Node.decodeOne p lane array free tok) (nd, []))

/-! ### NORM (R256, R257) -/

def Node.normFmt (nd : Node) : Fmt := if nd.active.flag 0 0 then bf16 else fp16

/-- R257: the row's sum of squares on this lane. -/
def Node.normSquares (nd : Node) : BitVec 32 × BitVec 10 :=
  let f := nd.normFmt
  let r := nd.row.foldl (fun acc x => (List.range 8).foldl (fun (acc : Nat × BitVec 10) e =>
    if x.mask.getLsbD e then
      let v := f.decode (x.elem 16 e)
      let r := fp32.finish (numFma v v (fp32.decode acc.1))
      (r.1, acc.2 ||| r.2)
    else acc) acc) ((0 : Nat), (0 : BitVec 10))
  (BitVec.ofNat 32 r.1, r.2)

/-- R257: the row's elements normalised with r; gamma is 1.0 from element 2,048 on. -/
def Node.normRow (nd : Node) (r : Nat) : List Tok × BitVec 10 :=
  let f := nd.normFmt
  (nd.row.zipIdx).foldl (fun acc x =>
    let res := mapFlags ((List.range 8).map (x.1.elem 16)) fun e v =>
      if x.1.mask.getLsbD e then
        let k := 8 * x.2 + e
        let a := fp32.finish (numMul (f.decode v) (fp32.decode r))
        let g := if nd.active.gen ∧ k < 2048 then nd.word (4 * k) else 0x3F800000
        let b := fp32.mul a.1 g
        let y := f.rne (fp32.decode b.1)
        (y.1, a.2 ||| b.2 ||| y.2)
      else (v, 0)
    (acc.1 ++ [{ x.1 with data := packData 16 res.1 }], acc.2 ||| res.2)) ([], 0)

/-- R256: a token taken into the row. -/
def Node.normTake (nd : Node) (tok : Tok) : NodeStep :=
  if !tok.needs (if nd.active.flag 0 0 then 2 else 1) then .error (5, 0)
  else if nd.row.length = 1536 ∧ !nd.forced then .error (2, 0)
  else if nd.active.gen ∧ nd.row.length = 256 ∧ !nd.forced then .error (2, 2)
  else .ok ({ nd with row := nd.row ++ [{ tok with t := tok.t || nd.forced }] }, [])

/-- R257: whether the row under way is whole. -/
def Node.rowWhole (nd : Node) : Bool := (nd.row.getLast?.map Tok.t).getD false

/-- R257: r from the row's sum of squares, or nothing for node cause 1, and the flags of what was computed; for a row that cause 1 held, the r that `cres`
has given (R293). [Assumption 31: DEDUCED.] -/
def Node.normScale (nd : Node) (ss : Nat) : Option Nat × BitVec 10 :=
  let ms := fp32.mul ss (nd.active.fld 1 32 32)
  let d := fp32.add ms.1 (nd.active.fld 1 0 32)
  match nd.resume with
  | some (1, v) => (some (v.toNat % 2 ^ 32), ms.2 ||| d.2)
  | _ =>
    if d.1 % 2 ^ 31 = 0 then (none, ms.2 ||| d.2)
    else
      let r := fp32.finish (numRsq (fp32.decode d.1))
      (some r.1, ms.2 ||| d.2 ||| r.2)

/-! ### GATE (R258) -/

def Node.gateToken (nd : Node) (tok : Tok) : NodeStep :=
  let p := nd.active
  let m := p.fld 0 0 2
  if (m = 1 ∨ m = 3) ∧ tok.fmt ≠ 1 ∧ tok.fmt ≠ 2 then .error (5, 0)
  else
    let c := if tok.h then 0 else nd.cnt
    let nd := { nd with cnt := c + tok.count }
    match m with
    | 0 => .ok (nd, [tok])
    | 2 =>
      let keep := packMask ((List.range tok.count).map fun e => (nd.word ((c + e) % 262144 / 8)).testBit ((c + e) % 32))
      .ok (nd, [{ tok with mask := tok.mask &&& keep }])
    | _ =>
      let f := codeFmt tok.fmt
      let lim := p.fld 1 0 31
      let res := mapFlags ((List.range 8).map (tok.elem 16)) fun e v =>
        let x := (fp32.rne (f.decode v)).1
        let y := if m = 1 then fp32.mul x (nd.word (4 * ((c + e) % 8192)))
          else (fp32.minOf (fp32.maxOf x (2 ^ 31 + lim)) lim, 0)
        let z := f.rne (fp32.decode y.1)
        (z.1, y.2 ||| z.2)
      .ok (nd.flags res.2, [{ tok with data := packData 16 res.1 }])

/-! ### AFFINE, ACTIVATE, CONVERT (R260-R262) -/

def Node.affineToken (nd : Node) (tok : Tok) : NodeStep :=
  let p := nd.active
  let sen := p.flag 0 1
  let ben := p.flag 0 0
  if !tok.needs 0 then .error (5, 0)
  else
    let n := if tok.h then 0 else nd.cnt
    let nd := { nd with cnt := n + 1 }
    if !sen && !ben then .ok (nd, [tok])
    else
      let k := if p.flag 0 2 then (p.fld 0 12 9 + n) % 512 else p.fld 0 12 9
      let res := mapFlags ((List.range 4).map (tok.elem 32)) fun m x =>
        fp32.fma x (if sen then nd.word (32 * k + 4 * m) else 0x3F800000) (if ben then nd.word (32 * k + 16 + 4 * m) else 0)
      .ok (nd.flags res.2, [{ tok with data := packData 32 res.1 }])

/-- R261: the segment of u. -/
def segment (u : Nat) : Nat :=
  match fp32.decode u with
  | .nan => 0
  | .inf s => if s then 0 else 255
  | .fin s m e => if s then 0 else min 255 (if 0 ≤ e then m * 2 ^ e.toNat else m / 2 ^ (-e).toNat)

/-- R261: the function of one element. -/
def Node.activateElem (nd : Node) (x : Nat) : Nat × BitVec 10 :=
  let p := nd.active
  let v := fp32.decode x
  if v.isNan then (fp32.nanCode, 0)
  else match p.fld 0 0 2 with
    | 0 => (if numLess (.fin false 0 0) v then x else 0, 0)
    | 1 => if numLess v (.fin false 0 0) then fp32.mul x (p.fld 1 0 32) else (x, 0)
    | _ =>
      let d := fp32.sub x (p.fld 1 32 32)
      let u := fp32.mul d.1 (p.fld 2 0 32)
      let k := segment u.1
      let y := fp32.fma (nd.word (8 * k)) x (nd.word (8 * k + 4))
      (y.1, d.2 ||| u.2 ||| y.2)

def Node.activateToken (nd : Node) (tok : Tok) : NodeStep :=
  if !tok.needs 0 then .error (5, 0)
  else
    let res := mapFlags ((List.range 4).map (tok.elem 32)) fun _ x => nd.activateElem x
    .ok (nd.flags res.2, [{ tok with data := packData 32 res.1 }])

/-- R49, R262: the output format. -/
def Node.convertFmt (nd : Node) (p : Plane) : Nat := if p.fsrc then bitsAt nd.snap.toNat 46 4 else p.fmtField

/-- R262: one element narrowed. -/
def convertElem (fmt rm : Nat) (sat : Bool) (rnd x : Nat) : Nat × BitVec 10 :=
  let mode := match rm with | 0 => Round.rne | 1 => .rtz | 2 => .rna | _ => .sr16
  let v := fp32.decode x
  match fmt with
  | 5 => let r := numToInt 8 mode rnd v; ((BitVec.ofInt 8 r.1).toNat, r.2)
  | 6 => let r := numToInt 32 mode rnd v; ((BitVec.ofInt 32 r.1).toNat, r.2)
  | _ => (codeFmt fmt).narrow mode (sat && (decide (fmt = 3) || decide (fmt = 4))) rnd v

/-- R262: what is packed, as a token with or without the tail mark. -/
def Node.convertEmit (nd : Node) (fmt : Nat) (t : Bool) : Node × Tok :=
  ({ nd with elems := [], marks := 0, visit := false },
   { dataTok (nd.marks.getLsbD 0) t false fmt (packMask (nd.elems.map Prod.snd)) 0 (packData (8 * elemBytes fmt) (nd.elems.map Prod.fst)) with visit := nd.visit })

def Node.convertOne (fmt : Nat) (tok : Tok) (acc : Node × List Tok) (e : Nat) : Node × List Tok :=
  let (nd, outs) := acc
  let rm := nd.active.rm
  let rng := if rm = 3 then xorshift nd.rng else nd.rng
  let r := convertElem fmt rm nd.active.sat (randomWord rng) (tok.elem 32 e)
  let marks := if nd.elems.isEmpty then (if tok.h then 1#2 else 0#2) else nd.marks
  let nd := ({ nd with rng := rng, elems := nd.elems ++ [(r.1, tok.mask.getLsbD e)], marks := marks, visit := nd.visit || tok.visit } : Node).flags r.2
  if nd.elems.length * elemBytes fmt = 16 then
    let x := nd.convertEmit fmt (tok.t && decide (e = 3))
    (x.1, outs ++ [x.2])
  else (nd, outs)

def Node.convertToken (nd : Node) (tok : Tok) : NodeStep :=
  if !tok.needs 0 then .error (5, 0)
  else
    let fmt := nd.convertFmt nd.active
    let r := (List.range 4).foldl (Node.convertOne fmt tok) (nd, [])
    if tok.t ∧ !r.1.elems.isEmpty then
      let x := r.1.convertEmit fmt true
      .ok (x.1, r.2 ++ [x.2])
    else .ok r

/-! ### Ring nodes (R263-R266) -/

def cornerSide (p : Plane) : Nat := 4 * 2 ^ p.fld 0 0 2
def cornerBytes (p : Plane) : Nat := 4 / 2 ^ p.fld 0 2 2
/-- R263: tokens of a block. -/
def cornerTokens (p : Plane) : Nat := cornerSide p * cornerSide p * cornerBytes p / 16

/-- R263: a token taken into the block. -/
def Node.cornerTake (nd : Node) (tok : Tok) : NodeStep :=
  if tok.t ∧ nd.row.length + 1 ≠ cornerTokens nd.active ∧ !nd.forced then .error (2, 0)
  else .ok ({ nd with row := nd.row ++ [tok] }, [])

/-- R263: the transposed block. Scale sidebands are left open. -/
def Node.cornerEmit (nd : Node) (free : W64) : List Tok :=
  let n := cornerSide nd.active
  let b := cornerBytes nd.active
  let per := 16 / b
  let at_ (i : Nat) : Nat × Bool := -- element i of the block in row order
    match nd.row[i / per]? with
    | some x => (x.elem (8 * b) (i % per), x.mask.getLsbD (i % per))
    | none => (0, false)
  let count := cornerTokens nd.active
  (List.range count).map fun k =>
    let es := (List.range per).map fun e => let i := per * k + e; at_ (i % n * n + i / n)
    dataTok (decide (k = 0) && nd.row.any Tok.h) (decide (k = count - 1) && nd.row.any Tok.t) (free.getLsbD 32) ((nd.row.headD (dataTok false false false 0 0 0 0)).fmt)
      (packMask (es.map Prod.snd)) (free.setWidth 32) (packData (8 * b) (es.map Prod.fst))

/-- R264: live values combined in order. -/
def combine (rop : Nat) (acc : Option Nat) (x : Nat) (live : Bool) : Option Nat :=
  if !live then acc
  else match acc with
    | none => some (fp32.maxOf x x)
    | some a => some (if rop = 0 then (fp32.add a x).1 else fp32.maxOf a x)

/-- Four combined elements and their mask. -/
def combined (l : List (Option Nat)) : BitVec 128 × BitVec 16 := (packData 32 (l.map fun v => v.getD 0), packMask (l.map Option.isSome))

/-- R264: one token of every input in use, combined across. -/
def reduceAcross (rop : Nat) (toks : List Tok) (free : W64) : Tok :=
  let r := combined ((List.range 4).map fun e => toks.foldl (fun acc x => combine rop acc (x.elem 32 e) (x.mask.getLsbD e)) none)
  let m := toks.headD (dataTok false false false 0 0 0 0)
  dataTok m.h m.t (free.getLsbD 32) 0 r.2 (free.setWidth 32) r.1

/-- Whether the marks of tokens agree. -/
def marksAgree (toks : List Tok) : Bool :=
  match toks with
  | [] => true
  | a :: r => r.all fun b => a.h == b.h && a.t == b.t

/-- R264: one token along its burst; what is combined so far stands in `elems`. -/
def Node.reduceAlong (nd : Node) (tok : Tok) : Node :=
  let old (e : Nat) : Option Nat := match nd.elems[e]? with | some (v, true) => some v | _ => none
  let r := (List.range 4).map fun e => combine nd.active.rop (old e) (tok.elem 32 e) (tok.mask.getLsbD e)
  { nd with elems := r.map fun v => (v.getD 0, v.isSome) }

/-- R264: the burst's token. -/
def Node.reduceEmit (nd : Node) (free : W64) : Node × Tok :=
  ({ nd with elems := [] }, dataTok true true (free.getLsbD 32) 0 (packMask (nd.elems.map Prod.snd)) (free.setWidth 32) (packData 32 (nd.elems.map Prod.fst)))

/-- R265: a token taken into the row. -/
def Node.smaxTake (nd : Node) (tok : Tok) : NodeStep :=
  if !tok.needs 0 then .error (5, 0)
  else if nd.row.length = 2048 ∧ !nd.forced then .error (2, 0)
  else .ok ({ nd with row := nd.row ++ [{ tok with t := tok.t || nd.forced }] }, [])

/-- R265: the softmax of the row. -/
def Node.smaxRow (nd : Node) : List Tok :=
  let sc := nd.active.fld 0 0 32
  let xs := nd.row.flatMap fun x => (List.range 4).map fun e => (x.elem 32 e, x.mask.getLsbD e)
  let zs := xs.map fun p => ((fp32.mul p.1 sc).1, p.2)
  let live := (zs.filter Prod.snd).map Prod.fst
  let m := live.tail.foldl fp32.maxOf (live.headD 0)
  let es := zs.map fun p => (if p.2 then (fp32.finish (numExp2 (fp32.decode (fp32.sub p.1 m).1))).1 else 0, p.2)
  let s := ((es.filter Prod.snd).map Prod.fst).foldl (fun a x => (fp32.add a x).1) 0
  let inv := (fp32.finish (numRcp (fp32.decode s))).1
  let bad := live.any fun z => (fp32.decode z).isNan
  let y (i : Nat) : Nat := match es[i]? with
    | some (e, true) => if bad then fp32.nanCode else (fp32.mul e inv).1
    | _ => 0
  nd.row.zipIdx.map fun x => { x.1 with data := packData 32 ((List.range 4).map fun e => y (4 * x.2 + e)) }

/-- R266: the elementwise sum of a token of A and one of B; what the manual does not say of a mask where they differ, and of the scale, stays
open. -/
def joinSum (a b : Tok) (free : W64) : Tok :=
  { a with data := packData 32 ((List.range 4).map fun e => (fp32.add (a.elem 32 e) (b.elem 32 e)).1)
           mask := (a.mask &&& b.mask) ||| ((a.mask ^^^ b.mask) &&& free.extractLsb' 33 16), sv := free.getLsbD 32, scl := free.setWidth 32 }

/-! ### PROMOTE (R36-R38, R235, R242-R244, R259) -/

/-- The exact column sum and scale of an entry: what is added to an accumulator (R38). -/
def ArrEntry.term (e : ArrEntry) (c : Nat) : Num :=
  let v := e.sums.getD c 0
  if e.mode = 5 ∨ e.mode = 6 then fp32.decode v.toNat
  else if e.nans.getLsbD c then .nan
  else match intNum v with
    | .fin s m k => .fin s m (if e.mode ≤ 2 then k - 18 else k)
    | y => y

/-- R235, R259: an accumulator updated. -/
def accUpdate (e : ArrEntry) (c acc : Nat) : Nat × BitVec 10 :=
  let a := fp32.decode acc
  if e.mode = 5 ∨ e.mode = 6 then fp32.finish (numAdd a (e.term c))
  else
    let s := fp32.mul e.sa.toNat e.sb.toNat
    let r := fp32.finish (numFma (e.term c) (fp32.decode s.1) a)
    r

/-- R235: a push's or pusha's entry at PROMOTE of exit lane j. -/
def Node.promoteEntry (nd : Node) (j : Nat) (e : ArrEntry) : Node :=
  (List.range 4).foldl (fun (nd : Node) m =>
    let k := 4 * e.row + m
    let old := if e.kind = .push then 0 else SMap.get nd.store 0 k
    let r := accUpdate e (4 * j + m) old
    let finite (v : Nat) : Bool := match fp32.decode v with | .fin .. => true | _ => false
    let nd := ({ nd with store := SMap.setD nd.store 0 k r.1 } : Node).flags r.2
    if finite old && !finite r.1 then { nd with ns := nd.ns ||| 1 } else nd) nd

/-- Rows of accumulators set to +0. -/
def Node.clearRow (nd : Node) (row : Nat) : Node :=
  { nd with store := (List.range 4).foldl (fun st m => SMap.erase st (4 * row + m)) nd.store }

/-- R243: the token of a drained row. -/
def Node.drainTok (nd : Node) (e : ArrEntry) : Tok :=
  { dataTok (e.marks.getLsbD 1) (e.marks.getLsbD 2) false 0 0xF 0 (packData 32 ((List.range 4).map fun m => SMap.get nd.store 0 (4 * e.row + m))) with
    visit := decide (e.strand = 7) }

/-- R259, R296: the accumulator checkpoint in the upper half of the node store. -/
def Node.checkpointRows (nd : Node) : Node :=
  let low := nd.store.filter fun q => decide (q.1 < 4096)
  { nd with store := low ++ low.map fun q => (q.1 + 4096, q.2) }

end Sys2Proof.Machine
end

