-- ==== Sys2Proof/Machine/Walk.lean ====
section
/-! DEFINITION. Walks (R297-R299, R307-R310): stream parameter blocks, tensor shape records, their elements and their refusals; tokens as
bytes. -/

namespace Sys2Proof.Machine

/-! ### Bytes -/

/-- A word of n bytes at offset a of a run of bytes. -/
def fieldOf (bs : List Byte) (a n : Nat) : Nat := leNat ((bs.drop a).take n)

/-- R245: a token on a network: sideband and payload in 24 bytes. -/
def tokBytes (x : Tok) : List Byte :=
  [BitVec.ofNat 8 (x.kind + (if x.h then 4 else 0) + (if x.t then 8 else 0) + (if x.sv then 16 else 0)), BitVec.ofNat 8 x.fmt]
    ++ leBytes 2 x.mask.toNat ++ leBytes 4 x.scl.toNat ++ leBytes 16 x.data.toNat

def tokOf (bs : List Byte) : Tok :=
  let f := fieldOf bs 0 1
  { kind := f % 4, h := f.testBit 2, t := f.testBit 3, sv := f.testBit 4, fmt := fieldOf bs 1 1, mask := BitVec.ofNat 16 (fieldOf bs 2 2)
    scl := BitVec.ofNat 32 (fieldOf bs 4 4), data := BitVec.ofNat 128 (fieldOf bs 8 16), num := 0, feeds := false, visit := false }

def toksBytes (l : List Tok) : List Byte := l.flatMap tokBytes

def toksOf (bs : List Byte) : List Tok := (List.range (bs.length / 24)).map fun i => tokOf ((bs.drop (24 * i)).take 24)

/-! ### Stream parameter blocks (R297-R299) -/

/-- R297. -/
def blkOf (bs : List Byte) : Blk :=
  let w (i : Nat) : Nat := fieldOf bs (8 * i) 8
  let s32 (v : Nat) : Int := (BitVec.ofNat 32 v).toInt
  { base := w 0
    cnt := (List.range 6).map fun i => if i < 4 then bitsAt (w 1) (16 * i) 16 else bitsAt (w 2) (16 * (i - 4)) 16
    str := (List.range 6).map fun i => s32 (bitsAt (w (3 + i / 2)) (32 * (i % 2)) 32)
    esz := bitsAt (w 6) 60 4
    fmt := bitsAt (w 6) 56 4
    ssrc := bitsAt (w 6) 54 2
    ring := (w 6).testBit 53
    nslot := bitsAt (w 6) 44 8
    blen := bitsAt (w 6) 32 12
    scale := bitsAt (w 6) 0 32
    peer := bitsAt (w 7) 51 13
    pep := bitsAt (w 7) 48 3
    pstr := bitsAt (w 7) 45 3
    pkey := bitsAt (w 7) 42 3
    rsv := decide (bitsAt (w 2) 32 32 ≠ 0) || (w 6).testBit 52 || decide (bitsAt (w 7) 0 42 ≠ 0) || decide (4 < bitsAt (w 6) 60 4)
      || decide (bitsAt (w 6) 54 2 = 3) || decide (5 < bitsAt (w 7) 48 3) }

def Blk.bytes (b : Blk) : Nat := 2 ^ b.esz
def Blk.count (b : Blk) : Nat := b.cnt.foldl (· * ·) 1
/-- R298: T. -/
def Blk.tokens (b : Blk) : Nat := (b.count * b.bytes + 15) / 16
def Blk.bursts (b : Blk) : Nat := (b.tokens + b.blen - 1) / b.blen

/-- R298: the address of element n. -/
def Blk.addr (b : Blk) (n : Nat) : Nat :=
  let r := (b.cnt.zip b.str).foldl (fun (acc : Int × Nat) q => (acc.1 + (acc.2 % q.1 : Nat) * q.2, acc.2 / q.1)) ((b.base : Int), n)
  (r.1 % 2 ^ 64).toNat

/-- R298: the elements of token k. -/
def Blk.elems (b : Blk) (k : Nat) : List Nat :=
  let per := 16 / b.bytes
  (List.range per).filterMap fun i => if per * k + i < b.count then some (per * k + i) else none

/-- R298: the token's mask, by the elements of its format. -/
def Blk.mask (b : Blk) (k : Nat) : BitVec 16 :=
  let live := b.count * b.bytes - 16 * k
  packMask ((List.range (16 / elemBytes b.fmt)).map fun e => decide (e * elemBytes b.fmt < live))

/-- R298: whether token k begins, and ends, a burst. -/
def Blk.isHead (b : Blk) (k : Nat) : Bool := decide (k % b.blen = 0)
def Blk.isTail (b : Blk) (k : Nat) : Bool := decide ((k + 1) % b.blen = 0) || decide (k + 1 = b.tokens)

/-- R298: the address of the scale that the token beginning with element n carries. -/
def Blk.scaleAt (b : Blk) (n : Nat) : Option Nat :=
  let k := n * b.bytes / 16
  if b.ssrc = 2 ∧ n * b.bytes % 16 = 0 ∧ b.isHead k then some (b.scale + 4 * (k / b.blen)) else none

/-- R298: token k from its bytes; `scale` reads the scale array. -/
def Blk.token (b : Blk) (k : Nat) (data : List Byte) (scale : Nat → BitVec 32) : Tok :=
  let h := b.isHead k
  let sv := h && decide (b.ssrc ≠ 0)
  dataTok h (b.isTail k) sv b.fmt (b.mask k) (if !sv then 0 else if b.ssrc = 1 then BitVec.ofNat 32 b.scale else scale (b.scale + 4 * (k / b.blen)))
    (BitVec.ofNat 128 (leNat data))

/-- What a block describes the end of. -/
inductive BlkEnd where
  | scratch                              -- a PORT that walks the scratchpad
  | memory                               -- a walk engine that reads or writes memory
  | peer                                 -- a PORT whose other end is a PORT or a ring
  | ring                                 -- a strand's ring
deriving DecidableEq, Repr

/-- R32, R299: codes 1, 2, 3 and 5; 0 for a block that passes; a reserved format code is a reserved value. `cap` is the buffer of a consumer PORT in tokens; `consumer` asks for slots. [Assumption 34: DEDUCED.] -/
def Blk.refusal (b : Blk) (e : BlkEnd) (consumer : Bool) (cap : Option Nat) : Nat :=
  if b.rsv ∨ 9 ≤ b.fmt then 1
  else if b.cnt.contains 0 ∨ b.blen = 0 ∨ (consumer ∧ b.nslot = 0) then 2
  else if ((e = .scratch ∨ e = .ring) ∧ b.base % b.bytes ≠ 0) ∨ (e = .scratch ∧ b.str.any fun x => x % b.bytes ≠ 0)
      ∨ (e = .ring ∧ scratchSize < b.base + 16 * b.nslot * b.blen)
      ∨ (b.ssrc = 2 ∧ scratchSize < b.scale + 4 * b.bursts) then 3
  else if (match cap with | some n => decide (n < b.nslot * b.blen) | none => false)
      || (decide (e = .memory) && decide (handleClass (BitVec.ofNat 64 b.base) ≠ .opened)) then 5
  else 0

/-- An FP32 of a tile's scratchpad; beyond it zero. -/
def State.scratchWord (s : State) (t a : Nat) : BitVec 32 :=
  if a < scratchSize then BitVec.ofNat 32 (leNat (memRead s.mem (tileBase t + a / 4 * 4) 4)) else 0

/-- R297: a tile's block at a scratchpad address. -/
def State.blkAt (s : State) (t a : Nat) : Blk := blkOf (memRead s.mem (tileBase t + a) 64)

/-! ### Tensor shape records (R307-R310) -/

/-- R307. -/
structure TensorRec where
  base : Nat
  ext  : List Nat
  str  : List Nat
  bk   : Nat
  ef   : Nat
  mc   : Bool
  ovl  : Bool
  tq   : Nat
  rank : Nat
  rsv  : Bool
deriving DecidableEq, Repr

def tensorRecOf (bs : List Byte) : TensorRec :=
  let a := fieldOf bs 0x3E 1
  let b := fieldOf bs 0x3F 1
  { base := fieldOf bs 0 8
    ext := (List.range 6).map fun n => fieldOf bs (8 + 4 * n) 4
    str := (List.range 6).map fun n => fieldOf bs (32 + 5 * n) 5
    bk := bitsAt a 6 2, ef := bitsAt a 0 4, mc := b.testBit 6, ovl := b.testBit 5, tq := bitsAt b 3 2, rank := bitsAt b 0 3
    rsv := decide (bitsAt a 4 2 ≠ 0) || b.testBit 7 || decide (8 < bitsAt a 0 4) }

def TensorRec.esize (r : TensorRec) : Nat := elemBytes r.ef
def TensorRec.levels (r : TensorRec) : List (Nat × Nat) := (r.ext.zip r.str).take r.rank
def TensorRec.count (r : TensorRec) : Nat := (r.levels.map Prod.fst).foldl (· * ·) 1
/-- R308: fields of a scratchpad base. -/
def TensorRec.tile (r : TensorRec) : Nat := bitsAt r.base 32 13
def TensorRec.dk (r : TensorRec) : Bool := r.base.testBit 51
/-- R309: columns and rows of the rectangle. -/
def TensorRec.rect (r : TensorRec) : Nat × Nat := (r.ext.getD r.rank 0, r.ext.getD (r.rank + 1) 0)

/-- R309: the destination tiles. -/
def TensorRec.tiles (r : TensorRec) : List Nat :=
  if r.mc then (List.range r.rect.2).flatMap fun y => (List.range r.rect.1).map fun x => r.tile + 32 * y + x else [r.tile]

/-- R309: byte offset of element n of a walk; with `tq` level 1 goes fastest. -/
def walkOffset (ext str : List Nat) (tq : Bool) (n : Nat) : Nat :=
  let l := ext.zip str
  let l := if tq then (match l with | a :: b :: r => b :: a :: r | l => l) else l
  (l.foldl (fun (acc : Nat × Nat) q => (acc.1 + acc.2 % q.1 * q.2, acc.2 / q.1)) (0, n)).1

/-- R308: the span of the record's walk in bytes. -/
def TensorRec.span (r : TensorRec) : Nat := (r.levels.map fun q => (q.1 - 1) * q.2).foldl (· + ·) 0 + r.esize

/-- R310: codes 1 to 6, 8 and 9 of a record; `xlen` gives an extent entry's length and access, `inRegion` the tiles of the context's region. -/
def TensorRec.refusal (r : TensorRec) (dest : Bool) (extent : Nat → Nat × Nat) (inRegion : Nat → Bool) : Nat :=
  let base := if r.bk = 1 then r.base % 2 ^ 61 else if r.bk = 2 then r.base % 2 ^ 19 else r.base
  if r.rank = 0 ∨ r.rank = 7 then 1
  else if (r.levels.any fun q => decide (q.1 = 0)) ∨ (r.mc ∧ r.rank ≤ 4 ∧ (r.rect.1 = 0 ∨ r.rect.2 = 0)) then 2
  else if !r.ovl ∧ (r.str.headD 0 < r.esize
      ∨ (List.range (r.rank - 1)).any fun n => decide (r.str.getD (n + 1) 0 < r.str.getD n 0 * r.ext.getD n 0)) then 3
  else if base % r.esize ≠ 0 ∨ (r.tq ≠ 0 ∧ base % 32 ≠ 0) then 4
  else if r.tq = 3 ∨ (r.tq ≠ 0 ∧ r.tq ≠ r.esize) ∨ (r.tq ≠ 0 ∧ (32 < r.ext.getD 0 0 ∨ (2 ≤ r.rank ∧ 32 < r.ext.getD 1 0))) then 5
  else if r.rsv ∨ r.bk = 3 ∨ (r.bk = 0 ∧ 2 ^ 52 ≤ r.base) ∨ (r.bk = 2 ∧ (2 ^ 52 ≤ r.base ∨ bitsAt r.base 19 13 ≠ 0))
      ∨ (!dest ∧ (r.mc ∨ (r.bk = 2 ∧ r.dk))) ∨ (r.mc ∧ (r.bk ≠ 2 ∨ 4 < r.rank ∨ 32 < r.tile % 32 + r.rect.1 ∨ 32 < r.tile / 32 % 32 + r.rect.2)) then 6
  else if r.bk = 1 ∧ (let e := extent (r.base / 2 ^ 61); e.2 = 0 ∨ e.1 < base + r.span ∨ !e.2.testBit (if dest then 1 else 0)) then 8
  else if r.bk = 2 ∧ !(r.tiles.all inRegion) then 9
  else 0

/-! ### Distances (R11) -/

/-- Hops between two tiles. -/
def hops (a b : Nat) : Nat :=
  let dx := (tileGx b + 128 - tileGx a) % 128
  min dx (128 - dx) + (tileGy a - tileGy b) + (tileGy b - tileGy a)

end Sys2Proof.Machine
end

