-- ==== Sys2Proof/Machine/Collar.lean ====
section
/-! DEFINITION. The collar's nodes in time (R245-R266, R290-R292, R296): tokens move from outputs to inputs as a step begins, and nodes take
them in its beat phase. PORTs are in Port, switch tokens in Slate. -/

namespace Sys2Proof.Machine

/-! ### Nodes and routes (R246-R248, R273) -/

def Collar.node (k : Collar) (n : Nat) : Node := SMap.get k.nodes Node.reset n
def Collar.modNode (k : Collar) (n : Nat) (f : Node → Node) : Collar := { k with nodes := SMap.modify k.nodes Node.reset n f }
def State.node (s : State) (t n : Nat) : Node := (s.collar t).node n
def State.modNode (s : State) (t n : Nat) (f : Node → Node) : State := s.modCollar t fun k => k.modNode n f

/-- R273: the node and input of a route-table byte. -/
def inputOwner (b : Nat) : Nat × Nat :=
  if b < 4 then (3 * b, 0) else if b = 4 then (44, 0) else if b = 5 then (46, 0) else if b < 10 then (45, b - 6)
  else if b < 12 then (47, b - 10) else (36 + b, 0)

/-- The route-table bytes of a node's inputs, in order. -/
def inputBytes (n : Nat) : List Nat := (List.range 16).filter fun b => decide ((inputOwner b).1 = n)

def Node.input (nd : Node) (i : Nat) : List Tok := nd.ins.getD i []
def Node.setInput (nd : Node) (i : Nat) (l : List Tok) : Node := { nd with ins := (List.range 4).map fun j => if j = i then l else nd.input j }
def Node.popInput (nd : Node) (i : Nat) : Node := nd.setInput i ((nd.input i).drop 1)
def Node.headOf (nd : Node) (i : Nat) : Option Tok := (nd.input i).head?

/-- The next node of a lane. -/
def laneNext : Nat := 32
/-- The PE rows at the end of an entry lane. -/
def laneRows : Nat := 33

/-- R246, R276, R294: where a node's tokens go under a plane; the weight port and GATE take no switch token (R284). -/
def nodeDst (n : Nat) (p : Plane) (sw : Bool) : List Nat :=
  match nodeKind n with
  | .gate => if sw then [] else [laneRows]
  | .decode | .norm | .promote | .affine | .activate => [laneNext]
  | _ => if sw then p.dst.filter fun b => b ≠ 16 else p.dst

/-- Whether a node's output crosses a switch box (R249). -/
def routeSteps (n : Nat) : Nat :=
  match nodeKind n with
  | .convert | .corner | .reduce | .smax | .join | .port => 1
  | _ => 0

/-- R249: steps from input to output. -/
def nodeSteps (n : Nat) (p : Plane) : Nat :=
  routeSteps n + (if (nodeKind n).bypasses && p.byp then 1 else match nodeKind n with
    | .decode | .affine | .convert | .reduce => 2
    | .activate => if p.fld 0 0 2 = 2 then 3 else 1
    | .join => if p.jm = 2 then 2 else 1
    | .norm => 4
    | _ => 1)

/-- R247, R248, R276: whether a destination can take a token of a source. -/
def Collar.accepts (k : Collar) (src d : Nat) : Bool :=
  if d = laneNext then decide (((k.node (src + 1)).input 0).length < 4)
  else if d = laneRows then decide ((k.lanes.getD (src / 3) []).length < 4)
  else if d = 16 then decide (k.wport.length < 4)
  else
    let q := inputOwner d
    let nd := k.node q.1
    decide (nd.st ≠ .off) && decide (SMap.lookup nd.active.sel d = some src) && decide ((nd.input q.2).length < 4)

/-- R296: the token counts among those sent to the node since its checkpoint. -/
def Collar.give (k : Collar) (src d : Nat) (x : Tok) : Collar :=
  if d = laneNext then k.modNode (src + 1) fun nd => { nd.setInput 0 (nd.input 0 ++ [x]) with since := nd.since + 1 }
  else if d = laneRows then { k with lanes := k.lanes.modify (src / 3) fun l => l ++ [x] }
  else if d = 16 then { k with wport := k.wport ++ [x] }
  else let q := inputOwner d; k.modNode q.1 fun nd => { nd.setInput q.2 (nd.input q.2 ++ [x]) with since := nd.since + 1 }

/-- R247, R248: the oldest output of a node leaves when every destination can take it; the lanes whose exit credit returns. -/
def Collar.moveFrom (step : Nat) (acc : Collar × List Nat) (n : Nat) : Collar × List Nat :=
  match (acc.1.node n).out with
  | x :: r =>
    if x.ready ≤ step ∧ x.dst.all (acc.1.accepts n) then
      let k := acc.1.modNode n fun nd => { nd with out := r }
      (x.dst.foldl (fun k d => k.give n d x.tok) k, if x.credit then (n - 12) / 4 :: acc.2 else acc.2)
    else acc
  | [] => acc

/-- R248: an output queued for its step; outputs leave one a step. -/
def Node.queueAt (nd : Node) (ready : Nat) (dst : List Nat) (credit : Bool) (x : Tok) : Node :=
  let last := (nd.out.getLast?.map OutTok.ready).getD 0
  { nd with out := nd.out ++ [⟨max ready (last + 1), x, dst, credit⟩] }

def Node.queue (nd : Node) (n ready : Nat) (l : List Tok) : Node :=
  l.foldl (fun nd x => nd.queueAt ready (nodeDst n nd.active false) false x) nd

/-- R248: whether a node's pipeline can take one more token: nothing has come to its end, and a place is free. -/
def Node.flows (nd : Node) (step lat : Nat) : Bool :=
  (nd.out.head?.all fun x => decide (step < x.ready)) && (nd.out.getLast?.all fun x => decide (x.ready < step + lat))

/-! ### Node causes (R252, R290, R291) -/

/-- R291: cause 12 on the firing strand of a held node, when it is resident. -/
def State.raiseNode (s : State) (t n : Nat) : State :=
  let nd := s.node t n
  let s := s.modCollar t fun k => { k with raised := some n }
  let x := s.strand t nd.fstr
  match nd.hold with
  | some h =>
    if x.st = .free ∨ x.st = .suspended then s
    else s.raiseAsync t nd.fstr ⟨12, BitVec.ofNat 64 (n + h.cause * 2 ^ 8 + h.detail % 2 ^ 48 * 2 ^ 16), 0, 0⟩
  | none => s

/-- R251, R252, R290: a node is held. -/
def State.nodeCause (s : State) (t n cause detail : Nat) (sw : Bool) : State :=
  let s := (s.modNode t n fun nd => { nd with
    st := .held, hold := some ⟨cause, detail, sw⟩, ns := BitVec.ofNat 64 (nd.ns.toNat % 2 ^ 8 + cause * 2 ^ 8), resume := none }).tally t 18 1
  if (s.collar t).raised.isNone then s.raiseNode t n else s

/-- R296: a node that finds its active plane's parity wrong begins to repair it. [Assumption 34: DEDUCED.] -/
def State.startRepair (s : State) (t n : Nat) : State :=
  (s.modNode t n fun nd => { nd with st := .repairing }).later 70 .parityRepairDone (opNode t n)

/-- A node's part of a step, made only by a node that may work: not held, repairing or off, and with its plane whole (R296). -/
def State.atNode (s : State) (f : Nat → Nat → Node → Host.Outcome State Fault Refusal) : Host.Outcome State Fault Refusal :=
  let t := s.ev.tile
  let n := s.ev.node
  let nd := s.node t n
  if nd.st ≠ .active ∧ nd.st ≠ .aligning then .next s
  else if nd.active.bad then .next (s.startRepair t n)
  else f t n nd

/-- R287: what a node notes of the marks of a token it has taken. -/
def Node.noteTaken (nd : Node) (x : Tok) (forced : Bool) : Node :=
  { nd with burst := (nd.burst || x.h) && !(x.t || forced), resume := none }

/-- R296: a checkpoint stands at each tail-marked output. -/
def Node.noteSent (nd : Node) (l : List Tok) : Node := if l.any Tok.t then { nd with since := 0 } else nd

/-- A token taken at an input, with its outcome. -/
def State.finishToken (s : State) (t n i ready : Nat) (x : Tok) (forced : Bool) (r : NodeStep) : State :=
  match r with
  | .error (c, d) => s.nodeCause t n c d false
  | .ok (nd, outs) => s.modNode t n fun _ => (((nd.popInput i).noteTaken x forced).queue n ready outs).noteSent outs

/-- A node that takes one token and gives its outputs at once. -/
def State.streamNode (s : State) (f : Node → Tok → NodeStep) : Host.Outcome State Fault Refusal :=
  s.atNode fun t n nd =>
    let step := (s.core t).stepc
    let lat := nodeSteps n nd.active
    match nd.headOf 0 with
    | some x =>
      if x.kind ≠ 0 || !nd.flows step lat then .next s
      else .next (s.finishToken t n 0 (step + lat) x nd.forced (if (nodeKind n).bypasses && nd.active.byp then .ok (nd, [x]) else f nd x))
    | none => .next s

/-! ### Lane nodes -/

/-- DECODE_TOKEN (R253-R255). -/
def execDecodeToken (s : State) : Host.Outcome State Fault Refusal :=
  ({ s with fresh := s.fresh + 1 } : State).streamNode fun nd x =>
    nd.decodeToken (s.ev.node / 3) (s.scratchWord s.ev.tile) (Config.freeWord s.fresh) x

/-- R256: the cooperating lanes. -/
def Collar.coopLanes (k : Collar) : List Nat :=
  (List.range 4).filter fun i => let nd := k.node (3 * i + 1); decide (nd.st ≠ .off) && nd.active.coop && !nd.active.byp

/-- R257: rows are paired by their count from the switch token. -/
def Node.rowKey (nd : Node) : Nat := nd.took * 2 ^ 32 + nd.cnt

/-- R257: the partial sums of a row on every cooperating lane, and the step of the latest; nothing while one is missing. -/
def Collar.coopSum (k : Collar) (key : Nat) : Option (Nat × BitVec 10 × Nat) :=
  k.coopLanes.foldl (fun acc i =>
    match acc, (k.node (3 * i + 1)).parts.find? (fun p => decide (p.1 = key)) with
    | some (sum, fl, st), some (_, step, ss) =>
      let r := fp32.add sum ss.toNat
      some (r.1, fl ||| r.2, max st step)
    | _, _ => none) (some (0, 0, 0))

/-- R257: partial sums that every cooperating lane has used. -/
def Collar.pruneParts (k : Collar) : Collar :=
  let low := k.coopLanes.foldl (fun m i => let v := (k.node (3 * i + 1)).rowKey; match m with | some a => some (min a v) | none => some v) (none : Option Nat)
  match low with
  | none => k
  | some m => k.coopLanes.foldl (fun k i => k.modNode (3 * i + 1) fun nd => { nd with parts := nd.parts.filter fun p => decide (m ≤ p.1) }) k

/-- R257: a whole row normalised and emitted, once every partial sum it needs is there. -/
def State.finishRow (s : State) (t n : Nat) : State :=
  let nd := s.node t n
  let step := (s.core t).stepc
  let own := nd.normSquares
  let key := nd.rowKey
  let s := if nd.active.coop ∧ !(nd.parts.any fun p => decide (p.1 = key)) then
      s.modNode t n fun nd => { nd with parts := nd.parts ++ [(key, step, own.1)] } else s
  let sum := if nd.active.coop then (s.collar t).coopSum key else some (own.1.toNat, 0, step)
  match sum with
  | none => s
  | some (ss, fl, at_) =>
    let scale := nd.normScale ss
    match scale.1 with
    | none => (s.modNode t n fun nd => nd.flags (own.2 ||| fl ||| scale.2)).nodeCause t n 1 0 false
    | some r =>
      let out := nd.normRow r
      let s := s.modNode t n fun nd =>
        ((({ nd with row := [], cnt := nd.cnt + 1, resume := none, burst := false } : Node).flags (own.2 ||| fl ||| scale.2 ||| out.2)).queue n (max (at_ + 4) (step + 1)) out.1).noteSent out.1
      if nd.active.coop then s.modCollar t Collar.pruneParts else s

/-- NORM_ROW (R249, R256, R257): a row that has waited for the partial sums of other lanes is emitted, a token of a row taken, and the row emitted when it is
whole. -/
def execNormRow (s : State) : Host.Outcome State Fault Refusal :=
  if (s.node s.ev.tile s.ev.node).active.byp then s.streamNode fun nd x => .ok (nd, [x])
  else s.atNode fun t n nd =>
    let s := if nd.rowWhole then s.finishRow t n else s
    let nd := s.node t n
    match nd.headOf 0 with
      | some x =>
        if x.kind ≠ 0 ∨ nd.rowWhole ∨ nd.st = .held ∨ (1536 ≤ nd.row.length + nd.out.length ∧ nd.row.length < 1536) then .next s
        else
          let s := s.finishToken t n 0 0 x nd.forced (nd.normTake x)
          .next (if (s.node t n).rowWhole && decide ((s.node t n).st = .active) then s.finishRow t n else s)
      | none => .next s

/-- GATE_TOKEN (R258). -/
def execGateToken (s : State) : Host.Outcome State Fault Refusal := s.streamNode Node.gateToken

/-- AFFINE_TOKEN (R260). -/
def execAffineToken (s : State) : Host.Outcome State Fault Refusal := s.streamNode Node.affineToken

/-- ACTIVATE_TOKEN (R261). -/
def execActivateToken (s : State) : Host.Outcome State Fault Refusal := s.streamNode Node.activateToken

/-- CONVERT_TOKEN (R262). -/
def execConvertToken (s : State) : Host.Outcome State Fault Refusal := s.streamNode Node.convertToken

/-! ### PROMOTE (R230, R235, R242-R244, R294) -/

/-- R230: exit credits returned. -/
def State.returnCredit (s : State) (t lane : Nat) : State := s.modArr t fun a => { a with credits := a.credits.modify lane (· + 1) }

/-- The oldest entry at a PROMOTE, taken; at one that is off it is discarded and its credit returns (R294). -/
def State.takeEntry (s : State) (ok : ArrEntry → Bool) (f : Nat → Nat → ArrEntry → State → State) : Host.Outcome State Fault Refusal :=
  let t := s.ev.tile
  let n := s.ev.node
  match (s.node t n).entries with
  | e :: r =>
    if !ok e then .next s
    else
      let s' := s.modNode t n fun nd => { nd with entries := r }
      if (s.node t n).st = .off then .next (s'.returnCredit t ((n - 12) / 4))
      else s.atNode fun t n _ => .next (f t n e s')
  | [] => .next s

/-- PROMOTE_ENTRY (R235). -/
def execPromoteEntry (s : State) : Host.Outcome State Fault Refusal :=
  s.takeEntry ArrEntry.isVector fun t n e s =>
    (s.modNode t n fun nd => nd.promoteEntry ((n - 12) / 4) e).returnCredit t ((n - 12) / 4)

/-- DRAIN_AT_PROMOTE (R243). -/
def execDrainAtPromote (s : State) : Host.Outcome State Fault Refusal :=
  s.takeEntry (fun e => decide (e.kind = .drain)) fun t n e s =>
    let step := (s.core t).stepc
    s.modNode t n fun nd =>
      let x := nd.drainTok e
      let nd := if e.marks.getLsbD 0 then nd.clearRow e.row else nd
      let nd := if x.t then { nd.checkpointRows with since := 0 } else nd
      nd.queueAt (step + 1) [laneNext] true x

/-- ACLR_AT_PROMOTE (R244). -/
def execAclrAtPromote (s : State) : Host.Outcome State Fault Refusal :=
  s.takeEntry (fun e => decide (e.kind = .aclr)) fun t n e s => (s.modNode t n fun nd => nd.clearRow e.row).returnCredit t ((n - 12) / 4)

/-! ### Ring nodes -/

/-- R249, R263: a whole block emitted once the other buffer is empty: the last token of the block before is in its route step at most. [Assumption 32: DESIGN CHOICE.] -/
def State.finishBlock (s : State) (t n : Nat) : State :=
  let nd := s.node t n
  if nd.row.length = cornerTokens nd.active ∧ nd.out.length ≤ routeSteps n then
    let out := nd.cornerEmit (Config.freeWord s.fresh)
    { s with fresh := s.fresh + 1 }.modNode t n fun nd => (({ nd with row := [] } : Node).queue n ((s.core t).stepc + nodeSteps n nd.active) out).noteSent out
  else s

/-- CORNER_BLOCK (R263): a token is taken unless both buffers are occupied. -/
def execCornerBlock (s : State) : Host.Outcome State Fault Refusal :=
  s.atNode fun t n nd =>
    let s := if nd.row.length = cornerTokens nd.active then s.finishBlock t n else s
    let nd := s.node t n
    match nd.headOf 0 with
      | some x =>
        if x.kind ≠ 0 ∨ nd.row.length = cornerTokens nd.active then .next s
        else
          let s := s.finishToken t n 0 0 x nd.forced (nd.cornerTake x)
          .next (if (s.node t n).st = .held then s else s.finishBlock t n)
      | none => .next s

/-- SMAX_BURST (R265). -/
def execSmaxBurst (s : State) : Host.Outcome State Fault Refusal :=
  s.atNode fun t n nd =>
    match nd.headOf 0 with
    | some x =>
      if x.kind ≠ 0 ∨ (2048 ≤ nd.row.length + nd.out.length ∧ nd.row.length < 2048) then .next s
      else
        let s := s.finishToken t n 0 0 x nd.forced (nd.smaxTake x)
        let nd := s.node t n
        .next (if nd.rowWhole && decide (nd.st ≠ .held) then
          s.modNode t n fun nd => (({ nd with row := [] } : Node).queue n ((s.core t).stepc + 16 + nd.row.length + routeSteps n) nd.smaxRow).noteSent nd.smaxRow
        else s)
    | none => .next s

/-- Tokens taken from several inputs together; the marks are those of the lowest-numbered one (R293). -/
def Node.takeMany (nd : Node) (ins : List Nat) (x : Tok) : Node := (ins.foldl Node.popInput nd).noteTaken x false

/-- R286: the inputs that a switch token must come by. -/
def Node.switchInputs (nd : Node) (n : Nat) : List Nat :=
  let sourced := (List.range 4).filter fun i => (SMap.lookup nd.active.sel ((inputBytes n).getD i 99)).isSome
  if n = 45 ∧ nd.active.along then
    let l := sourced.filter fun i => nd.active.inm.testBit i
    if l.isEmpty then sourced else l
  else if n = 45 ∨ n = 47 then sourced
  else [0]

/-- R264, R266, R286: the inputs of a node that combines them, with a data token at their heads; whether all have one; whether the node aligns,
some of its inputs standing at a switch token. -/
def Node.combining (nd : Node) (n : Nat) (ins : List Nat) : List Nat × Bool × Bool :=
  let data := ins.filter fun i => (nd.headOf i).any fun x => decide (x.kind = 0)
  let aligns := (nd.switchInputs n).any fun i => (nd.headOf i).any fun x => decide (x.kind = 1)
  (data, decide (data.length = ins.length), aligns && !data.isEmpty)

/-- R264, R266, R286: tokens combined across inputs. [Assumption 32: DESIGN CHOICE.] -/
def State.combineInputs (s : State) (t n : Nat) (nd : Node) (ins : List Nat) (f : List Tok → W64 → Tok) : State :=
  let step := (s.core t).stepc
  let lat := nodeSteps n nd.active
  let c := nd.combining n ins
  let toks := c.1.filterMap nd.headOf
  if !c.2.1 && !c.2.2 || toks.isEmpty || !nd.flows step lat then s
  else if !nd.forced && toks.any fun x => !x.needs 0 then s.nodeCause t n 5 0 false
  else if !nd.forced && (c.2.2 || !marksAgree toks) then s.nodeCause t n 2 0 false
  else
    let out := f toks (Config.freeWord s.fresh)
    { s with fresh := s.fresh + 1 }.modNode t n fun nd => ((nd.takeMany c.1 out).queue n (step + lat) [out]).noteSent [out]

/-- REDUCE_TOKEN (R264). [Assumption 32: DESIGN CHOICE.] -/
def execReduceToken (s : State) : Host.Outcome State Fault Refusal :=
  s.atNode fun t n nd =>
    let ins := (List.range 4).filter fun i => nd.active.inm.testBit i
    let step := (s.core t).stepc
    let lat := nodeSteps n nd.active
    if !nd.active.along then .next (s.combineInputs t n nd ins (reduceAcross nd.active.rop))
    else match ins.head? with
      | none => .next s
      | some i => match nd.headOf i with
        | some x =>
          if x.kind ≠ 0 || !nd.flows step lat then .next s
          else if !x.needs 0 then .next (s.nodeCause t n 5 0 false)
          else
            let nd := ((nd.reduceAlong x).popInput i).noteTaken x nd.forced
            if nd.burst then .next (s.modNode t n fun _ => nd)
            else
              let r := nd.reduceEmit (Config.freeWord s.fresh)
              .next ({ s with fresh := s.fresh + 1 }.modNode t n fun _ => (r.1.queue n (step + lat) [r.2]).noteSent [r.2])
        | none => .next s

/-- R266, R286: the input that JOIN takes next: A and B in turn, or the one still under the old configuration. -/
def Node.joinInput (nd : Node) : Option Nat :=
  let turn := nd.cnt % 2
  match nd.headOf turn with
  | some x => if x.kind = 0 then some turn else
      match nd.headOf (1 - turn) with
      | some y => if y.kind = 0 then some (1 - turn) else none
      | none => none
  | none => none

/-- JOIN_TOKEN (R266). -/
def execJoinToken (s : State) : Host.Outcome State Fault Refusal :=
  s.atNode fun t n nd =>
    let step := (s.core t).stepc
    let lat := nodeSteps n nd.active
    if nd.active.jm = 2 then
      .next (s.combineInputs t n nd [0, 1] fun l free => match l with | [a, b] => joinSum a b free | a :: _ => a | [] => dataTok false false false 0 0 0 0)
    else match nd.joinInput with
      | some i => match nd.headOf i with
        | some x =>
          if !nd.flows step lat then .next s
          else
            let turned := decide (i = nd.cnt % 2) && (decide (nd.active.jm = 0) || x.t)
            let marks : BitVec 2 := if x.t then nd.marks &&& ~~~(1#2 <<< i) else if x.h then nd.marks ||| (1#2 <<< i) else nd.marks
            .next (s.modNode t n fun nd =>
              ((({ nd.popInput i with cnt := if turned then nd.cnt + 1 else nd.cnt, marks := marks, burst := marks ≠ 0, resume := none } : Node)).queue
                n (step + lat) [x]).noteSent [x])
        | none => .next s
      | none => .next s

/-! ### Parity repair (R276, R296) -/

/-- R271: an 8-byte word of a slot. -/
def Slate.word (x : Slate) (i : Nat) : W64 := BitVec.ofNat 64 (SMap.get x.words 0 i)
def Slate.byte (x : Slate) (a : Nat) : Nat := bitsAt (SMap.get x.words 0 (a / 8)) (8 * (a % 8)) 8

/-- R271, R273, R276: a node's plane as a slot gives it. -/
def Slate.plane (x : Slate) (slot n : Nat) : Plane :=
  { p := (List.range 8).map fun m => x.word (0x20 + 8 * n + m)
    sel := (inputBytes n).filterMap fun b => let v := x.byte (0x40 + b); if v.testBit 7 then some (b, v % 64) else none
    dst := (List.range 17).filter fun b => let v := x.byte (0x40 + b); v.testBit 7 && decide (v % 64 = n)
    slot := slot, ovl := false, cid := x.cid, bad := false }

/-- R275: whether a load of a node meets an uncorrectable word of the slot. -/
def Slate.badFor (x : Slate) (n : Nat) : Bool := x.bad.any fun w => decide (8 ≤ w ∧ w ≤ 10) || (decide (0x20 + 8 * n ≤ w) && decide (w < 0x28 + 8 * n))

def Collar.slate (k : Collar) (i : Nat) : Slate := SMap.get k.slates Slate.reset i

/-- PARITY_REPAIR_DONE (R296): the plane is rebuilt from its Flashing copy and the replay has run, or node cause 6. [Assumption 8: DESIGN CHOICE.] [Assumption 34: DEDUCED.] -/
def execParityRepairDone (s : State) : Host.Outcome State Fault Refusal :=
  let t := s.ev.tile
  let n := s.ev.node
  s.unlessStopped t .parityRepairDone fun s =>
  let nd := s.node t n
  let x := (s.collar t).slate nd.active.slot
  if nd.st ≠ .repairing then .next s
  else if nd.active.ovl then .next (s.nodeCause t n 6 1 false)
  else if 64 < nd.since then .next (s.nodeCause t n 6 2 false)
  else if x.badFor n then .next (s.nodeCause t n 6 3 false)
  else .next (((s.modNode t n fun nd => { nd with st := .active, active := x.plane nd.active.slot n }).modCollar t fun k =>
    { k with rcnt := (k.rcnt + 1) % 2 ^ 16 }).tally t 17 1)

/-! ### The start of a step (R230, R248, R284) -/

/-- R284: whether a node's active plane gives it a source. [Assumption 31: DEDUCED.] -/
def Collar.sourced (k : Collar) (n : Nat) : Bool :=
  let nd := k.node n
  if nd.st = .off then false
  else if n < 12 then (let d := k.node (3 * (n / 3)); decide (d.st ≠ .off) && !d.active.sel.isEmpty)
  else if n < 44 then decide ((k.node (4 * (n / 4))).st ≠ .off)
  else !nd.active.sel.isEmpty

/-- R284: nodes without a source are offered an injected token, and on the entry side PORTs that do not take it from an input. -/
def Collar.offer (k : Collar) (x : Tok) (side : Nat) : Collar :=
  let ns := (List.range 52).filter fun n =>
    if n < 48 then !k.sourced n
    else side.testBit 0 && !(decide ((k.node n).st ≠ .off) && k.sourced n && (decide ((k.node n).active.dir = 2) || decide ((k.node n).active.dir = 4)))
  { k with offers := k.offers ++ ns.map fun n => (n, x) }

/-- R284: switch tokens that a node has already taken by another way. -/
def Node.dropTaken (nd : Node) : Node :=
  { nd with ins := nd.ins.map fun l => l.dropWhile fun x => decide (x.kind = 1) && decide (x.num ≤ nd.took) }

/-- The array and the collar as a step begins: what was inside the array advances, injected tokens are offered, and outputs move. -/
def State.collarStart (s : State) (t : Nat) : State :=
  let k := s.collar t
  if (s.arr t).inside.isEmpty && k.nodes.isEmpty && k.inject.isEmpty && k.offers.isEmpty then s
  else
    let step := (s.core t).stepc
    let a := (s.arr t).advance step
    let k := (List.range 8).foldl (fun k j => if a.2.isEmpty then k else k.modNode (12 + 4 * j) fun nd => { nd with entries := nd.entries ++ a.2, since := nd.since + a.2.length }) k
    let due := k.inject.filter fun q => decide (q.1 ≤ step)
    let k := due.foldl (fun (k : Collar) q => k.offer q.2.1 q.2.2) { k with inject := k.inject.filter fun q => decide (step < q.1) }
    let r := (k.nodes.map Prod.fst).foldl (Collar.moveFrom step) (k, [])
    let k := { r.1 with nodes := r.1.nodes.map fun q => (q.1, q.2.dropTaken) }
    r.2.foldl (fun s j => s.returnCredit t j) ((s.modArr t fun _ => a.1).modCollar t fun _ => k)

end Sys2Proof.Machine
end

