-- ==== Sys2Proof/Machine/Keys.lean ====
section
/-! DEFINITION. Completion keys (R311-R315, R321-R328): credits, rings, promises, and the waits on them (R202, R314). -/

namespace Sys2Proof.Machine

/-! ### Keys (R311-R313) -/

def Strand.key (x : Strand) (k : Nat) : Key := x.keys.getD k Key.empty
def Strand.modKey (x : Strand) (k : Nat) (f : Key → Key) : Strand := { x with keys := x.keys.modify k f }
def State.modKey (s : State) (t n k : Nat) (f : Key → Key) : State := s.modStrand t n fun x => x.modKey k f

/-- R312: whether a key is complete. -/
def Key.complete (k : Key) : Bool :=
  match k.st with
  | .plain => k.entries.all fun e => !e.x || decide (e.exp ≤ e.got)
  | .ring => k.endF || decide (0 < (k.ring.map Ring.filled).getD 0)
  | _ => false

/-- An entry changed, or a free one taken; nothing when none is free. -/
def Key.withEntry (k : Key) (pid : Nat) (f : KeyEntry → KeyEntry) : Option Key :=
  if k.entries.any fun e => decide (e.pid = pid) then some { k with entries := k.entries.map fun e => if e.pid = pid then f e else e }
  else if k.entries.length < 4 then some { k with entries := k.entries ++ [f ⟨pid, 0, 0, false⟩] }
  else none

/-- R312: an entry with more delivered than is expected of it sets `OVR`. -/
def Key.overrun (k : Key) : Key := { k with ovr := k.ovr || k.entries.any fun e => e.x && decide (e.exp < e.got) }

/-- R312, R323: an expectation added; what has come already may exceed it. -/
def Key.expect (k : Key) (pid n : Nat) : Option Key := (k.withEntry pid fun e => { e with exp := (e.exp + n) % 2 ^ 32, x := true }).map Key.overrun

/-- R312, R328: a credit; it sets `OVR` over an expectation, and a watch whose key completes disarms. -/
def Key.credit (k : Key) (pid n : Nat) : Option Key :=
  (k.withEntry pid fun e => { e with got := (e.got + n) % 2 ^ 32 }).map fun k =>
    let k := k.overrun
    if k.complete then { k with watch := none, revised := none } else k

/-- R306: a key that a command faults. -/
def State.faultKey (s : State) (t n run k kind va : Nat) : State :=
  let x := s.strand t n
  if x.run ≠ run ∨ x.st = .free then s
  else s.modStrand t n fun x => { x.modKey k fun y => { y with st := if y.st = .closing then y.st else .faulted } with
    kflt := x.kflt.set k (BitVec.ofNat 64 (kind * 2 ^ 60 + va % 2 ^ 52)) }

/-- KEY_CREDIT (R312, R315): a credit waits while its key has no free entry; one for a strand that no longer runs is discarded. [Assumption 34: DEDUCED.] -/
def execKeyCredit (s : State) : Host.Outcome State Fault Refusal :=
  let o := s.ev
  let x := s.strand o.tile o.strand
  if x.st = .free ∨ x.st = .suspended then .next s
  else match (x.key o.node).credit o.id o.arg with
    | some k => .next ((s.modKey o.tile o.strand o.node fun _ => k).poke o.tile)
    | none => .next (s.after 1 .keyCredit o)

/-- R312: a credit of a producer's that waits for a free entry, and so holds the producer's engine back. -/
def State.creditWaits (s : State) (pid : Nat) : Bool := s.agenda.any fun e => decide (e.2.2.1 = .keyCredit) && decide (e.2.2.2.id = pid)

/-! ### What names an end of a stream (R297, R301, R302) -/

/-- A producer: a walk engine's stream, or PORT k of a tile. -/
def portSource (tile k : Nat) : Nat := 2 ^ 64 + tile * 4 + k

/-- Who produces for a PORT's walk. -/
def Walk.source (w : Walk) : Nat := if w.blk.pep = 0 then w.eng else portSource w.blk.peer (w.blk.pep - 1)

/-- R302: a notice on its way to a producer: to an engine's stream of the same tile, or over the copy network to a PORT. `pep` names the sender
as a parameter block does. -/
def State.notify (s : State) (tile source pep strand key : Nat) : State :=
  let op : Operand := { Operand.zero with word := BitVec.ofNat 64 tile, arg := pep, strand := 8 * strand + key }
  if source < 2 ^ 64 then s.later 62 .freedSlotNotice { op with tile := tile, id := source }
  else s.send vnCopy (s.ctxOn tile) tile ((source - 2 ^ 64) / 4) .freedSlotNotice { op with tile := (source - 2 ^ 64) / 4, node := 48 + (source - 2 ^ 64) % 4 }

/-- n freed-slot notices of PORT k's to its producer (R302). -/
def State.notices (s : State) (t k n source : Nat) : State := (List.range n).foldl (fun s _ => s.notify t source (k + 1) 0 0) s

/-- The PORT that a producer's number names, when it is one: its tile and node (R301). -/
def sourcePort (source : Nat) : Nat × Nat := ((source - 2 ^ 64) / 4, 48 + (source - 2 ^ 64) % 4)

/-- R301: whether a producer PORT's walk names a consumer: key `node` of a strand, or PORT `node` of the tile. -/
def Walk.suppliesTo (w : Walk) (o : Operand) : Bool :=
  decide (w.blk.peer = o.tile) && (if 8 ≤ o.strand then decide (w.blk.pep + 47 = o.node) else decide (w.blk.pep = 5) && decide (w.blk.pstr = o.strand) && decide (w.blk.pkey = o.node))

/-- R294, R322: the producer of a ring or PORT is told to stop, and its acknowledgement comes back; one that a PORT makes is the walk that the PORT is in, if it is in one. -/
def State.stopProducer (s : State) (t n k : Nat) (source : Nat) : State :=
  let o : Operand := { Operand.zero with tile := t, strand := n, node := k, id := source }
  let p := sourcePort source
  let walk := if source < 2 ^ 64 then 0 else ((((s.node p.1 p.2).walk.filter fun w => w.suppliesTo o).map Walk.start).map (· + 1)).getD 0
  s.later 63 .closeAck { o with arg := walk }

/-- A producer that has been told to stop (R322, R294). -/
def State.producerStops (s : State) (o : Operand) : State :=
  let source := o.id
  if source < 2 ^ 64 then
    { s with streams := SMap.erase s.streams source, cmds := SMap.erase s.cmds source
             tiles := s.tiles.map fun q => (q.1, { q.2 with engines := { q.2.engines with queues := q.2.engines.queues.map fun l => l.filter fun i => i ≠ source } }) }
  else s.modNode (sourcePort source).1 (sourcePort source).2 fun nd =>
    let close (w : Walk) : Walk := if w.suppliesTo o && (decide (o.arg = 0) || decide (o.arg = w.start + 1)) then { w with closed := true, buf := [] } else w
    { nd with walk := nd.walk.map close }

/-- R294, R322: whether a burst of a producer that has stopped is still on its way to a consumer, a ring or the PORT that names no strand, or a notice of the consumer's
to it. -/
def State.burstsUnderWay (s : State) (o : Operand) : Bool :=
  let names (act : Instr) (b : Operand) : Bool :=
    decide (act = .streamBurstArrival) && decide (b.tile = o.tile) && decide ((if b.node = 0 then b.id else portSource b.word.toNat (b.node - 1)) = o.id)
      && (if 8 ≤ o.strand then decide (47 + b.arg = o.node) else decide (b.arg = 5) && decide (b.strand = 8 * o.strand + o.node))
    || decide (act = .freedSlotNotice) && decide (2 ^ 64 ≤ o.id) && decide ((b.tile, b.node) = sourcePort o.id) && decide (b.word.toNat = o.tile)
      && (if 8 ≤ o.strand then decide (47 + b.arg = o.node) else decide (b.arg = 5) && decide (b.strand = 8 * o.strand + o.node))
  (s.pkts.any fun p => names p.2.act p.2.op) || (s.bursts.any fun b => !b.2.done && names b.2.act b.2.op) || s.agenda.any fun e => names e.2.2.1 e.2.2.2

/-- CLOSE_ACK (R294, R313, R322): the producer stops, and once none of its bursts is on its way a CLOSING key becomes PLAIN. A consumer PORT's stop names no
strand, but the PORT; one that has opened a stream of the same producer since has held its notices back until now. -/
def execCloseAck (s : State) : Host.Outcome State Fault Refusal :=
  let o := s.ev
  s.unlessStopped o.tile .closeAck fun s =>
    let s := if o.flag then s else s.producerStops o
    let k := (s.strand o.tile o.strand).key o.node
    if s.burstsUnderWay o then .next (s.after 1 .closeAck { o with flag := true })
    else if 8 ≤ o.strand then
      let s := s.modNode o.tile o.node fun nd => { nd with stopping := nd.stopping.erase o.id }
      let nd := s.node o.tile o.node
      .next (match nd.walk with
        | some w => if nd.stopping.contains o.id ∨ nd.active.dir = 4 ∨ w.blk.pep = 0 ∨ portSource w.blk.peer (w.blk.pep - 1) ≠ o.id then s
          else s.notices o.tile (o.node - 48) w.blk.nslot o.id
        | none => s)
    else if k.st = .closing ∧ (k.ring.map Ring.source) = some o.id then .next ((s.modKey o.tile o.strand o.node fun _ => Key.empty).poke o.tile)
    else .next s

/-! ### MSG triggers on keys (R316, R321-R325) -/

/-- What a MSG trigger needs: it commits the checkpoint (R316). -/
def msgNeed (use0 use1 use2 loads : Bool) : Need := { use0 := use0, use1 := use1, use2 := use2, commit := true, access := true, loads := loads }

/-- R316: key misuse. -/
def State.keyMisuse (s : State) (c : Issuer) (k : Nat) : State := s.raiseHere c 15 (BitVec.ofNat 64 k) 0

def State.keyOf (s : State) (c : Issuer) (k : Nat) : Key := (s.strand c.tile c.strand).key k

/-- R323 `kexp`. -/
def execKexp (t : Trig) (s : State) : Host.Outcome State Fault Refusal :=
  s.trigger 7 (msgNeed true true false false) t fun c o s =>
    let v := (low64 o.t).toNat % 8
    let k := s.keyOf c v
    let pairs := (List.range 4).filterMap fun p =>
      let pid := (o.o0.extractLsb' (16 * p) 16).toNat
      if pid = 0xFFFF then none else some (pid, (o.o1.extractLsb' (16 * p) 16).toNat)
    if k.st ≠ .plain then some (.error (s.keyMisuse c v))
    else match pairs.foldl (fun acc p => acc.bind fun k => k.expect p.1 p.2) (some k) with
      | some k => some (.ok (s.modKey c.tile c.strand v fun _ => k))
      | none => some (.error (s.keyMisuse c v))

/-- R324 `kclr`. -/
def execKclr (t : Trig) (s : State) : Host.Outcome State Fault Refusal :=
  s.trigger 7 (msgNeed false false false false) t fun c o s =>
    let ks := (List.range 8).filter fun k => o.t.getLsbD k
    match ks.find? fun k => decide ((s.keyOf c k).st = .ring) || decide ((s.keyOf c k).st = .closing) with
    | some k => some (.error (s.keyMisuse c k))
    | none => some (.ok (s.modStrand c.tile c.strand fun x =>
        ks.foldl (fun x k => { x.modKey k fun _ => Key.empty with kflt := x.kflt.set k 0 }) x))

/-- R325: the status of a key. -/
def Key.status (k : Key) : W64 :=
  let st := match k.st with | .plain => 0 | .ring => 1 | .closing => 2 | .faulted => 3
  let rem := ((k.entries.filter KeyEntry.x).map fun e => e.exp - e.got).sum
  BitVec.ofNat 64 (st * 2 ^ 61 + (if k.complete then 2 ^ 60 else 0) + (if k.endF then 2 ^ 59 else 0) + (if k.ovr then 2 ^ 58 else 0)
    + (k.ring.map Ring.filled).getD 0 * 2 ^ 48 + (k.ring.map Ring.head).getD 0 * 2 ^ 40 + k.entries.length * 2 ^ 32 + min rem (2 ^ 32 - 1))

/-- R325 `krd`. -/
def execKrd (t : Trig) (s : State) : Host.Outcome State Fault Refusal :=
  s.trigger 7 { msgNeed false false false false with result := some 7 } t fun c o s =>
    let v := (low64 o.t).toNat % 8
    some (.ok (s.result c 7 2 t.w (widen (s.keyOf c v).status) 0 0))

/-- R321 `free`: the notice waits for the accesses of the bundle and of those before it. -/
def execFree (t : Trig) (s : State) : Host.Outcome State Fault Refusal :=
  s.trigger 7 (msgNeed false false false false) t fun c o s =>
    let n := (low64 o.t).toNat % 8
    match (s.keyOf c n).st, (s.keyOf c n).ring with
    | .ring, some r =>
      if r.filled = 0 then some (.error (s.keyMisuse c n))
      else
        let s := s.modKey c.tile c.strand n fun k => { k with ring := some { r with filled := r.filled - 1, head := (r.head + 1) % r.nslot } }
        some (.ok (s.after 1 .freedSlotNotice
          { tile := c.tile, strand := 8 * c.strand + n, node := (s.strand c.tile c.strand).depth, id := r.source, arg := 8, word := BitVec.ofNat 64 c.seq, bytes := [], flag := false }))
    | _, _ => some (.error (s.keyMisuse c n))

/-- R322 `close`. -/
def execClose (t : Trig) (s : State) : Host.Outcome State Fault Refusal :=
  s.trigger 7 (msgNeed false false false false) t fun c o s =>
    let n := (low64 o.t).toNat % 8
    let k := s.keyOf c n
    match k.st, k.ring with
    | .ring, some r =>
      if k.endF then some (.ok (s.modKey c.tile c.strand n fun _ => Key.empty))
      else some (.ok ((s.modKey c.tile c.strand n fun k => { k with st := .closing }).stopProducer c.tile c.strand n r.source))
    | _, _ => some (.error (s.keyMisuse c n))

/-! ### Waiting (R202, R314) -/

/-- A `free` (R321). -/
def isFree (w : MoveWord) : Bool := isTriggerWord w && decide (wordUnit w = 7) && decide (wordPort w = 7)

/-- R202, R314, R321 `waitk`: a `free` of an earlier bundle comes first. -/
def execWaitk (sync : Bool) (mask : BitVec 8) (s : State) : Host.Outcome State Fault Refusal :=
  match s.issuer with
  | none => .fault .noIssuer
  | some c =>
    let ks := (List.range 8).filter fun k => mask.getLsbD k
    if !s.slotFree c sync || (s.strand c.tile c.strand).stream.unissuedBelow c.seq isFree then .next (s.stall c)
    else match ks.find? fun k => decide ((s.keyOf c k).st = .faulted) with
      | some k => .next (s.raiseHere c 15 (BitVec.ofNat 64 k) (((s.strand c.tile c.strand).kflt.getD k 0).extractLsb' 60 4 |>.setWidth 16))
      | none =>
        if ks.all fun k => (s.keyOf c k).complete then
          .next ((s.modStrand c.tile c.strand fun x => { x with lastWaitk := (c.seq, c.step) :: x.lastWaitk.filter fun w => decide (w.2 = c.step) }).advance c)
        else .next (s.stall c)

/-! ### Promises (R327, R328) -/

/-- The addresses at which the sides of a command begin. -/
def Place.base : Place → Nat
  | .va v => v
  | .pin _ pa => pa
  | .scratch _ a => a

def Shape.off (d : Shape) (n : Nat) : Nat := walkOffset d.ext d.str d.tq n

def shapeCount (d : Shape) : Nat := d.ext.foldl (· * ·) 1

/-- R309, R319: elements of a command, their size, and the destination. -/
def CmdKind.total : CmdKind → Nat
  | .copy _ d => shapeCount d
  | .gather r d => r.idx.length * r.rb / d.esize
  | _ => 0

def CmdKind.dest : CmdKind → Option Shape
  | .copy _ d => some d
  | .gather _ d => some d
  | _ => none

/-- R309, R319: where element n of the source stands; nothing for an element of a row of zeros. -/
def CmdKind.source (k : CmdKind) (n : Nat) : Option (Place × Nat) :=
  match k with
  | .copy a _ => some (a.place, a.off n)
  | .gather r d =>
    let i := r.idx.getD (n * d.esize / r.rb) 0
    if i = 0xFFFFFFFF then none else some (r.src, i * r.rstr + n * d.esize % r.rb)
  | _ => none

/-- The units of some size that n bytes at an address touch. -/
def unitsOf (size a n : Nat) : List Nat := (List.range ((a + n - 1) / size - a / size + 1)).map (· + a / size)

/-- R327: the lines that each element of a block's walk reads, in walk order. -/
def Blk.lineList (b : Blk) : List (List Nat) := (List.range b.count).map fun n => unitsOf lineSize (handleVa (BitVec.ofNat 64 (b.addr n))) b.bytes

/-- R327: the lines that each element of a command reads, in walk order. -/
def CmdKind.lineList (k : CmdKind) : List (List Nat) :=
  match k with
  | .stream b _ => b.lineList
  | _ => (List.range k.total).map fun n => match k.source n, k.dest with
    | some p, some d => unitsOf lineSize (p.1.base + p.2) d.esize
    | _, _ => []

/-- R327: the lines that a command reads. -/
def linesRead (k : CmdKind) : Nat := k.lineList.flatten.eraseDups.length

/-- R328: of lines read in walk order, those that no element before the n-th has read. -/
def linesLeft (l : List (List Nat)) (n : Nat) : Nat := ((l.drop n).flatten.eraseDups.filter fun a => !(l.take n).flatten.contains a).length

/-- R327: the commands of a strand that still have to credit a key. -/
def State.crediting (s : State) (t n run k : Nat) : List Cmd :=
  (s.cmds.map Prod.snd).filter fun m => decide (m.tile = t) && decide (m.strand = n) && decide (m.run = run) && decide (m.key = k)
    && (match m.kind with | .copy _ _ => true | .gather _ _ => true | _ => false)

/-- R320, R327: the walks that commands of a strand have begun into a key's ring. -/
def State.feeding (s : State) (t n run k : Nat) : List StreamW :=
  (s.streams.map Prod.snd).filter fun w => decide (w.tile = t) && decide (w.other = .ring n k) && decide (w.run = run)

/-- R320, R327: the commands that are still to begin a walk into a key's ring. -/
def State.opening (s : State) (t n run k : Nat) : List Cmd :=
  (s.cmds.map Prod.snd).filter fun m => decide (m.tile = t) && decide (m.strand = n) && decide (m.run = run) && decide (m.key = k)
    && (match m.kind with | .stream _ _ => true | _ => false)

/-- R327: a key's promise. -/
def State.promiseOf (s : State) (t n k : Nat) : W64 :=
  let x := s.strand t n
  let y := x.key k
  let ps := (s.crediting t n x.run k ++ s.opening t n x.run k).map Cmd.promise ++ (s.feeding t n x.run k).map StreamW.promise ++ y.revised.toList
  if y.complete then 0 else if ps.isEmpty then 0xFFFFFFFFFFFFFFFF else BitVec.ofNat 64 (ps.foldl max 0)

/-- R327 `promise`: it lands two steps later, and its landing arms the watch. -/
def execPromise (t : Trig) (s : State) : Host.Outcome State Fault Refusal :=
  s.landTrigger 7 (msgNeed false false true false) t (fun o => low64 o.o2) [0] fun c o p s =>
    let v := (low64 o.t).toNat % 8
    if !landRoom (s.core c.tile) then none
    else
      let w := s.promiseOf c.tile c.strand v
      let (i, s) := s.addLand c p none 1 false false 0
      let s := s.modCore c.tile fun co => { co with lands := co.lands.map fun a => if a.lid = i then { a with key := some v } else a }
      some (.ok (s.after 1 .landingDataArrival
        { Operand.zero with tile := c.tile, strand := c.strand, node := 5, id := i + 1, arg := 3 * s.stepCost c.tile - (s.core c.tile).credit, bytes := leBytes 8 w.toNat }))

/-- R328: lines that a command has still to read. -/
def Cmd.unread (m : Cmd) : Nat := linesLeft m.kind.lineList m.next

/-- R328: lines that a walk into a ring has still to read. -/
def StreamW.unread (w : StreamW) : Nat := linesLeft w.blk.lineList (w.next * w.blk.blen * (16 / w.blk.bytes))

/-- PROMISE_WATCH_EXPIRY (R328). -/
def execPromiseWatchExpiry (s : State) : Host.Outcome State Fault Refusal :=
  let o := s.ev
  s.unlessStopped o.tile .promiseWatchExpiry fun s =>
    let x := s.strand o.tile o.strand
    let k := x.key o.node
    if k.watch ≠ some o.word.toNat ∨ x.st = .free ∨ x.st = .suspended then .next s
    else if k.complete then .next (s.modKey o.tile o.strand o.node fun k => { k with watch := none })
    else
      let cmds := s.crediting o.tile o.strand x.run o.node ++ s.opening o.tile o.strand x.run o.node
      let left := (cmds.map Cmd.unread).sum + ((s.feeding o.tile o.strand x.run o.node).map StreamW.unread).sum
      let s := s.modKey o.tile o.strand o.node fun k => { k with watch := none, revised := some (o.word.toNat + 200 + 2 * left) }
      .next (s.raiseAsync o.tile o.strand ⟨11, (o.word <<< 8) ||| BitVec.ofNat 64 o.node, 0, 0⟩)

end Sys2Proof.Machine
end

