-- ==== Sys2Proof/Machine/Home.lean ====
section
/-! DEFINITION. Requests at their homes: plain loads and stores (R172, R353, R419-R421), writes to replicated pages (R413, R439), and what
comes back to the requester (R76, R164, R358, R363). -/

namespace Sys2Proof.Machine

/-! ### Writes at the home -/

/-- R369, R387: what a Mordant does after a plain write or atomic on its memory, and after an atomic on a ring's `CIDX`. -/
def State.afterWrite (s : State) (pa n : Nat) (atomic : Bool) : State :=
  let s := (s.syncWritten pa n).keepRings pa n
  if atomic then
    s.ctxs.foldl (fun s q =>
      if q.2.held.isEmpty then s
      else if [false, true].any (fun park => match s.ctxPa q.1 (q.2.ringVa park + 8) with
          | some a => decide (a < pa + n) && decide (pa < a + 4)
          | none => false) then s.atTick s.tick 0 .faultRingRecheck { Operand.zero with node := q.1 }
      else s) s
  else s

/-- A write at its home; false when a partial write was dropped (R420). [Assumption 55: DEDUCED.] -/
def State.homeWrite (s : State) (pa : Nat) (bs : List Byte) (comp atomic : Bool) : State × Bool :=
  let s := match physKind pa with | .window t off => s.oweBanks t true (granulesAt off bs.length) | _ => s
  let r := s.physWrite pa bs comp
  (if r.2 then r.1.afterWrite pa bs.length atomic else r.1, r.2)

/-- R350, R472: a write from outside the module, of which only the bytes that lie where such a one reaches are performed. -/
def State.outsideWrite (s : State) (pa : Nat) (bs : List Byte) : State :=
  let reached := (List.range bs.length).filter fun i => windowReaches (pa + i)
  if reached.length = bs.length then (s.homeWrite pa bs false false).1
  else reached.foldl (fun s i => (s.homeWrite (pa + i) [bs.getD i 0] false false).1) s

/-! ### Replicated pages (R439) -/

/-- R439: a propagated write at a copy, granule by granule, each only over a lesser pair. [Assumption 55: DEDUCED.] -/
def State.applyCopy (s : State) (pa : Nat) (bs : List Byte) (comp : Bool) (pair : Nat) : State :=
  (granuleParts pa bs).foldl (fun s g =>
    if SMap.get s.pairs 0 (g.1 / 16) < pair then { (s.homeWrite g.1 g.2 comp false).1 with pairs := SMap.set s.pairs (g.1 / 16) pair } else s) s

/-- R413, R439: a write by an agent of a tile to a replicated page, whose address is that of the tile's own die's copy, with the number of its
propagation to the others. [Assumption 55: DEDUCED.] -/
def State.writeReplicated (s : State) (tile : Nat) (w : Writer) (ctx pa : Nat) (bs : List Byte) (comp : Bool) : State × Bool × Nat :=
  let r := s.homeWrite pa bs comp false
  let q := r.1.spreadWrite tile w ctx pa bs comp
  (q.1, r.2, q.2)

/-! ### Runs of one line (R419) -/

/-- The runs of bytes that a walk's burst writes into one line, as its write carries them: offset, length and bytes of each. -/
def runsBytes (runs : List (Nat × List Byte)) : List Byte := runs.flatMap fun r => leBytes 1 r.1 ++ leBytes 1 r.2.length ++ r.2

def runsOf : Nat → List Byte → List (Nat × List Byte)
  | 0, _ => []
  | fuel + 1, bs =>
    if bs.length < 2 then []
    else
      let n := leNat ((bs.drop 1).take 1)
      (leNat (bs.take 1), (bs.drop 2).take n) :: runsOf fuel (bs.drop (2 + n))

/-- R419: the runs of one line written as a single write: the line replaced when they cover it, else merged once. -/
def State.writeRuns (s : State) (tile base : Nat) (runs : List (Nat × List Byte)) (comp : Bool) : State × Bool :=
  match runs with
  | [(o, bs)] => (s.tallyMerge (some tile) (base + o) bs.length).homeWrite (base + o) bs comp false
  | _ =>
    if throughHbm base then
      let whole := (List.range lineSize).all fun i => runs.any fun r => decide (r.1 ≤ i) && decide (i < r.1 + r.2.length)
      let s := if whole then s else s.tallyMerge (some tile) base 1
      match (if whole then some (List.replicate lineSize 0) else s.readLine (base / lineSize)) with
      | some old => s.homeWrite base (runs.foldl (fun bs r => overlay bs 0 r.1 r.2) old) comp false
      | none => (s, false)
    else runs.foldl (fun acc r => let w := acc.1.homeWrite (base + r.1) r.2 comp false; (w.1, acc.2 && w.2)) (s, true)

/-! ### Plain accesses at the home -/

/-- R73, R425: a store through its own tile's window performed in its place among the strand's scratchpad stores. [Assumption 12: DEDUCED.] -/
def State.ownStore (s : State) (r : Req) : State :=
  match physKind r.pa with
  | .window t off =>
    let bs := r.data.take (scratchSize - off)
    let q := performStore s.mem t (s.strand t r.strand).stores ⟨r.seq, r.slot, r.level, [(off, bs)], false, false, []⟩
    ((s.setMem q.1).modStrand t r.strand fun x => { x with stores := q.2 }).oweBanks t true (granulesAt off bs.length)
  | _ => s

/-- R172, R424: a store performed, and acknowledged once it is performed at its scope: at module or system scope when it has reached every copy of
a replicated page. -/
def State.doStore (s : State) (i : Nat) (r : Req) : State :=
  let s := s.tallyMerge (some r.tile) r.pa r.data.length
  if r.repl then
    let w := s.writeReplicated r.tile ⟨r.strand, r.level, r.seq⟩ r.ctx r.pa r.data r.comp
    if 2 ≤ r.scope ∧ w.2.1 then { w.1 with reqs := SMap.set w.1.reqs i { r with stage := 2, spread := w.2.2 } }.after 1 .hbmWrite (opId i)
    else w.1.reply i r 0 (if w.2.1 then 0 else errorCode r.pa) []
  else if r.own then (s.ownStore r).reply i r 0 0 []
  else
    let w := s.homeWrite r.pa r.data r.comp false
    w.1.reply i r 0 (if w.2 then 0 else errorCode r.pa) []

/-- R424: a store whose write has still to reach some copy of its page is acknowledged when it has. -/
def State.awaitCopies (s : State) (i : Nat) (r : Req) : State :=
  if s.spreading r.spread then s.after 1 .hbmWrite (opId i) else s.reply i r 0 0 []

def State.doPlain (s : State) (i : Nat) (r : Req) : State :=
  match r.kind with
  | .load => s.doLoad i r
  | .ltag => s.doTag i r
  | _ => s.doStore i r

/-- REMOTE_ACCESS_PERFORM (R165, R172, R353): a request at its tile's translation unit, which a stopped tile holds (R392), then at its home, where a controller serves those of one
tick in the order of their tiles. -/
def execRemoteAccessPerform (s : State) : Host.Outcome State Fault Refusal :=
  let i := s.ev.id
  match SMap.lookup s.reqs i with
  | none => .next s
  | some r =>
    if r.stage = 0 then s.unlessStopped r.tile .remoteAccessPerform fun s => .next (s.departReq i r)
    else if s.ownWaits r then .next (s.after 1 .remoteAccessPerform (opId i))
    else if throughHbm r.pa then .next (s.atTick s.tick (r.tile + 1) (if r.kind = .store then .hbmWrite else .hbmRead) (opId i))
    else .next (s.doPlain i r)

/-- HBM_READ (R417, R420): a controller serves a read. -/
def execHbmRead (s : State) : Host.Outcome State Fault Refusal :=
  match SMap.lookup s.reqs s.ev.id with
  | some r => .next (s.doPlain s.ev.id r)
  | none => .next s

/-- The pieces of a run of bytes that stand in different pages: offset and bytes of each. [Assumption 23: DEDUCED.] -/
def pageSpans (va : Nat) (bs : List Byte) : List (Nat × List Byte) :=
  let first := 2 ^ 16 - va % 2 ^ 16
  if bs.isEmpty then [] else if bs.length ≤ first then [(0, bs)] else [(0, bs.take first), (first, bs.drop first)]

/-- What translating a run of bytes comes to: its pieces with their pages, a page that must be waited for, or a page that refuses. -/
inductive Spans where
  | ok (ps : List (Nat × TlbEntry × List Byte))
  | wait
  | refused
deriving DecidableEq, Repr

/-- R332, R344: where a capsule's data goes, page by page. -/
def State.capsulePages (s : State) (die ctx va : Nat) (bs : List Byte) (retry : Instr × Operand) : Spans × State :=
  (pageSpans va bs).foldl (fun (acc : Spans × State) q =>
    match acc.1 with
    | .ok ps =>
      match acc.2.translate die ctx ((va + q.1) % 2 ^ 52) .write none retry with
      | (.ok e, s) => (.ok (ps ++ [((va + q.1) % 2 ^ 52, e, q.2)]), s)
      | (.wait, s) => (.wait, s)
      | (_, s) => (.refused, s)
    | _ => acc) (.ok [], s)

/-- R332, R341, R344, R436: a capsule's data written by its sender; a page that cannot be written diverts it with code 0x0008. -/
def State.writeCapsule (s : State) : State :=
  let o := s.ev
  let die := dieOf o.tile
  match s.capsulePages die o.id o.word.toNat (capData o.bytes) (.hbmWrite, o) with
  | (.wait, s) => s
  | (.refused, s) => s.divert o.tile o.id o.bytes 8 (capCur o.bytes) o.flag
  | (.ok ps, s) => ps.foldl (fun s q =>
      let pa := q.2.1.pa q.1 die
      if leafP q.2.1.word then (s.writeReplicated o.tile .other o.id pa q.2.2 (leafC q.2.1.word)).1
      else s.sendWrite vnCopy o.id o.tile (homeTile pa) .other .hbmWrite
        { Operand.zero with tile := o.tile, arg := 4, node := if leafC q.2.1.word then 1 else 0, word := BitVec.ofNat 64 pa, bytes := q.2.2 }) s

/-- HBM_WRITE (R419, R420, R439): a controller performs a write, a propagated write to a copy, a write from another module, a
walk engine's, which it acknowledges, a capsule's, which its sender translates first, or one of the dispatcher or a Mordant that has waited for its page. -/
def execHbmWrite (s : State) : Host.Outcome State Fault Refusal :=
  let o := s.ev
  if o.arg = 5 then .next s.writeCapsule
  else if o.arg = 6 then .next (s.ctxWrite o.id o.word.toNat o.bytes)
  else if o.arg = 4 then .next ((s.tallyMerge (some o.tile) o.word.toNat o.bytes.length).homeWrite o.word.toNat o.bytes (decide (o.node = 1)) false).1
  else if o.flag then
    let s := { s with lamport := SMap.set s.lamport o.node (max (s.lamportOf o.node) (o.id / 8)) }
    .next (s.applyCopy o.word.toNat o.bytes (decide (o.arg = 1)) o.id)
  else if o.arg = 2 then .next ((s.tallyMerge none o.word.toNat o.bytes.length).outsideWrite o.word.toNat o.bytes)
  else if o.arg = 3 then
    let r := s.writeRuns o.tile o.word.toNat (runsOf o.bytes.length (o.bytes.drop 8)) (decide (o.node = 1))
    .next (r.1.send vnCopy (s.ctxOn o.tile) (homeTile o.word.toNat) o.tile .walkBurst
      { Operand.zero with tile := o.tile, id := o.id, arg := 2 + o.strand % 2, strand := o.strand / 2, node := if r.2 then 0 else 1, word := BitVec.ofNat 64 (leNat (o.bytes.take 8)) })
  else match SMap.lookup s.reqs o.id with
    | some r => .next (if r.stage = 2 then s.awaitCopies o.id r else s.doPlain o.id r)
    | none => .next s

/-! ### Replies at the tile -/

/-- One part of a request's data; an error makes the whole zero (R358). -/
def Land.arrive (a : Land) (v : Wide) (err : Bool) : Land :=
  if a.data.isSome then a
  else if err then { a with data := some 0 }
  else if a.parts ≤ 1 then { a with data := some (a.half ||| v) }
  else { a with parts := a.parts - 1, half := a.half ||| v }

def State.landPart (s : State) (t lid : Nat) (v : Wide) (err : Bool) : State :=
  s.modCore t fun co => { co with lands := co.lands.map fun a => if a.lid = lid then a.arrive v err else a }

/-- R358: cause 13 with the handle and the code. -/
def State.mordantError (s : State) (t n : Nat) (h : W64) (code : Nat) : State :=
  let x := s.strand t n
  if code = 0 ∨ x.st = .free ∨ x.st = .suspended then s else s.raiseAsync t n ⟨13, (h <<< 8) ||| BitVec.ofNat 64 code, 0, 0⟩

/-- LANDING_DATA_ARRIVAL (R76, R164, R327, R358, R372, R376): a reply reaches its tile, the steps that a promise takes have passed (5), or a `red`, to which
nothing else comes back, is refused (6). -/
def execLandingDataArrival (s : State) : Host.Outcome State Fault Refusal :=
  let o := s.ev
  let t := o.tile
  let n := o.strand
  let err := decide (o.arg ≠ 0)
  let word (k : Nat) := frameField o.bytes (8 * k) 8
  match o.node with
  | 0 => .next ((s.landPart t (o.id - 1) (BitVec.ofNat 1024 (leNat o.bytes)) err).mordantError t n o.word o.arg)
  | 1 =>
    let s := s.landPart t (o.id - 1) (BitVec.ofNat 1024 (word 0)) err
    .next ((s.modStrand t n fun x => x.recordReply (word 2) (word 0 / 2 ^ 32) err).mordantError t n o.word o.arg)
  | 2 => s.unlessStopped t .landingDataArrival fun s => .next ((s.waitReply t n (word 0 / 2 ^ 32) (word 2) err).mordantError t n o.word o.arg)
  | 3 => s.unlessStopped t .landingDataArrival fun s => .next (s.waitTimeout t n (word 0) (word 1))
  | 5 =>
    let left := o.arg - s.stepRate t
    .next (if left = 0 then s.landPart t (o.id - 1) (BitVec.ofNat 1024 (word 0)) false else s.after 1 .landingDataArrival { o with arg := left })
  | _ => if (s.strand t n).run = word 0 then .next (s.mordantError t n o.word o.arg) else .next s

end Sys2Proof.Machine
end

