-- ==== Sys2Proof/Machine/Engine.lean ====
section
/-! DEFINITION. Walk engines (R300-R310, R316-R320, R326, R327): command queues, copies and gathers, the memory ends of streams, rings, and
messages. -/

namespace Sys2Proof.Machine

/-! ### Reading and writing for a walk (R270, R306, R411, R419) -/

/-- A piece of a walk's read: bytes at hand, or bytes to be asked for at a tile: the address that the walk goes by, the tile, the address there, and
how many. -/
inductive Ask where
  | here (va : Nat) (bs : List Byte)
  | away (va home adr n : Nat) (scratch : Bool)
deriving DecidableEq, Repr

/-- What the translation of a burst's reads gives. -/
inductive Asks where
  | wait
  | fault (kind va : Nat)
  | refused (va : Nat)
  | asks (l : List Ask)
deriving DecidableEq, Repr

/-- What a walk reads for: its die, its context, the identity of a PORT's walk, and the event to perform again. -/
structure Walker where
  tile  : Nat
  ctx   : Nat
  cid   : Option Nat
  retry : Instr × Operand
deriving DecidableEq, Repr

/-- R306: whether a pinned handle's slot covers an access. -/
def Strand.pinCovers (x : Strand) (slot pa n : Nat) (acc : Access) : Option Bool :=
  match x.target (pinnedHandle slot pa) 0 n acc with
  | .pinned _ comp => some comp
  | _ => none

/-- A tile's scratchpad as an engine reads it; zero beyond it. -/
def State.engineRead (s : State) (t a n : Nat) : List Byte := if scratchSize < a + n then List.replicate n 0 else memRead s.mem (tileBase t + a) n

/-- An engine's write to a scratchpad; dropped beyond it (R305, R317). -/
def State.engineStore (s : State) (t a : Nat) (bs : List Byte) : State :=
  if scratchSize < a + bs.length then s else (s.setMem (memWrite s.mem (tileBase t + a) bs)).oweBanks t true (granulesAt a bs.length)

/-- A run of elements cut at the ends of lines; a run of zeros has no address. -/
def cutLine (q : Option Nat × Nat) : List (Option Nat × Nat) :=
  match q.1 with
  | none => [q]
  | some a =>
    let first := 128 - a % 128
    if q.2 ≤ first then [q] else [(some a, first), (some (a + first), q.2 - first)]

/-- Neighbouring runs of a read joined, as far as a line reaches. -/
def joinReads : List (Option Nat × Nat) → List (Option Nat × Nat)
  | [] => []
  | (a, n) :: r => match joinReads r with
    | (b, m) :: q =>
      if (match a, b with | some a, some b => decide (b = a + n) && decide (b % 128 ≠ 0) | none, none => true | _, _ => false) then (a, n + m) :: q
      else (a, n) :: (b, m) :: q
    | [] => [(a, n)]

/-- One run of a place translated (R306-R308, R413); x is the strand whose slots pinned handles name. -/
def State.askRun (s : State) (w : Walker) (x : Strand) (p : Place) (q : Option Nat × Nat) : Asks × State :=
  match q.1, p with
  | none, _ => (.asks [.here 0 (List.replicate q.2 0)], s)
  | some a, .scratch t _ => (.asks [if t = w.tile then .here a (s.engineRead t a q.2) else .away a t a q.2 true], s)
  | some a, .pin slot _ => match x.pinCovers slot a q.2 .read with
    | none => (.fault 3 a, s)
    | some _ => (.asks [.away a (homeTile a) a q.2 false], s)
  | some a, .va _ =>
    match s.translate (dieOf w.tile) w.ctx a .read w.cid w.retry with
    | (.wait, s) => (.wait, s)
    | (.fault k, s) => (.fault k a, s)
    | (.refused, s) => (.refused a, s)
    | (.zeros _, s) => (.asks [.here a (List.replicate q.2 0)], s)
    | (.ok e, s) =>
      let pa := e.pa a (dieOf w.tile)
      (.asks [.away a (homeTile pa) pa q.2 false], s)

/-- Every run of a burst translated before any is asked for. -/
def State.planAsks (w : Walker) (x : Strand) (p : Place) : List (Option Nat × Nat) → State → Asks × State
  | [], s => (.asks [], s)
  | q :: r, s => match s.askRun w x p q with
    | (.asks a, s) => match State.planAsks w x p r s with
      | (.asks l, s) => (.asks (a ++ l), s)
      | y => y
    | y => y

/-- R16, R306: the reads of a burst set out over the copy network; `who` is 0 for a command and 1 for a stream. -/
def State.sendAsks (s : State) (w : Walker) (who id : Nat) (l : List Ask) : Reads × State :=
  let (tag, s) := s.newId
  let runs := l.map fun a => match a with
    | .here va bs => (⟨va, some bs⟩ : ReadRun)
    | .away va _ _ _ _ => ⟨va, none⟩
  ((tag, runs), (l.zipIdx).foldl (fun s q => match q.1 with
    | .here _ _ => s
    | .away _ home adr n scratch => s.send vnCopy w.ctx w.tile home .walkBurst
        { tile := w.tile, strand := tag, node := q.2, id := id, arg := 4 + who, word := BitVec.ofNat 64 (if scratch then home * 2 ^ 20 + adr else adr)
          bytes := leBytes 8 n ++ leBytes 1 (if scratch then 1 else 0), flag := false }) s)

/-- Whether an engine's read request names a scratchpad. -/
def Operand.asksScratch (o : Operand) : Bool := decide (o.bytes.getD 8 0 = 1)

/-- A walk's read at its home, which sends the bytes back; a line that cannot be read gives none (R420). -/
def State.serveAsk (s : State) : State :=
  let o := s.ev
  let n := leNat (o.bytes.take 8)
  let a := o.word.toNat
  let home := if o.asksScratch then a / 2 ^ 20 else homeTile a
  let s := if o.asksScratch then s.oweBanks home false (granulesAt (a % 2 ^ 20) n) else s.tallyRead (some o.tile) a n
  let r := if o.asksScratch then some (s.engineRead home (a % 2 ^ 20) n) else s.physRead a n
  s.send vnCopy (s.ctxOn o.tile) home o.tile .walkBurst { o with arg := o.arg + 2, word := if r.isSome then 0 else 1, bytes := r.getD [] }

/-- The bytes of a read that has come whole. -/
def wholeRead (r : Reads) : Option (List Byte) :=
  if r.2.all fun q => q.data.isSome then some (r.2.flatMap fun q => q.data.getD []) else none

/-- One run of a burst's reads comes back. -/
def Reads.take (r : Reads) (tag i : Nat) (bs : List Byte) : Reads :=
  if r.1 = tag then (r.1, r.2.modify i fun q => { q with data := some bs }) else r

/-- A write that a walk is to make at its home: the address it goes by, the physical one, C and P of the page, the bytes, and the further runs of a burst that
stand in the same line (R419). -/
structure Put where
  va   : Nat
  pa   : Nat
  comp : Bool
  repl : Bool
  data : List Byte
  more : List (Nat × List Byte)
deriving DecidableEq, Repr

/-- Neighbouring bytes of a walk joined, as far as a line reaches (R419). -/
def joinRuns : List (Nat × List Byte) → List (Nat × List Byte)
  | [] => []
  | (a, bs) :: r => match joinRuns r with
    | (b, cs) :: q => if b = a + bs.length ∧ b % lineSize ≠ 0 then (a, bs ++ cs) :: q else (a, bs) :: (b, cs) :: q
    | [] => [(a, bs)]

/-- A run cut at the ends of lines. -/
def lineRuns (va : Nat) (bs : List Byte) : List (Nat × List Byte) :=
  let first := lineSize - va % lineSize
  if bs.length ≤ first then [(va, bs)] else [(va, bs.take first), (va + first, bs.drop first)]

/-- What the translation of a walk's writes gives. -/
inductive Puts where
  | wait
  | fault (kind va : Nat)
  | refused (va : Nat)
  | puts (l : List Put)
deriving DecidableEq, Repr

/-- Every page of a walk's writes translated before any is made. -/
def State.planVa (w : Walker) : List (Nat × List Byte) → State → Puts × State
  | [], s => (.puts [], s)
  | (va, bs) :: r, s =>
    match s.translate (dieOf w.tile) w.ctx va .write w.cid w.retry with
    | (.wait, s) => (.wait, s)
    | (.fault k, s) => (.fault k va, s)
    | (.refused, s) => (.refused va, s)
    | (.zeros _, s) => (.fault 4 va, s)
    | (.ok e, s) => match State.planVa w r s with
      | (.puts l, s) => (.puts (⟨va, e.pa va (dieOf w.tile), leafC e.word, leafP e.word, bs, []⟩ :: l), s)
      | x => x

/-- The same through a pinned handle. -/
def planPin (x : Strand) (slot : Nat) : List (Nat × List Byte) → Puts
  | [] => .puts []
  | (pa, bs) :: r =>
    match x.pinCovers slot pa bs.length .write with
    | none => .fault 3 pa
    | some comp => match planPin x slot r with
      | .puts l => .puts (⟨pa, pa, comp, false, bs, []⟩ :: l)
      | y => y

/-- R419: the writes of a burst to one line combined into one, in the walk's order; each write to a replicated page stays its own. [Assumption 25: DEDUCED.] [Assumption 55: DEDUCED.] -/
def combinePuts (l : List Put) : List Put :=
  l.foldl (fun acc p =>
    match acc.findIdx? fun q => decide (q.pa / lineSize = p.pa / lineSize) && !q.repl && !p.repl && decide (q.comp = p.comp) with
    | some i => acc.modify i fun q => { q with more := q.more ++ [(p.pa, p.data)] }
    | none => acc ++ [p]) []

/-- An engine's write on its way to its home, which acknowledges it; a replicated page is written at the tile's own copy (R413), and the acknowledgement
names its propagation to the others when it is of interest. `who` is 0 for a command and 1 for a stream, `burst` the burst of a command. -/
def State.engineWrite (s : State) (tile ctx id who burst : Nat) (writer : Writer) (wide : Bool) (p : Put) : State :=
  if p.repl then
    let r := s.writeReplicated tile writer ctx p.pa p.data p.comp
    r.1.after 1 .walkBurst { tile := tile, strand := burst, id := id, arg := 2 + who, node := if r.2.1 then 0 else 1, word := BitVec.ofNat 64 p.va,
                             bytes := if wide then leBytes 8 r.2.2 else [], flag := false }
  else
    s.sendWrite vnCopy ctx tile (homeTile p.pa) writer .hbmWrite
      { tile := tile, strand := 2 * burst + who, node := if p.comp then 1 else 0, id := id, arg := 3, word := BitVec.ofNat 64 (p.pa / lineSize * lineSize)
        bytes := leBytes 8 p.va ++ runsBytes (((p.pa, p.data) :: p.more).map fun r => (r.1 % lineSize, r.2)), flag := false }

/-! ### Queues (R304, R326, R327) -/

def State.engines (s : State) (t : Nat) : Engines := (s.tile t).engines
def State.modEngines (s : State) (t : Nat) (f : Engines → Engines) : State := s.modTile t fun y => { y with engines := f y.engines }
def State.modCmd (s : State) (i : Nat) (f : Cmd → Cmd) : State :=
  match SMap.lookup s.cmds i with
  | some m => { s with cmds := SMap.set s.cmds i (f m) }
  | none => s

/-- A queue with room for one more. [Assumption 34: DEDUCED.] -/
def State.queueRoom (s : State) (t q : Nat) : Bool := decide (((s.engines t).queues.getD q []).length < 16)

/-- Every queue of a tile looks at its head again. -/
def State.kickQueues (s : State) (t : Nat) : State :=
  (List.range 6).foldl (fun s q =>
    if ((s.engines t).queues.getD q []).isEmpty then s else s.once (s.tick + 1) 0 .walkCommandStart { Operand.zero with tile := t, arg := q }) s

/-- R326: what stands before a command of a queue issued now. -/
def State.fenced (s : State) (t q : Nat) : List Nat :=
  ((s.engines t).fences.filter fun f => f.1.testBit q).flatMap Prod.snd |>.filter fun i => (SMap.lookup s.cmds i).isSome

/-- R304, R327: a command put in its queue, with its promised tick. -/
def State.enqueueCmd (s : State) (c : Issuer) (q key scope : Nat) (kind : CmdKind) (lines far : Nat) : State :=
  let e := s.engines c.tile
  let p := max s.tick (e.promised.getD q 0) + 200 + 2 * lines + 4 * far
  let (i, s) := s.newId
  let x := s.strand c.tile c.strand
  let m : Cmd := { tile := c.tile, strand := c.strand, run := x.run, ctx := x.ctx, q := q, key := key, scope := scope, kind := kind, after := s.fenced c.tile q
                   begun := false, next := 0, reads := none, slots := [], read := false, failed := false, promise := p, lines := lines }
  let s := { s with cmds := SMap.set s.cmds i m }
  (s.modEngines c.tile fun e => { e with queues := e.queues.modify q fun l => l ++ [i], promised := e.promised.set q p }).kickQueues c.tile

/-- A command gone from its queue; what waits behind it goes on. -/
def State.removeCmd (s : State) (i : Nat) : State :=
  match SMap.lookup s.cmds i with
  | none => s
  | some m => ({ s with cmds := SMap.erase s.cmds i }.modEngines m.tile fun e =>
      let fences := e.fences.map fun (f : Nat × List Nat) => (f.1, f.2.filter fun j => j ≠ i)
      { e with queues := e.queues.map fun (l : List Nat) => l.filter fun j => j ≠ i, fences := fences.filter fun f => !f.2.isEmpty }).kickQueues m.tile

/-! ### Elements of commands -/

/-- R312, R318: the granules that a destination's walk touches. -/
def granulesOf (k : CmdKind) : Nat :=
  match k.dest with
  | some d => ((List.range k.total).flatMap fun n => unitsOf 16 (d.place.base + d.off n) d.esize).eraseDups.length
  | none => 0

/-- R319: the address by which element n of a command's source goes. -/
def CmdKind.sourceAt (k : CmdKind) (n : Nat) : Option Nat := (k.source n).map fun p => p.1.base + p.2

/-- The place of a command's source. -/
def CmdKind.sourcePlace : CmdKind → Place
  | .copy a _ => a.place
  | .gather r _ => r.src
  | _ => .va 0

/-- R327: the largest hop count to a destination. -/
def CmdKind.far (tile : Nat) : CmdKind → Nat
  | .send d _ _ _ => hops tile d
  | k => match k.dest with
    | some d => (d.tiles.map (hops tile)).foldl max 0
    | none => 0

/-! ### Engines shared (R268, R302, R304, R312) -/

def State.modStream (s : State) (i : Nat) (f : StreamW → StreamW) : State :=
  match SMap.lookup s.streams i with
  | some w => { s with streams := SMap.set s.streams i (f w) }
  | none => s

def State.kickStream (s : State) (i tile : Nat) : State := s.later 64 .walkBurst { Operand.zero with tile := tile, id := i }

/-- R268, R269: the places of the counts that PORT k follows. -/
def State.followed (s : State) (t k : Nat) : List Nat :=
  (List.range 4).filter (fun p => decide (p ≠ k) && decide ((s.node t (48 + p)).st ≠ .off) && !(s.node t (48 + p)).active.idle && ((s.node t (48 + p)).active.edge k).1)
    ++ (let p := (s.node t (48 + k)).active; if p.dir = 3 ∧ p.fnet then [4] else [])

/-- R268: whether PORT k may begin a burst. -/
def State.mayBegin (s : State) (t k : Nat) : Bool := (s.followed t k).all fun i => decide (0 < (s.node t (48 + k)).dones.getD i 0)

/-- R268: a done token that a full count holds back stalls the PORT's next tail. -/
def Node.holdsTail (nd : Node) (tail : Bool) : Bool := tail && nd.owed.any fun n => decide (0 < n)

/-- R302: whether a command has a burst to begin: at most 8 of its bursts are on their way. -/
def Cmd.mayGo (m : Cmd) : Bool := m.begun && !m.read && m.reads.isNone && decide (m.slots.length < 8) && m.kind.dest.isSome

/-- R268, R302: whether a stream has a burst to begin. -/
def State.streamMayGo (s : State) (w : StreamW) : Bool :=
  w.reads.isNone && !w.busy && !w.stuck &&
    (if w.writer then !w.held.isEmpty
     else decide (w.next < w.blk.bursts) && (w.begun || (decide (0 < w.credit) && (match w.other with
       | .port k => s.mayBegin w.tile k && !(s.node w.tile (48 + k)).holdsTail true
       | .ring _ _ => true))))

/-- R312: whether an engine is held back by a credit that waits for an entry: one of its command that is done, or of a delivery at engine 4. -/
def State.engineHeld (s : State) (t e : Nat) : Bool :=
  (decide (e = 4) && s.creditWaits (t * 8 + 4))
    || (match ((s.engines t).queues.getD e []).head? with
        | some i => (SMap.lookup s.cmds i).any fun m => m.read && !m.failed && m.slots.isEmpty
        | none => false)

/-- R304: whether an engine that serves a stream and commands comes to work i in turn: nothing that has a burst to begin stands between the one that began
a burst last and it. -/
def State.engineTurn (s : State) (t e i : Nat) : Bool :=
  let last := (s.engines t).last.getD e 0
  let rank (j : Nat) : Nat := if last < j then j else j + 2 ^ 64
  (s.cmds.all fun q => decide (q.1 = i) || decide (q.2.tile ≠ t) || decide (q.2.q ≠ e) || !q.2.mayGo || decide (rank i < rank q.1))
    && s.streams.all fun q => decide (q.1 = i) || decide (q.2.tile ≠ t) || decide (q.2.eng ≠ e) || !s.streamMayGo q.2 || decide (rank i < rank q.1)

def State.takeTurn (s : State) (t e i : Nat) : State := s.modEngines t fun g => { g with last := g.last.set e i }

/-! ### Copies, gathers and messages on their way (R305, R306, R312, R317) -/

/-- R312: a credit for a key of a strand of the tile where the delivery was made. -/
def State.sendCredit (s : State) (tile strand key pid n : Nat) : State :=
  s.atTick s.tick 0 .keyCredit { Operand.zero with tile := tile, strand := strand, node := key, id := pid, arg := n }

/-- R306, R312, R318: a command all of whose accesses are performed credits and leaves; a credit that finds no free entry keeps it. -/
def State.finishCmd (s : State) (i : Nat) : State :=
  match SMap.lookup s.cmds i with
  | none => s
  | some m =>
    if !m.read || !m.slots.isEmpty then s
    else if m.failed then s.removeCmd i
    else
      let x := s.strand m.tile m.strand
      if x.run ≠ m.run ∨ x.st = .free then s.removeCmd i
      else match (x.key m.key).credit (m.tile * 8 + m.q) (granulesOf m.kind * max 1 ((m.kind.dest.map Shape.tiles).getD []).length) with
        | some k => ((s.removeCmd i).modKey m.tile m.strand m.key fun _ => k).poke m.tile
        | none => s.after 1 .walkBurst { Operand.zero with tile := m.tile, id := i, arg := 1 }

/-- R306: a command stops at a burst. -/
def State.faultCmd (s : State) (i : Nat) (m : Cmd) (kind va : Nat) : State :=
  ((s.faultKey m.tile m.strand m.run m.key kind va).modCmd i fun m => { m with read := true, failed := true, reads := none }).finishCmd i

/-- R302: one access of a burst is performed; with its last one the burst's slot is free. -/
def Cmd.performed (m : Cmd) (burst : Nat) : Cmd :=
  { m with slots := (m.slots.map fun q => if q.1 = burst then (q.1, q.2 - 1) else q).filter fun q => decide (q.2 ≠ 0) }

/-- The command may end, or begin another burst. -/
def State.burstDone (s : State) (i burst : Nat) : State :=
  let s := s.modCmd i fun m => m.performed burst
  match SMap.lookup s.cmds i with
  | none => s
  | some m => if m.mayGo then s.once (s.tick + 1) 0 .walkBurst { Operand.zero with tile := m.tile, id := i, arg := 1 } else s.finishCmd i

/-- R305, R436: a burst to the scratchpads of a destination's tiles, which the routers replicate; each on another die has its number and stamp. -/
def State.sendMulticast (s : State) (i : Nat) (m : Cmd) (d : Shape) (bs : List Byte) : State :=
  let op (t : Nat) : Operand := { Operand.zero with tile := t, id := i, arg := m.next, bytes := bs }
  match d.tiles with
  | [] => s
  | t :: rest =>
    let far := d.tiles.filter fun u => decide (dieOf u ≠ dieOf m.tile)
    let s := far.foldl (fun s u => (s.newBurst (dieOf m.tile) (dieOf u) m.tile (.command m.strand) 0 .copyDelivery (op u)).2) s
    s.inject { s.packet vnCopy m.ctx m.tile t .copyDelivery (op t) with more := rest, burst := if far.isEmpty then none else some (s.ids - 1) }

/-- A burst of a command that has been read put on its way: to each tile of a scratchpad side, which the routers replicate (R305), or to its pages. -/
def State.burstOut (s : State) (i : Nat) (m : Cmd) (d : Shape) (bs : List Byte) (retry : Instr × Operand) : State :=
  let es := d.esize
  let k := bs.length / es
  let onward (s : State) (parts : Nat) : State :=
    let last := decide (m.kind.total ≤ m.next + k)
    let slots := if parts = 0 then m.slots else m.slots ++ [(m.next, parts)]
    let s := ((s.modCmd i fun m => { m with next := m.next + k, reads := none, slots := slots, read := last }).tally m.tile 22 1).tally m.tile 23 ((k * es + 15) / 16)
    if last then s.finishCmd i else s.later 60 .walkBurst { Operand.zero with tile := m.tile, id := i, arg := 1 }
  let parts := (List.range k).map fun j => (d.place.base + d.off (m.next + j), (bs.drop (es * j)).take es)
  let runs := joinRuns (parts.flatMap fun p => lineRuns p.1 p.2)
  match d.place with
  | .scratch _ _ => match d.tiles with
    | [] => onward s 0
    | _ => onward (s.sendMulticast i m d bs) d.tiles.length
  | .va _ => match State.planVa ⟨m.tile, m.ctx, none, retry⟩ runs s with
    | (.wait, s) => s
    | (.fault kd va, s) => s.faultCmd i m kd va
    | (.refused va, s) => s.faultCmd i m 2 va
    | (.puts l, s) => let l := combinePuts l; onward (l.foldl (fun s p => s.engineWrite m.tile m.ctx i 0 m.next (.command m.strand) (decide (2 ≤ m.scope)) p) s) l.length
  | .pin slot _ => match planPin (s.strand m.tile m.strand) slot runs with
    | .puts l => let l := combinePuts l; onward (l.foldl (fun s p => s.engineWrite m.tile m.ctx i 0 m.next (.command m.strand) (decide (2 ≤ m.scope)) p) s) l.length
    | .fault kd va => s.faultCmd i m kd va
    | _ => s

/-- The pages of a command's next burst, of up to 16 tokens (R302), are translated, and its reads set out. -/
def State.askBurst (s : State) (i : Nat) (m : Cmd) (d : Shape) (retry : Instr × Operand) : State :=
  let k := min (256 / d.esize) (m.kind.total - m.next)
  let runs := joinReads ((List.range k).flatMap fun n => cutLine (m.kind.sourceAt (m.next + n), d.esize))
  match State.planAsks ⟨m.tile, m.ctx, none, retry⟩ (s.strand m.tile m.strand) m.kind.sourcePlace runs s with
  | (.wait, s) => s
  | (.fault kd va, s) => s.faultCmd i m kd va
  | (.refused va, s) => s.faultCmd i m 2 va
  | (.asks l, s) =>
    let r := s.sendAsks ⟨m.tile, m.ctx, none, retry⟩ 0 i l
    let s := r.2.modCmd i fun m => { m with reads := some r.1 }
    match wholeRead r.1 with
    | some bs => s.burstOut i m d bs retry
    | none => s

/-- A command's burst: it begins when it may and its turn has come (R304), then goes on as far as its reads have come. -/
def State.cmdBurst (s : State) (i : Nat) (m : Cmd) (retry : Instr × Operand) : State :=
  match m.kind.dest with
  | none => s
  | some d =>
    if m.read then s.finishCmd i
    else match m.reads with
      | some (0, _) => s.askBurst i m d retry
      | some r => match wholeRead r with
        | some bs => s.burstOut i m d bs retry
        | none => s
      | none =>
        if !m.mayGo then s
        else if s.engineHeld m.tile m.q ∨ !s.engineTurn m.tile m.q i then s.after 1 .walkBurst retry.2
        else ((s.takeTurn m.tile m.q i).modCmd i fun m => { m with reads := some (0, []) }).askBurst i m d retry

/-- The source of a copy learns that a destination has performed a burst of it. -/
def State.copyAck (s : State) (m : Cmd) : State :=
  s.send vnCopy m.ctx s.ev.tile m.tile .copyDelivery { Operand.zero with tile := m.tile, id := s.ev.id, arg := s.ev.arg, flag := true }

/-- COPY_DELIVERY (R305, R308, R312, R326): a destination's engine 4 writes a burst of the walk; after the last it credits the key that the record names there, and the
source learns of that burst once the credit has found its entry (1). [Assumption 34: DEDUCED.] -/
def execCopyDelivery (s : State) : Host.Outcome State Fault Refusal :=
  let o := s.ev
  if o.flag then .next (s.burstDone o.id o.arg)
  else if s.creditWaits (o.tile * 8 + 4) then .next (s.after 1 .copyDelivery o)
  else if o.node = 1 then .next (match SMap.lookup s.cmds o.id with | some m => s.copyAck m | none => s)
  else match SMap.lookup s.cmds o.id with
  | none => .next s
  | some m => match m.kind.dest with
    | none => .next s
    | some d =>
      let k := o.bytes.length / d.esize
      let s := (List.range k).foldl (fun s j =>
        s.engineStore o.tile (d.place.base + d.off (o.arg + j)) ((o.bytes.drop (d.esize * j)).take d.esize)) s
      match d.dk with
      | some (n, key) =>
        if m.kind.total ≤ o.arg + k then
          .next ((s.sendCredit o.tile n key (o.tile * 8 + 4) (granulesOf m.kind)).after 1 .copyDelivery { o with bytes := [], node := 1 })
        else .next (s.copyAck m)
      | none => .next (s.copyAck m)

/-- SEND_DELIVERY (R312, R317, R326): the payload is written, and the named key credited; once the credit has found its entry the source learns of it (2), and the
message has left its queue. -/
def execSendDelivery (s : State) : Host.Outcome State Fault Refusal :=
  let o := s.ev
  if o.flag then
    if o.arg = 2 then .next (s.removeCmd o.id)
    else if s.creditWaits (o.node * 8 + 5) then .next (s.after 1 .sendDelivery o)
    else .next (s.send vnMessage (s.ctxOn o.node) o.tile o.node .sendDelivery { o with tile := o.node, arg := 2 })
  else
    let s := (List.range (o.bytes.length / 16)).foldl (fun s j => s.engineStore o.tile (o.arg + 16 * j) ((o.bytes.drop (16 * j)).take 16)) s
    let s := if o.strand < 64 then s.sendCredit o.tile (o.strand / 8) (o.strand % 8) (o.node * 8 + 5) (o.bytes.length / 16) else s
    .next (s.after 1 .sendDelivery { o with bytes := [], arg := 0, flag := true })

/-! ### Streams (R300-R304) -/

/-- R268: a burst of PORT p's is complete at some scopes: a done token for every PORT that its edges of those scopes name. -/
def State.emitAt (s : State) (t p : Nat) (scope : Nat → Bool) : State :=
  (List.range 4).foldl (fun s k =>
    let e := (s.node t (48 + p)).active.edge k
    if k ≠ p ∧ e.1 ∧ scope e.2 then s.atTick s.tick 0 .doneToken { Operand.zero with tile := t, node := 48 + k, arg := p } else s) s

def State.emitDone (s : State) (t p : Nat) : State := s.emitAt t p fun _ => true

/-- R268: the done tokens that PORT i holds back for PORT k are counted as far as k's count allows. -/
def State.releaseOwed (s : State) (t k i : Nat) : State :=
  let n := min ((s.node t (48 + i)).owed.getD k 0) (255 - (s.node t (48 + k)).dones.getD i 0)
  if i = k ∨ n = 0 then s
  else (s.modNode t (48 + i) fun nd => { nd with owed := nd.owed.modify k (· - n) }).modNode t (48 + k) fun nd => { nd with dones := nd.dones.modify i (· + n) }

/-- R268: PORT k begins a burst: each count falls by one, and a done token held back for it is counted. -/
def State.begins (s : State) (t k : Nat) : State :=
  (s.followed t k).foldl (fun s i =>
    let s := s.modNode t (48 + k) fun nd => { nd with dones := nd.dones.modify i fun n => n - 1 }
    if i < 4 then s.releaseOwed t k i else s) s

/-- R268: the counts of PORT k are 0 at a switch token, and the done tokens held back for it are counted from there. -/
def State.releasesOwed (s : State) (t k : Nat) : State := (List.range 4).foldl (fun s i => s.releaseOwed t k i) s

/-- DONE_TOKEN (R268): a done token reaches PORT `node` from PORT `arg`; over a full count it is held. -/
def execDoneToken (s : State) : Host.Outcome State Fault Refusal :=
  let o := s.ev
  s.unlessStopped o.tile .doneToken fun s =>
  if (s.node o.tile o.node).dones.getD o.arg 0 < 255 then .next (s.modNode o.tile o.node fun nd => { nd with dones := nd.dones.modify o.arg (· + 1) })
  else .next (s.modNode o.tile (48 + o.arg) fun nd => { nd with owed := nd.owed.modify (o.node - 48) (· + 1) })

/-- ORDERING_TOKEN (R269). -/
def execOrderingToken (s : State) : Host.Outcome State Fault Refusal :=
  let o := s.ev
  s.unlessStopped o.tile .orderingToken fun s =>
    let nd := s.node o.tile o.node
    if nd.st = .off ∨ nd.active.idle ∨ nd.active.dir ≠ 3 ∨ !nd.active.fnet then .next s
    else if nd.dones.getD 4 0 < 255 then .next (s.modNode o.tile o.node fun nd => { nd with dones := nd.dones.modify 4 (· + 1) })
    else .next (s.after 1 .orderingToken o)

/-- R270: a PORT's walk stops at a faulting burst. -/
def State.portFault (s : State) (i : Nat) (w : StreamW) (cause va : Nat) : State :=
  (s.modStream i fun w => { w with stuck := true, reads := none }).nodeCause w.tile (48 + w.eng) cause va false

/-- The address of element n of a memory end: an open handle plus the walk (R298, R299); one that is no address when the sum is no open handle. -/
def Blk.va (b : Blk) (n : Nat) : Nat :=
  let h : W64 := BitVec.ofNat 64 (b.addr n)
  if handleClass h = .opened then handleVa h else 2 ^ 52 + handleVa h

/-- The tokens of a reader's next burst, by number. -/
def StreamW.burstTokens (w : StreamW) : List Nat := (List.range (min w.blk.blen (w.blk.tokens - w.next * w.blk.blen))).map (· + w.next * w.blk.blen)

/-- A reader's burst cannot be read. -/
def State.readFault (s : State) (i : Nat) (w : StreamW) (kind va : Nat) : State :=
  let s := s.modStream i fun w => { w with reads := none }
  match w.other with
  | .port _ => s.portFault i w 7 (va % 2 ^ 52)
  | .ring n k => (s.faultKey w.tile n w.run k kind va).producerStops (opId i)

/-- R300, R303: a burst that has been read sets out for its consumer. -/
def State.streamOut (s : State) (i : Nat) (w : StreamW) (bs : List Byte) : State :=
  let bs := bs ++ List.replicate (15 - (bs.length + 15) % 16) 0
  let toks := w.burstTokens.zipIdx.map fun q => w.blk.token q.1 ((bs.drop (16 * q.2)).take 16) (s.scratchWord w.tile)
  let s := ((s.modStream i fun w => { w with busy := true, reads := none }).tally w.tile 22 1).tally w.tile 23 toks.length
  let op : Operand := { Operand.zero with tile := w.tile, id := i, word := BitVec.ofNat 64 w.tile, bytes := toksBytes toks }
  s.later 61 .streamBurstArrival (match w.other with | .port k => { op with arg := k + 1 } | .ring n k => { op with arg := 5, strand := 8 * n + k })

/-- The pages of a reader's next burst are translated, and its reads set out. -/
def State.askStream (s : State) (i : Nat) (w : StreamW) (retry : Instr × Operand) : State :=
  let k : Walker := ⟨w.tile, w.ctx, w.cid, retry⟩
  let runs := joinReads ((w.burstTokens.flatMap w.blk.elems).flatMap fun n => cutLine (some (w.blk.va n), w.blk.bytes))
  match State.planAsks k (s.strand w.tile w.strand) (.va 0) runs s with
  | (.wait, s) => s
  | (.fault kd va, s) => s.readFault i w kd va
  | (.refused va, s) => (s.modStream i fun w => { w with reads := none }).portFault i w 4 va
  | (.asks l, s) =>
    let r := s.sendAsks k 1 i l
    let s := r.2.modStream i fun w => { w with reads := some r.1 }
    match wholeRead r.1 with
    | some bs => s.streamOut i w bs
    | none => s

/-- R268, R300, R302-R304: a burst of a reader begins once its consumer has room, its PORT's done tokens have come and the engine comes to it; then it goes on
as far as its reads have come. -/
def State.readBurst (s : State) (i : Nat) (w : StreamW) (retry : Instr × Operand) : State :=
  match w.reads with
  | some (0, _) => s.askStream i w retry
  | some r => match wholeRead r with
    | some bs => s.streamOut i w bs
    | none => s
  | none =>
    if w.busy ∨ w.stuck ∨ w.blk.bursts ≤ w.next ∨ (w.credit = 0 ∧ !w.begun) then s
    else if !s.streamMayGo w ∨ s.engineHeld w.tile w.eng ∨ !s.engineTurn w.tile w.eng i then s.after 1 .walkBurst retry.2
    else
      let s := if w.begun then s else match w.other with | .port k => s.begins w.tile k | _ => s
      let w' := { w with begun := true, credit := if w.begun then w.credit else w.credit - 1, reads := some (0, []) }
      ((s.takeTurn w.tile w.eng i).modStream i fun _ => w').askStream i w' retry

/-- R303: whether a token of a consumer stands against its own T and `BLEN`; one that `cres` has let pass does not. -/
def tokenMisfits (b : Blk) (k : Nat) (x : Tok) : Bool := decide (x.num = 0) && (decide (b.tokens ≤ k) || (x.t != b.isTail k))

/-- R302, R303: the tokens of a writer's oldest burst that fit its block, up to the first that does not. -/
def StreamW.fitting (w : StreamW) : List Tok :=
  let l := w.held.headD []
  l.take ((l.zipIdx).takeWhile fun p => !tokenMisfits w.blk (w.got + p.2) p.1).length

/-- The burst or part of a burst under way leaves the writer: what is left of the burst comes first. -/
def StreamW.passed (w : StreamW) : StreamW :=
  let n := w.fitting.length
  let left := (w.held.headD []).drop n
  { w with busy := false, got := w.got + n, held := if left.isEmpty then w.held.drop 1 else left :: w.held.drop 1 }

/-- R302, R432: the writer has performed a burst, whose slot is free, or a piece of one. -/
def State.writerNotice (s : State) (i : Nat) (w : StreamW) (part : Bool) : State :=
  s.send vnCopy w.ctx w.tile w.tile .freedSlotNotice { Operand.zero with tile := w.tile, node := 48 + w.eng, id := i, flag := part }

/-- A memory writer's burst is performed at its own die: its PORT's burst is complete for the edges of that scope (R268, R424). -/
def State.writerNear (s : State) (w : StreamW) : State := if w.stuck ∨ w.part ∨ !w.whole then s else s.emitAt w.tile w.eng fun c => decide (c < 2)

/-- A memory writer's burst is performed on every die: its slot is free (R302), and its PORT's burst complete (R268). One whose write was lost stays (R270). -/
def State.writerDone (s : State) (i : Nat) (w : StreamW) : State :=
  if w.stuck then s.modStream i fun w => { w with busy := false }
  else
    let s := s.modStream i fun w => w.passed
    let s := if w.whole then s.writerNotice i w w.part else s
    let s := if w.whole ∧ !w.part then s.emitAt w.tile w.eng fun c => decide (2 ≤ c) else s
    s.kickStream i w.tile

/-- R424, R432: a memory writer's burst waits until its writes have reached every copy of their pages. -/
def State.writerWaits (s : State) (i : Nat) (w : StreamW) : State :=
  if w.spread.any s.spreading then s.after 1 .walkBurst { Operand.zero with tile := w.tile, id := i, arg := 8 } else s.writerDone i w

/-- R300-R303: a memory writer writes the burst it has held longest. -/
def State.writeBurst (s : State) (i : Nat) (w : StreamW) (retry : Instr × Operand) : State :=
  match w.held with
  | [] => s
  | toks :: _ =>
    if w.busy ∨ w.stuck then s
    else if w.reads.isNone ∧ (s.engineHeld w.tile w.eng ∨ !s.engineTurn w.tile w.eng i) then s.after 1 .walkBurst retry.2
    else
      let s := (s.takeTurn w.tile w.eng i).modStream i fun w => { w with reads := some (0, []) }
      let good := w.fitting
      if good.isEmpty ∧ !toks.isEmpty then (s.modStream i fun w => { w with stuck := true, reads := none }).nodeCause w.tile (48 + w.eng) 2 0 false
      else
        let parts := good.zipIdx.flatMap fun p => (w.blk.elems (w.got + p.2)).map fun n =>
          ((w.blk.addr n, ((leBytes 16 p.1.data.toNat).drop (n * w.blk.bytes % 16)).take w.blk.bytes) : Nat × List Byte)
        if parts.any fun p => decide (handleClass (BitVec.ofNat 64 p.1) ≠ .opened) then s.portFault i w 7 (handleVa (BitVec.ofNat 64 w.blk.base))
        else
          let runs := joinRuns (parts.flatMap fun p => lineRuns (p.1 % 2 ^ 52) p.2)
          match State.planVa ⟨w.tile, w.ctx, w.cid, retry⟩ runs s with
          | (.wait, s) => s
          | (.fault _ va, s) => s.portFault i w 7 va
          | (.refused va, s) => s.portFault i w 4 va
          | (.puts l, s) =>
            let l := combinePuts l
            let w' := { w with busy := true, reads := none, pend := l.length, spread := [], whole := decide (good.length = toks.length),
                               part := !((toks.getLast?.map Tok.t).getD true) }
            let s := (((s.modStream i fun _ => w').tally w.tile 22 1).tally w.tile 23 good.length)
            let s := l.foldl (fun s p => s.engineWrite w.tile w.ctx i 1 0 .other true p) s
            if l.isEmpty then (s.writerNear w').writerDone i w' else s

/-- A write of an engine has been performed; one that its home dropped is an uncorrectable line (R420). A command's at module or system scope waits for every copy
of its page (R424). -/
def State.engineAck (s : State) : State :=
  let o := s.ev
  if o.arg = 2 then
    match SMap.lookup s.cmds o.id with
    | none => s
    | some m =>
      if s.spreading (leNat o.bytes) then s.after 1 .walkBurst o
      else
        let s := if o.node = 1 then (s.faultKey m.tile m.strand m.run m.key 5 o.word.toNat).modCmd o.id fun m => { m with read := true, failed := true } else s
        s.burstDone o.id o.strand
  else match SMap.lookup s.streams o.id with
    | none => s
    | some w =>
      let s := if o.node = 1 then s.portFault o.id w 7 o.word.toNat else s
      let w := { w with pend := w.pend - 1, stuck := w.stuck || decide (o.node = 1), spread := if o.bytes.isEmpty then w.spread else leNat o.bytes :: w.spread }
      let s := s.modStream o.id fun _ => w
      if w.pend = 0 then (s.writerNear w).writerWaits o.id w else s

/-- A run of a burst's reads comes back to its engine; one that could not be read is an uncorrectable line (R306, R420). -/
def State.takeAsk (s : State) : State :=
  let o := s.ev
  let retry : Instr × Operand := (.walkBurst, { Operand.zero with tile := o.tile, id := o.id, arg := if o.arg = 6 then 1 else 0 })
  let va (r : Reads) : Nat := ((r.2[o.node]?).map ReadRun.va).getD 0
  if o.arg = 6 then
    match SMap.lookup s.cmds o.id with
    | none => s
    | some m => match m.reads with
      | none => s
      | some r =>
        if r.1 ≠ o.strand then s
        else if o.word = 1 then s.faultCmd o.id m 5 (va r)
        else
          let m := { m with reads := some (r.take o.strand o.node o.bytes) }
          (s.modCmd o.id fun _ => m).cmdBurst o.id m retry
  else match SMap.lookup s.streams o.id with
    | none => s
    | some w => match w.reads with
      | none => s
      | some r =>
        if r.1 ≠ o.strand then s
        else if o.word = 1 then s.readFault o.id w 5 (va r)
        else
          let w := { w with reads := some (r.take o.strand o.node o.bytes) }
          (s.modStream o.id fun _ => w).readBurst o.id w retry

/-- R293: a PORT's engine goes on after node cause 2, 4 or 7: at cause 2 the offending token counts as a tail; else the faulting burst is skipped
or tried again. -/
def State.resumeStream (s : State) (i cause : Nat) (again : Bool) : State :=
  match SMap.lookup s.streams i with
  | none => s
  | some w =>
    let s :=
      if cause = 2 then s.modStream i fun w => { w with stuck := false, held := match w.held with
        | (x :: l) :: r => ({ x with t := true, num := 1 } :: l) :: r
        | h => h }
      else if again then s.modStream i fun w => { w with stuck := false }
      else if w.writer then
        (s.modStream i fun w => { w with stuck := false, got := w.got + (w.held.headD []).length, held := w.held.drop 1 }).writerNotice i w false
      else
        let n := min w.blk.blen (w.blk.tokens - w.next * w.blk.blen)
        let gap : Tok := { dataTok false false false 0 0 0 0 with kind := 3, num := n }
        (s.modStream i fun w => { w with stuck := false, begun := false, next := w.next + 1 }).modNode w.tile (48 + w.eng) fun nd =>
          { nd with walk := nd.walk.map fun p => { p with buf := p.buf ++ [gap] } }
    s.kickStream i w.tile

/-- WALK_BURST (R16, R302, R304, R306, R424): a burst of a stream (0) or of a command (1), the acknowledgement of a write (2, 3), a read at its home (4, 5) or
come back (6, 7), or a writer whose burst has still to reach other dies (8). -/
def execWalkBurst (s : State) : Host.Outcome State Fault Refusal :=
  let o := s.ev
  if o.arg = 4 ∨ o.arg = 5 then .next s.serveAsk
  else s.unlessStopped o.tile .walkBurst fun s =>
    if o.arg = 2 ∨ o.arg = 3 then .next s.engineAck
    else if o.arg = 6 ∨ o.arg = 7 then .next s.takeAsk
    else if o.arg = 1 then
      match SMap.lookup s.cmds o.id with
      | some m => .next (s.cmdBurst o.id m (.walkBurst, o))
      | none => .next s
    else match SMap.lookup s.streams o.id with
      | some w => .next (if o.arg = 8 then s.writerWaits o.id w else if w.writer then s.writeBurst o.id w (.walkBurst, o) else s.readBurst o.id w (.walkBurst, o))
      | none => .next s

/-- A command of a queue begins (R304, R317, R320). -/
def State.beginCmd (s : State) (i : Nat) (m : Cmd) : State :=
  let s := s.modCmd i fun m => { m with begun := true }
  match m.kind with
  | .stream src ring =>
    let w : StreamW := { tile := m.tile, eng := m.q, writer := false, blk := src, ctx := m.ctx, cid := none, other := .ring m.strand m.key, credit := ring.nslot, next := 0, begun := false,
                         reads := none, held := [], busy := false, pend := 0, got := 0, stuck := false, whole := false, part := false, spread := [], strand := m.strand, run := m.run,
                         promise := m.promise }
    ({ s with streams := SMap.set s.streams i w }.removeCmd i).kickStream i m.tile
  | .send d a dk bs =>
    s.sendWrite vnMessage m.ctx m.tile d (.command m.strand) .sendDelivery { Operand.zero with tile := d, id := i, arg := a, node := m.tile, strand := (dk.map fun q => 8 * q.1 + q.2).getD 64, bytes := bs }
  | _ => s.later 60 .walkBurst { Operand.zero with tile := m.tile, id := i, arg := 1 }

/-- WALK_COMMAND_START (R304, R320, R326): the head of a queue begins once what it waits for is done; messages leave in order without
waiting for one another. -/
def execWalkCommandStart (s : State) : Host.Outcome State Fault Refusal :=
  let o := s.ev
  s.unlessStopped o.tile .walkCommandStart fun s =>
    let q := (s.engines o.tile).queues.getD o.arg []
    let cand := if o.arg = 5 then q.find? fun i => (SMap.lookup s.cmds i).any fun m => !m.begun else q.head?
    match cand with
    | none => .next s
    | some i => match SMap.lookup s.cmds i with
      | none => .next s
      | some m =>
        if m.begun ∨ m.after.any fun j => (SMap.lookup s.cmds j).isSome then .next s
        else if o.arg = 5 ∧ s.creditWaits (o.tile * 8 + 5) then .next (s.after 1 .walkCommandStart o)
        else .next ((s.beginCmd i m).kickQueues o.tile)

/-! ### Rings, notices and arrivals (R298, R301-R303, R313) -/

/-- R303, R313: a ring's stream has the wrong shape. -/
def State.ringMismatch (s : State) (t n k : Nat) (r : Ring) : State :=
  ((s.faultKey t n (s.strand t n).run k 0 0).stopProducer t n k r.source).raiseAsync t n ⟨16, BitVec.ofNat 64 k, 0, 0⟩

/-- R298, R303, R312, R313: a burst, or a piece of one, in its slot of a ring, which its tail fills; a watch whose key completes disarms
(R328). -/
def State.fillRing (s : State) (t n k : Nat) (r : Ring) (toks : List Tok) : State :=
  let blk : Blk := { blkOf [] with cnt := [r.tokens], esz := 4, blen := r.blen }
  let good := (toks.zipIdx).takeWhile fun p => !tokenMisfits blk (r.arrived + p.2) p.1
  let s := good.foldl (fun s p =>
    let i := r.arrived + p.2
    s.engineStore t (r.base + 16 * (i / r.blen % r.nslot * r.blen + i % r.blen)) (leBytes 16 p.1.data.toNat)) s
  if good.length < toks.length then s.ringMismatch t n k r
  else
    let arrived := r.arrived + toks.length
    s.modKey t n k fun y =>
      let y := { y with endF := decide (arrived = r.tokens), ring := some { r with arrived := arrived, filled := if arrived = 0 ∨ blk.isTail (arrived - 1) then r.filled + 1 else r.filled } }
      if y.complete then { y with watch := none, revised := none } else y

/-- A burst has left a walk engine for good. -/
def State.burstGone (s : State) (i : Nat) : State :=
  match SMap.lookup s.streams i with
  | none => s
  | some w =>
    if w.blk.bursts ≤ w.next + 1 then { s with streams := SMap.erase s.streams i }
    else (s.modStream i fun w => { w with busy := false, begun := false, next := w.next + 1 }).kickStream i w.tile

/-- R301: whether a PORT's walk names the sender of a burst or notice: the stream of its own engine, or a PORT or ring of another tile. -/
def Walk.names (w : Walk) (o : Operand) (pep : Nat) : Bool :=
  if pep = 0 then decide (w.blk.pep = 0) && decide (w.eng = o.id)
  else decide (w.blk.pep = pep) && decide (w.blk.peer = o.word.toNat) && (decide (pep ≠ 5) || decide (8 * w.blk.pstr + w.blk.pkey = o.strand))

/-- R268: the burst of a PORT of another tile, or of this one, is performed at its consumer: with its tail, a done token for every PORT that the sender's edges name. -/
def State.sentDone (s : State) (o : Operand) (data : List Tok) : State :=
  if data.getLast?.any Tok.t then
    (List.range 4).foldl (fun s j =>
      if ((s.node o.word.toNat (47 + o.node)).active.edge j).1 then s.later 65 .doneToken { Operand.zero with tile := o.word.toNat, node := 48 + j, arg := o.node - 1 } else s) s
  else s

/-- R294, R301: what becomes of a burst at a PORT: the PORT takes it, discards it, or is not yet open for its sender. -/
inductive PortTakes where
  | takes | drops | waits
deriving DecidableEq, Repr

/-- R294, R301: a burst at PORT `arg` - 1: those of a stream that is being closed are discarded, an engine's also once its PORT has left it. [Assumption 33: DEDUCED.] -/
def State.burstAtPort (s : State) (o : Operand) : PortTakes :=
  let nd := s.node o.tile (47 + o.arg)
  if o.node ≠ 0 ∧ nd.stopping.contains (portSource o.word.toNat (o.node - 1)) then .drops
  else if nd.st ≠ .off && (nd.active.dir = 3 || nd.active.dir = 6) && (nd.walk.any fun w => w.names o o.node) then .takes
  else if o.node = 0 then .drops else .waits

/-- R301, R302: a notice at PORT `node`: one for a walk that has been closed is discarded, unless its sender has opened another stream, whose walk is to come. [Assumption 33: DEDUCED.] -/
def State.noticeAtPort (s : State) (o : Operand) : PortTakes :=
  let nd := s.node o.tile o.node
  let source := portSource o.tile (o.node - 48)
  let t := o.word.toNat
  let opened := if o.arg = 5 then (let k := (s.strand t (o.strand / 8)).key (o.strand % 8); decide (k.st = .ring) && decide (k.ring.map Ring.source = some source))
    else (let c := s.node t (47 + o.arg); !c.stopping.contains source && c.walk.any fun w => decide (w.blk.pep ≠ 0) && decide (w.source = source))
  if nd.st ≠ .off && nd.active.dir = 4 && (nd.walk.any fun w => w.names o o.arg) then
    (if nd.walk.any fun w => !w.closed then .takes else if opened then .waits else .drops)
  else if o.arg = 0 then .drops else .waits

/-- R301: a burst or notice that has come before its PORT's plane names its sender waits in the router; at a stopped tile it is channel state (R393). [Assumption 34: DEDUCED.] -/
def State.portWaits (s : State) (act : Instr) (o : Operand) : Bool :=
  !(s.tile o.tile).stopped
    && ((decide (act = .streamBurstArrival) && decide (1 ≤ o.arg) && decide (o.arg ≤ 4) && decide (s.burstAtPort o = .waits))
      || (decide (act = .freedSlotNotice) && decide (o.arg ≠ 8) && decide (o.node ≠ 0) && decide (s.noticeAtPort o = .waits)))

/-- STREAM_BURST_ARRIVAL (R301, R303): at PORT `arg` - 1, in a ring (5), or at a memory writer (0). -/
def execStreamBurstArrival (s : State) : Host.Outcome State Fault Refusal :=
  let o := s.ev
  let toks := toksOf o.bytes
  let data := toks.filter fun x => decide (x.kind ≠ 2)
  if o.arg = 5 then
    let n := o.strand / 8
    let k := (s.strand o.tile n).key (o.strand % 8)
    let source := if o.node = 0 then o.id else portSource o.word.toNat (o.node - 1)
    let s' := match k.st, k.ring with
      | .ring, some r => if r.source = source then s.fillRing o.tile n (o.strand % 8) r data else s
      | _, _ => s
    let s' := if o.node = 0 then s'.burstGone o.id else s'.sentDone o data
    .next (s'.poke o.tile)
  else if o.arg = 0 then
    .next ((s.modStream o.id fun w => { w with held := w.held ++ [data] }).kickStream o.id o.tile)
  else
    let n := 47 + o.arg
    match s.burstAtPort o with
    | .takes =>
      let s := s.modNode o.tile n fun nd => { nd with walk := nd.walk.map fun w => { w with buf := w.buf ++ data }, since := nd.since + data.length }
      let s := (toks.filter fun x => decide (x.kind = 2)).foldl (fun s _ => s.atTick s.tick 0 .orderingToken (opNode o.tile n)) s
      let s := if data.getLast?.any Tok.t then s.emitDone o.tile (o.arg - 1) else s
      .next ((if o.node = 0 then s.burstGone o.id else s.sentDone o data).poke o.tile)
    | .drops => .next s
    | .waits => s.unlessStopped o.tile .streamBurstArrival fun s => .next (s.after 1 .streamBurstArrival o)

/-- R321: whether every slot has issued a `free`'s bundle and those before it. -/
def Strand.passed (x : Strand) (level seq : Nat) : Bool :=
  let st := if level < x.depth then ((x.asides.find? fun a => decide (a.level = level)).map Aside.stream).getD x.stream else x.stream
  decide (seq < st.minSeq) || decide (x.depth < level) || decide (x.st = .free) || decide (x.st = .suspended)

/-- R321: whether every store of a level below a sequence number has been performed. -/
def Strand.storedBelow (x : Strand) (level seq : Nat) : Bool := x.stores.all fun g => g.done || decide (g.level ≠ level) || decide (seq ≤ g.seq)

/-- FREED_SLOT_NOTICE (R302, R321): at a walk engine's stream or at a PORT; one of a `free` first waits to leave (8). -/
def execFreedSlotNotice (s : State) : Host.Outcome State Fault Refusal :=
  let o := s.ev
  s.unlessStopped o.tile .freedSlotNotice fun s =>
    if o.arg = 8 then
      let n := o.strand / 8
      .next (if (s.strand o.tile n).passed o.node o.word.toNat && (s.strand o.tile n).storedBelow o.node (o.word.toNat + 1) then s.notify o.tile o.id 5 n (o.strand % 8) else s.after 1 .freedSlotNotice o)
    else if o.node = 0 then
      match SMap.lookup s.streams o.id with
      | some w => .next ((s.modStream o.id fun w => { w with credit := w.credit + 1 }).kickStream o.id w.tile)
      | none => .next s
    else
      match s.noticeAtPort o with
      | .takes =>
        .next ((s.modNode o.tile o.node fun nd => { nd with walk := nd.walk.map fun w => { w with credit := if o.flag then w.credit else w.credit + 1, sent := w.sent - 1 } }).poke o.tile)
      | .drops => .next s
      | .waits => .next (s.after 1 .freedSlotNotice o)

/-! ### MSG triggers (R316-R320, R326) -/

/-- What an access of a trigger to the scratchpad leaves beside its data: its flags, the address `oar` takes, and its pieces. -/
abbrev ReadTrace := BitVec 10 × W64 × List Piece

/-- R316: a descriptor of n bytes read by the issuing bundle, its low bits ignored: the bytes and the flags. -/
def State.descriptor (s : State) (c : Issuer) (a : W64) (k n : Nat) : List Byte × ReadTrace :=
  let b := alignTo k a
  let ps : List Piece := (List.range (n / 16)).map fun g => (b.1 + 16 * g, 16)
  let f := accessFlags b.2 ps granuleOf
  (s.readPieces c ps, f.1, f.2, ps)

/-- R21, R167: the flags of a read by the issuing trigger set, and its bank ports taken. -/
def State.flagged (s : State) (c : Issuer) (f : ReadTrace) : State :=
  (s.modStrand c.tile c.strand fun x => x.addFlags c (c.seq + 1) f.1 0 f.2.1).oweBanks c.tile false f.2.2

/-- R317 `send`. -/
def execSend (t : Trig) (s : State) : Host.Outcome State Fault Refusal :=
  s.trigger 7 (msgNeed true true false true) t fun c o s =>
    let v := (low64 o.t).toNat
    let d := (low64 o.o0).toNat
    let tile := bitsAt d 32 13
    let x := s.strand c.tile c.strand
    if 16 ≤ v ∨ bitsAt d 52 12 ≠ 0 ∨ bitsAt d 19 13 ≠ 0 then some (.error (s.illegalDest c 0))
    else if !(s.ctx x.ctx).holds tile then some (.error (s.violation c (low64 o.o0)))
    else if !s.queueRoom c.tile 5 then none
    else
      let r := s.descriptor c (low64 o.o1) 4 (16 * (v + 1))
      let dk := if d.testBit 51 then some (bitsAt d 45 3, bitsAt d 48 3) else none
      some (.ok ((s.flagged c r.2).enqueueCmd c 5 0 0 (.send tile (d % 2 ^ 19) dk r.1) 0 (hops c.tile tile)))

/-- R308: a side of a command from its record. -/
def TensorRec.shape (r : TensorRec) (x : Strand) : Shape :=
  let place : Place :=
    if r.bk = 2 then .scratch r.tile (r.base % 2 ^ 19)
    else if r.bk = 1 then
      let h := (x.xaOf (r.base / 2 ^ 61) (r.base % 2 ^ 61)).1
      if handleClass h = .pinned then .pin (handleSlot h) (handlePa h) else .va (handleVa h)
    else .va r.base
  { place := place, ext := r.levels.map Prod.fst, str := r.levels.map Prod.snd, esize := r.esize, tq := decide (r.tq ≠ 0), tiles := if r.bk = 2 then r.tiles else []
    dk := if r.bk = 2 ∧ r.dk then some (bitsAt r.base 45 3, bitsAt r.base 48 3) else none }

/-- R310: a record's refusal on a strand's behalf. -/
def State.recordRefusal (s : State) (x : Strand) (r : TensorRec) (dest : Bool) : Nat :=
  r.refusal dest (fun j => ((x.extent j).len, (x.extent j).acc.toNat)) (s.ctx x.ctx).holds

/-- R318: a copy or gather put in its queue, once its checks have passed; f and g are the flags of its descriptors. -/
def State.issueCopy (s : State) (c : Issuer) (v : Nat) (kind : CmdKind) (f g : ReadTrace) : Option (Except State State) :=
  let key := v % 8
  let q := bitsAt v 4 3
  let k := s.keyOf c key
  if k.st = .ring ∨ k.st = .closing then some (.error (s.keyMisuse c key))
  else
    let nd := max 1 ((kind.dest.map fun d => d.tiles.length).getD 1)
    let k' := if v.testBit 3 then k.expect (c.tile * 8 + q) (granulesOf kind * nd) else some k
    match k' with
    | none => some (.error (s.keyMisuse c key))
    | some k' =>
      if !s.queueRoom c.tile q then none
      else some (.ok ((((s.flagged c f).flagged c g).modKey c.tile c.strand key fun _ => k').enqueueCmd c q key (bitsAt v 8 2) kind (linesRead kind) (kind.far c.tile)))

/-- R318: whether t's bits 63-10 and 7 and `WQ` are as they must be. -/
def copyArgOk (v : Nat) : Bool := decide (v < 2 ^ 10) && !v.testBit 7 && decide (bitsAt v 4 3 < 5)

/-- R318 `copy`. -/
def execCopy (t : Trig) (s : State) : Host.Outcome State Fault Refusal :=
  s.trigger 7 (msgNeed true true false true) t fun c o s =>
    let v := (low64 o.t).toNat
    let x := s.strand c.tile c.strand
    let a := s.descriptor c (low64 o.o0) 6 64
    let b := s.descriptor c (low64 o.o1) 6 64
    let src := tensorRecOf a.1
    let dst := tensorRecOf b.1
    let ra := s.recordRefusal x src false
    let rb := s.recordRefusal x dst true
    if !copyArgOk v then some (.error (s.illegalDest c 0))
    else if ra ≠ 0 then some (.error (s.illegalDest c (BitVec.ofNat 16 (0x100 + ra))))
    else if rb ≠ 0 then some (.error (s.illegalDest c (BitVec.ofNat 16 (0x200 + rb))))
    else if src.esize ≠ dst.esize ∨ src.count ≠ dst.count then some (.error (s.illegalDest c 0x207))
    else s.issueCopy c v (.copy (src.shape x) (dst.shape x)) a.2 b.2

/-- R319: the gather list's first 32 bytes and its indices. -/
structure GatherList where
  src  : W64
  nrow : Nat
  rstr : Nat
  rb   : Nat
  rsv  : Bool
deriving DecidableEq, Repr

def gatherListOf (bs : List Byte) : GatherList :=
  let w (i : Nat) : Nat := fieldOf bs (8 * i) 8
  ⟨BitVec.ofNat 64 (w 0), bitsAt (w 1) 0 32, bitsAt (w 2) 0 40, bitsAt (w 3) 0 32,
   decide (bitsAt (w 1) 32 32 ≠ 0) || decide (bitsAt (w 2) 40 24 ≠ 0) || decide (bitsAt (w 3) 32 32 ≠ 0)⟩

/-- R319 `gathr`. -/
def execGathr (t : Trig) (s : State) : Host.Outcome State Fault Refusal :=
  s.trigger 7 (msgNeed true true false true) t fun c o s =>
    let v := (low64 o.t).toNat
    let x := s.strand c.tile c.strand
    let a := s.descriptor c (low64 o.o0) 6 64
    let l := gatherListOf a.1
    let at0 := (alignTo 6 (low64 o.o0)).1
    let b := s.descriptor c (low64 o.o1) 6 64
    let dst := tensorRecOf b.1
    let rb := s.recordRefusal x dst true
    let badList := l.rsv || decide (l.nrow = 0) || decide (4096 < l.nrow) || decide (l.rb = 0) || decide (65536 < l.rb) || decide (scratchSize < at0 + 32 + 4 * l.nrow)
    if !copyArgOk v then some (.error (s.illegalDest c 0))
    else if badList then some (.error (s.illegalDest c 0x300))
    else if rb ≠ 0 then some (.error (s.illegalDest c (BitVec.ofNat 16 (0x200 + rb))))
    else if l.rb % dst.esize ≠ 0 then some (.error (s.illegalDest c 0x300))
    else if dst.count ≠ l.nrow * l.rb / dst.esize then some (.error (s.illegalDest c 0x207))
    else match handleClass l.src with
      | .null => some (.ok (((s.flagged c a.2).flagged c b.2).addFlags c flagNUL))
      | .bad => some (.error (s.violation c l.src))
      | cls =>
        let ps : List Piece := (List.range l.nrow).map fun i => (at0 + 32 + 4 * i, 4)
        let ix := s.readPieces c ps
        let place : Place := if cls = .pinned then .pin (handleSlot l.src) (handlePa l.src) else .va (handleVa l.src)
        s.issueCopy c v (.gather ⟨place, (List.range l.nrow).map fun i => fieldOf ix (4 * i) 4, l.rstr, l.rb⟩ (dst.shape x)) (a.2.1, a.2.2.1, a.2.2.2 ++ ps) b.2

/-- R320 `stream`. -/
def execStream (t : Trig) (s : State) : Host.Outcome State Fault Refusal :=
  s.trigger 7 (msgNeed true true false true) t fun c o s =>
    let v := (low64 o.t).toNat
    let key := v % 8
    let q := bitsAt v 4 3
    let x := s.strand c.tile c.strand
    let b := s.descriptor c (low64 o.o1) 6 64
    let ring := blkOf b.1
    let mem := decide (low64 o.o0 ≠ 0)
    let a := s.descriptor c (low64 o.o0) 6 64
    let src := blkOf a.1
    let rr := ring.refusal .ring true none
    let ra := src.refusal .memory false none
    let k := s.keyOf c key
    let kr (source : Nat) : Key :=
      { Key.empty with st := .ring, ring := some ⟨ring.base, ring.nslot, ring.blen, ring.tokens, 0, 0, 0, source⟩ }
    if 2 ^ 7 ≤ v ∨ v.testBit 3 ∨ 5 ≤ q then some (.error (s.illegalDest c 0))
    else if !ring.ring then some (.error (s.illegalDest c 0x400))
    else if rr ≠ 0 then some (.error (s.illegalDest c (BitVec.ofNat 16 (0x400 + rr))))
    else if k.st ≠ .plain ∨ !k.entries.isEmpty ∨ !(s.crediting c.tile c.strand x.run key).isEmpty then some (.error (s.keyMisuse c key))
    else if mem then
      if src.pep ≠ 0 then some (.error (s.illegalDest c 0x500))
      else if ra ≠ 0 then some (.error (s.illegalDest c (BitVec.ofNat 16 (0x500 + ra))))
      else if src.tokens ≠ ring.tokens ∨ src.blen ≠ ring.blen then some (.error (s.illegalDest c 0x504))
      else if !s.queueRoom c.tile q then none
      else
        let s := (s.flagged c b.2).flagged c a.2
        some (.ok ((s.modKey c.tile c.strand key fun _ => kr s.ids).enqueueCmd c q key 0 (.stream src ring) (linesRead (.stream src ring)) 0))
    else if ring.pep = 0 ∨ 4 < ring.pep then some (.error (s.illegalDest c 0x401))
    else
      let source := portSource ring.peer (ring.pep - 1)
      let s := (s.flagged c b.2).modKey c.tile c.strand key fun _ => kr source
      some (.ok ((List.range ring.nslot).foldl (fun s _ => s.notify c.tile source 5 c.strand key) s))

/-- R326 `qfence`. -/
def execQfence (t : Trig) (s : State) : Host.Outcome State Fault Refusal :=
  s.trigger 7 (msgNeed false false false false) t fun c o s =>
    let v := (low64 o.t).toNat
    if 64 ≤ v then some (.error (s.illegalDest c 0))
    else
      let before := (List.range 6).flatMap fun q => if v.testBit q then (s.engines c.tile).queues.getD q [] ++ s.fenced c.tile q else []
      some (.ok (if before.isEmpty then s else s.modEngines c.tile fun e => { e with fences := e.fences ++ [(v, before)] }))

end Sys2Proof.Machine
end

