-- ==== Sys2Proof/Machine/Power.lean ====
section
/-! DEFINITION. Power: clock gating (R454-R456), the current monitor and split issue (R457, R458), boost (R453, R459-R463), sensors (R464, R465)
and the event log they enter. -/

namespace Sys2Proof.Machine


/-- R401: clusters that pass or serve a packet of a context other than the one that runs on them. [Assumption 54: DESIGN CHOICE.] -/
def State.markShared (s : State) (ctx : Nat) (ks : List Nat) : State :=
  if ctx = 0 then s
  else ks.foldl (fun s k => if (s.cluster k).ran = ctx ∨ (s.cluster k).shared then s else s.modCluster k fun c => { c with shared := true }) s

/-- An entry of the event log. -/
def State.logEvent (s : State) (kind : Nat) (data : List Nat) : State := { s with log := s.log ++ [⟨kind, s.tick, data⟩] }

/-! ### Clock gating (R454-R456) -/

/-- CLOCK_GATE (R454): a tile quiet for 64 ticks gates its clock. -/
def execClockGate (s : State) : Host.Outcome State Fault Refusal :=
  let t := s.ev.tile
  let y := s.tile t
  if 64 ≤ y.quiet ∧ !y.gated ∧ !y.poked then .next (s.modTile t fun y => { y with gated := true, gatedAt := s.tick }) else .next s

/-- The next tick at which an in-rush arbiter may admit. -/
def admitTick (tick : Nat) : Nat := (tick / 4 + 1) * 4

/-- A tile in the order of its request, the lower tile first within one tick: requests of a tick come in tile order. -/
def State.queueWake (s : State) (t : Nat) : State :=
  let k := clusterOf t
  let q := SMap.get s.inrush [] k
  if q.contains t then s
  else ({ s with inrush := SMap.set s.inrush k (q ++ [t]) } : State).once (admitTick s.tick) 0 .inrushAdmit { Operand.zero with node := k }

/-- WAKE_REQUEST (R455): a hold ends at once; a gated tile asks its cluster's arbiter. -/
def execWakeRequest (s : State) : Host.Outcome State Fault Refusal :=
  let t := s.ev.tile
  let s := s.modTile t fun y => { y with poked := false, quiet := 0 }
  if (s.tile t).gated ∧ (s.tile t).wakeAt.isNone then .next (s.queueWake t) else .next s

/-- INRUSH_ADMIT (R455): eight tiles every 4 ticks. [Assumption 5: DESIGN CHOICE.] -/
def execInrushAdmit (s : State) : Host.Outcome State Fault Refusal :=
  let k := s.ev.node
  let q := SMap.get s.inrush [] k
  let admitTile (s : State) (t : Nat) : State :=
    { s.modTile t (fun y => { y with wakeAt := some (s.tick + max 1 (Config.delay s.fresh 60)) }) with fresh := s.fresh + 1 }
  let s := (q.take 8).foldl admitTile { s with inrush := SMap.setD s.inrush [] k (q.drop 8) }
  .next (if (q.drop 8).isEmpty then s else s.once (s.tick + 4) 0 .inrushAdmit s.ev)

/-! ### Sensors (R464, R465) -/

/-- R453: a rail's operating point, the matrix rail's at nominal or at boost. [Assumption 60: DEDUCED.] -/
def railMillivolts (high : Bool) (rail : Nat) : Int :=
  match rail with
  | 0 => if high then 460 else 400
  | 1 => 450 | 2 => 450 | _ => 620

def Cluster.raw (k : Cluster) (i : Nat) : Int := (k.sensors.getD i Sensor.reset).raw

/-- The cluster's power as its current sensors tell it, and as its temperatures do for the rules on current sensors. -/
def powerOf (high : Bool) (raw : Nat → Int) (temperature : Bool) : Int :=
  if temperature then ((List.range 4).map fun r => raw (4 + r) * railMillivolts high r).sum else ((List.range 4).map raw).sum

/-- The middle of three. -/
def median3 (a b c : Int) : Int := max (min a b) (min (max a b) c)

/-- R464: the median of a cluster's three other temperature sensors. -/
def medianOthers (raw : Nat → Int) (i : Nat) : Int :=
  match ((List.range 4).filter fun j => j ≠ i).map raw with
  | [a, b, c] => median3 a b c
  | _ => 0

def Sensor.suspect (x : Sensor) : Bool := x.range.isSome || x.stuck || x.apart.isSome

/-- A mark's count of good samples: set by a bad one, cleared after 256 good ones in a row. -/
def markCount (m : Option Nat) (bad : Bool) : Option Nat :=
  if bad then some 0 else m.bind fun n => if 255 ≤ n then none else some (n + 1)

/-- R464: one sample of sensor i. [Assumption 60: DEDUCED.] -/
def Sensor.sample (x : Sensor) (high : Bool) (i : Nat) (raw : Nat → Int) : Sensor :=
  let v := raw i
  let temp := decide (i < 4)
  let lo : Int := if temp then -20000 else 0
  let hi : Int := if temp then 125000 else Config.railMax (i - 4)
  let out := decide (v < lo) || decide (hi < v)
  let limit := if v < lo then lo else if hi < v then hi else x.limit
  let power := powerOf high raw temp
  let same := decide (v = x.raw)
  let start := if same then x.start else power
  let moved := same && (x.moved || decide (start.natAbs < 10 * (power - start).natAbs))
  let count := if same then x.same + 1 else 0
  let stuck := same && (x.stuck || (decide (256 ≤ count) && moved))
  let mid := medianOthers raw i
  let range := markCount x.range out
  let apart := if temp then markCount x.apart (decide (8000 < (v - mid).natAbs)) else none
  let value := if range.isSome then limit else if apart.isSome || (stuck && temp) then mid + 3000 else v
  ⟨v, value, range, stuck, apart, limit, count, start, moved⟩

/-- R465: the cluster's temperature. -/
def Cluster.temperature (k : Cluster) : Int := (k.sensors.take 4).foldl (fun m x => max m x.value) ((k.sensors.headD Sensor.reset).value)

def Cluster.suspects (k : Cluster) : Nat := (k.sensors.filter Sensor.suspect).length

/-- R465: a cluster after its sensors have been sampled, with the matrix rail at boost or not. -/
def Cluster.sampled (k : Cluster) (high : Bool) (raw : Nat → Int) : Cluster :=
  let k : Cluster := { k with sensors := k.sensors.zipIdx.map fun (q : Sensor × Nat) => q.1.sample high q.2 raw }
  let forced := if 2 ≤ k.suspects ∨ 105000 ≤ k.temperature then true
    else if k.suspects ≤ 1 ∧ k.temperature < 100000 then false else k.forced
  let level := if (k.sensors.getD 4 Sensor.reset).suspect then max 1 k.level else k.level
  { k with forced := forced, level := level }

/-- R464: whether a sensor bears a mark: 0 range, 1 stuck, 2 disagreement. -/
def Sensor.mark (x : Sensor) (k : Nat) : Bool :=
  match k with
  | 0 => x.range.isSome
  | 1 => x.stuck
  | _ => x.apart.isSome

/-- SENSOR_SAMPLE (R464, R465): every cluster's sensors, with the marks and forcings entered in the log. -/
def execSensorSample (s : State) : Host.Outcome State Fault Refusal :=
  let one (s : State) (i : Nat) : State :=
    let base := s.fresh
    let old := s.cluster i
    let new := old.sampled (decide (s.rail = .high)) fun j => Config.sensorReading (base + j) j
    let s := { s.modCluster i (fun _ => new) with fresh := base + 8 }
    let s := (List.range 24).foldl (fun s m =>
      let a := (old.sensors.getD (m / 3) Sensor.reset).mark (m % 3)
      let b := (new.sensors.getD (m / 3) Sensor.reset).mark (m % 3)
      if a = b then s else s.logEvent 1 [i, m / 3, m % 3, if b then 1 else 0]) s
    if old.forced = new.forced then s else s.logEvent 2 [i, if new.forced then 1 else 0]
  .next (((List.range 32).foldl one s).atTick (s.tick + 2100) 0 .sensorSample s.ev)

/-! ### Split issue (R457, R458) -/

/-- R457: a cluster's level after a sample of the matrix rail's current. [Assumption 60: DEDUCED.] -/
def Cluster.current (k : Cluster) (v : Int) : Cluster :=
  let raised := if Config.splitThreshold 2 ≤ v then 2 else if Config.splitThreshold 1 ≤ v then max 1 k.level else k.level
  let low := if raised = k.level ∧ 0 < k.level ∧ 10 * v < 9 * Config.splitThreshold k.level then k.low + 1 else 0
  let floor := if (k.sensors.getD 4 Sensor.reset).suspect then 1 else 0
  if 16 ≤ low then { k with level := max floor (k.level - 1), low := 0 } else { k with level := max floor raised, low := low }

/-- CURRENT_SAMPLE (R457): every cluster's monitor. -/
def execCurrentSample (s : State) : Host.Outcome State Fault Refusal :=
  let one (s : State) (i : Nat) : State := { s.modCluster i (fun k => k.current (Config.sensorReading s.fresh 4)) with fresh := s.fresh + 1 }
  .next (((List.range 32).foldl one s).atTick (s.tick + 64) 0 .currentSample s.ev)

/-! ### Boost (R459-R462) -/

def interval : Nat := 10500

def BoostClaim.sameAs (a b : BoostClaim) : Bool :=
  decide (a.tile = b.tile) && decide (a.strand = b.strand) && (decide (a.strand ≠ 8) || (decide (a.ctx = b.ctx) && decide (a.kslot = b.kslot)))

/-- BOOST_CLAIM_ARRIVAL (R459): the arbiter learns of a claim that still stands, or of its end. The dispatcher's own claim is held from here on (R113). -/
def execBoostClaimArrival (s : State) : Host.Outcome State Fault Refusal :=
  let o := s.ev
  let c : BoostClaim := ⟨if o.strand = 8 then 0 else o.tile, o.strand, o.id, o.arg⟩
  .next (s.modCluster o.node fun k =>
    let others := k.seen.filter fun d => !d.sameAs c
    let own := decide (o.strand = 8)
    let held := if own then (k.claims.filter fun d => !d.sameAs c) ++ (if o.flag then [c] else []) else k.claims
    let live := o.flag && held.any fun d => d.sameAs c
    { k with claims := held, seen := if live then others ++ [c] else others })

/-- R459: a claim or a release on its way to the arbiter, behind those of its cluster that are on their way. [Assumption 60: DEDUCED.] -/
def State.sendClaim (s : State) (o : Operand) : State :=
  let last := s.agenda.foldl (fun n e => if e.2.2.1 = .boostClaimArrival ∧ e.2.2.2.node = o.node then max n e.1 else n) 0
  { s.atTick (max last (s.tick + max 1 (Config.delay s.fresh 62))) 0 .boostClaimArrival o with fresh := s.fresh + 1 }

/-- R460, R453: a cluster with a grant at a boundary: a fall, as a grant, leaves the frequency as it is while the rail rises. [Assumption 60: DEDUCED.] -/
def Cluster.atBoundary (k : Cluster) (rail : Bool) : Cluster :=
  if !k.grant then k
  else if k.seen.isEmpty || k.forced then { k with grant := false, freq := 0, fall := false }
  else if k.fall then { k with grant := false, freq := 0, fall := false, claims := [], seen := [], exh := true }
  else if 1 ≤ k.balance then { k with balance := k.balance - 1, freq := if rail then 2 else k.freq }
  else { k with fall := true, freq := if rail then 1 else k.freq }

/-- R460: the highest `CPRI` among a cluster's claims. -/
def State.claimPriority (s : State) (k : Cluster) : Nat := k.seen.foldl (fun m c => max m (s.ctx c.ctx).cpri) 0

/-- R460: the candidate that is granted next. -/
def State.bestClaimant (s : State) : Option Nat :=
  let ok (i : Nat) : Bool := let k := s.cluster i; !k.seen.isEmpty && !k.grant && decide (1 ≤ k.balance) && !k.forced
  ((List.range 32).filter ok).foldl (fun best i => match best with
    | none => some i
    | some b =>
      let p := s.claimPriority (s.cluster i); let q := s.claimPriority (s.cluster b)
      if q < p ∨ (p = q ∧ (s.cluster b).balance < (s.cluster i).balance) then some i else some b) none

def State.grants (s : State) : Nat := ((List.range 32).filter fun i => (s.cluster i).grant).length

/-- R460: grants given while any is free. -/
def State.giveGrants (s : State) (rail : Bool) : Nat → State
  | 0 => s
  | n + 1 =>
    if 16 ≤ s.grants then s
    else match s.bestClaimant with
      | none => s
      | some i => (s.modCluster i fun k => { k with grant := true, fall := false, balance := k.balance - 1, freq := if rail then 2 else k.freq }).giveGrants rail n

/-- R461: whether every tile of a cluster was gated throughout the interval that ends now. -/
def State.clusterGated (s : State) (i : Nat) : Bool :=
  s.tiles.all fun p => decide (clusterOf p.1 ≠ i) || (p.2.gated && decide (p.2.gatedAt + interval ≤ s.tick))

/-- R461: refill, and the new interval's account of its frequency. -/
def Cluster.refill (k : Cluster) (nominal noClaim : Bool) : Cluster :=
  let k := { k with raised := decide (k.freq ≠ 0) }
  if !nominal || !noClaim then { k with streak := 0 }
  else if 3 ≤ k.streak then { k with streak := 0, balance := min 64 (k.balance + 1), exh := false }
  else { k with streak := k.streak + 1 }

/-- A strand holds no claim once its cluster's claims are cancelled. -/
def State.syncClaims (s : State) : State :=
  { s with tiles := s.tiles.map fun p => (p.1, { p.2 with strands := p.2.strands.map fun q =>
      (q.1, if q.2.claims ∧ !((s.cluster (clusterOf p.1)).claims.any fun c => decide (c.tile = p.1) && decide (c.strand = q.1)) then { q.2 with claims := false } else q.2) }) }

/-- BOOST_BOUNDARY (R453, R460, R461). -/
def execBoostBoundary (s : State) : Host.Outcome State Fault Refusal :=
  let high := decide (s.rail = .high)
  let ran := (List.range 32).map fun i => !(s.cluster i).raised
  let s := (List.range 32).foldl (fun s i => s.modCluster i fun k => k.atBoundary high) s
  let s := s.giveGrants high 16
  let s := (List.range 32).foldl (fun s i =>
    let free := (s.cluster i).seen.isEmpty || s.clusterGated i
    s.modCluster i fun k => k.refill (ran.getD i true) free) s.syncClaims
  let s := if s.grants = 0 then { s with rail := .low }
    else if s.rail = .low then ({ s with rail := .rising s.tick } : State).later 61 .railSettled (opId s.tick)
    else s
  .next (s.atTick (s.tick + interval) 0 .boostBoundary s.ev)

/-- RAIL_SETTLED (R453). -/
def execRailSettled (s : State) : Host.Outcome State Fault Refusal :=
  match s.rail with
  | .rising t =>
    if t ≠ s.ev.id then .next s
    else .next ((List.range 32).foldl (fun s i => s.modCluster i fun k => if k.grant then { k with freq := if k.fall then 1 else 2, raised := true } else k) { s with rail := .high })
  | _ => .next s

/-- R462: a strand's claim made or withdrawn, and told to the arbiter. -/
def State.claimMessage (s : State) (t n : Nat) (claim : Bool) : State :=
  let x := s.strand t n
  s.sendClaim { Operand.zero with tile := t, strand := n, node := clusterOf t, id := x.ctx, arg := x.kslot, flag := claim }

/-- R462: the claim of a strand withdrawn. -/
def State.withdrawClaim (s : State) (t n : Nat) : State :=
  if (s.strand t n).claims then
    let s := s.modCluster (clusterOf t) fun k => { k with claims := k.claims.filter fun c => !(decide (c.tile = t) && decide (c.strand = n)) }
    (s.modStrand t n fun x => { x with claims := false }).claimMessage t n false
  else s

/-- R113: the boost class of the kernel of a tile. -/
def Tile.boostClass (y : Tile) : Nat := (y.kernel.map fun k => k.2.boost).getD 0

/-- R463: `BGNT`. -/
def State.bgnt (s : State) (t n : Nat) : Nat :=
  let k := s.cluster (clusterOf t)
  let bit (b : Bool) (i : Nat) : Nat := if b then 2 ^ i else 0
  k.balance * 2 ^ 40 + k.freq * 2 ^ 32 + k.claims.length % 4096 * 2 ^ 16 + bit k.forced 5 + bit k.exh 4 + bit ((s.tile t).boostClass == 0) 3
    + bit (!k.claims.isEmpty && !k.grant) 2 + bit k.grant 1 + bit (s.strand t n).claims 0

end Sys2Proof.Machine
end

