-- ==== Sys2Proof/Machine/Link.lean ====
section
/-! DEFINITION. Routers and links: the passage of packets (R11, R14, R15), flits and replay (R442, R443), lanes and link states (R444, R445),
tunnels (R446-R448), Z ports (R450), counters and events (R451), and MSI-X messages (R470). -/

namespace Sys2Proof.Machine

/-! ### MSI-X (R470) -/

/-- R473: the port whose table a master's vectors use. -/
def portOf (master : Nat) : Nat := if master = 1 then 1 else 0

/-- What a word of the table reads before it is written: as PCI Express resets it, a vector is masked (bit 32 of its second word). -/
def msixReset (word : Nat) : W64 := if word % 2 = 1 then 0x1_0000_0000 else 0

def State.msixWord (s : State) (port word : Nat) : Nat := (SMap.get s.msix (msixReset word) (port * 4096 + word)).toNat

/-- A message of a vector: a write of its data to its address at the host of its function's own port, or its pending bit while it is masked. [Assumption 59: PRESUMED.] -/
def State.sendMsix (s : State) (master vector : Nat) : State :=
  let port := portOf master
  let ctl := s.msixWord port (2 * vector + 1)
  if ctl.testBit 32 then
    if s.pba.contains (port * 2048 + vector) then s else { s with pba := s.pba ++ [port * 2048 + vector] }
  else s.setMem (memWrite s.mem (hostCell port (hostBase + s.msixWord port (2 * vector) % 2 ^ 47)) (leBytes 4 (ctl % 2 ^ 32)))

/-! ### Links (R441) -/

/-- The link crossed in a direction out of a tile, by its name at its west or north end, and the direction of the passage: 0 away from that end. -/
def linkOut (t : Nat) (d : Dir) : Nat × Nat :=
  let die := dieOf t
  match d with
  | .east => (linkId false die 1 (t / 32 % 32), 0)
  | .west => (linkId false (die / 4 * 4 + (die + 3) % 4) 1 (t / 32 % 32), 1)
  | .south => (linkId false die 2 (t % 32), 0)
  | .north => (linkId false (die - 4) 2 (t % 32), 1)
  | .here => (0, 0)

/-- R441: a name of a link brought to the one it is kept under; nothing for a name of no link. -/
def canonicalLink (id : Nat) : Option Nat :=
  let die := bitsAt id 12 3
  let edge := bitsAt id 10 2
  let idx := bitsAt id 5 5
  if 2 ^ 16 ≤ id ∨ bitsAt id 0 5 ≠ 0 then none
  else if bitsAt id 15 1 = 1 then (if idx = 0 ∧ edge = (if die < 4 then 0 else 1) then some id else none)
  else match edge with
    | 1 => some id
    | 2 => if die < 4 then some id else none
    | 3 => some (linkId false (die / 4 * 4 + (die + 3) % 4) 1 idx)
    | _ => if 4 ≤ die then some (linkId false (die - 4) 2 idx) else none

def linkIsZ (id : Nat) : Bool := id.testBit 15
def linkIsY (id : Nat) : Bool := !linkIsZ id && decide (bitsAt id 10 2 = 2)

/-- A link over which flits pass: one that carries its traffic, or drains (R445). -/
def Link.passes (l : Link) : Bool := l.carries || decide (l.st = .draining)

/-- R441: a die's Z port, and the other port of its column. -/
def zPort (die : Nat) : Nat := linkId true die (if die < 4 then 0 else 1) 0
def zOther (id : Nat) : Nat := zPort ((bitsAt id 12 3 + 4) % 8)

/-- R441: the modules of the Z ring, 1 to 64, and this module's place z among them. [Assumption 7: DESIGN CHOICE.] -/
def moduleCount : Nat := Config.ringModules % 64 + 1
def modulePlace : Nat := Config.ringPlace % moduleCount

/-- R441: the module that a port is cabled to: the next for +Z, the one before for −Z. -/
def cabledTo (id : Nat) : Nat := if bitsAt id 10 2 = 0 then (modulePlace + 1) % moduleCount else (modulePlace + moduleCount - 1) % moduleCount

/-- The direction by which a plane's flits are acknowledged. -/
def reverseDir (dp : Nat) : Nat := dp / 4 * 4 + (dp % 4 + 2) % 4

/-- A direction of a plane: 2 × direction + plane, and 4 more for the tunnelled flits of other links that cross this one (R446). -/
def Link.dir (l : Link) (dp : Nat) : LinkDir := l.dirs.getD dp .fresh
def State.modDir (s : State) (id dp : Nat) (f : LinkDir → LinkDir) : State := s.modLink id fun l => { l with dirs := l.dirs.modify dp f }

/-! ### Counters and events (R451) -/

def saturate48 (n : Nat) : Nat := min n (2 ^ 48 - 1)

/-- A counter of one end of a link. -/
def State.countLink (s : State) (id end_ k n : Nat) : State :=
  s.modLink id fun l => { l with counts := l.counts.modify end_ fun c => c.modify k fun v => saturate48 (v + n) }

def LinkState.code : LinkState → Nat
  | .down => 0 | .training => 1 | .up => 2 | .degraded => 3 | .draining => 4 | .fenced => 5

/-- Why a link changes its state: lane, replay threshold, training, command. -/
inductive LinkCause where
  | lane (n : Nat) | replays | training | command
deriving DecidableEq, Repr

def LinkCause.code : LinkCause → Nat
  | .lane n => 8 + n | .replays => 1 | .training => 2 | .command => 3

/-- A link's new state, with the ticks it has spent outside UP counted at both ends. -/
def State.setLink (s : State) (id : Nat) (st : LinkState) : State :=
  let l := s.link id
  let away := if l.st = .up then 0 else s.tick - l.since
  ((s.countLink id 0 5 away).countLink id 1 5 away).modLink id fun l => { l with st := st, since := s.tick }

/-- R445, R451: a state change that is an event: logged, and told by MSI-X when that is enabled; one of a Y link sets the stall flag. -/
def State.linkEvent (s : State) (id : Nat) (st : LinkState) (why : LinkCause) : State :=
  let l := s.link id
  let s := (s.setLink id st).logEvent 0 [id, l.st.code, st.code, why.code]
  let s := match l.msix, l.cmdFrom with
    | some v, some m => s.sendMsix m v
    | some v, none => s.sendMsix 0 v
    | none, _ => s
  if linkIsY id ∧ !s.stallY.contains id then { s with stallY := id :: s.stallY } else s

/-- The routers from a link's near end the long way round to its far end. -/
def longWay (t : Nat) (d : Dir) : Nat → List Nat
  | 0 => []
  | n + 1 => let u := neighbour t d.opposite; u :: longWay u d n

/-! ### What a packet carries (R13, R436, R442) -/

/-- The bytes that an event brings with it: its own, or those of the request that it names. -/
def State.cargo (s : State) (act : Instr) (op : Operand) : List Byte :=
  match act with
  | .remoteAccessPerform | .mordantAtomic | .mordantRed | .fwrPerform | .hbmWrite =>
    if op.bytes.isEmpty then ((SMap.lookup s.reqs op.id).map Req.data).getD [] else op.bytes
  | _ => op.bytes

/-- R436, R442: a burst's stamp stands at the head of the payload. -/
def Burst.stampBytes (b : Burst) : List Byte := b.stamp.flatMap fun n => leBytes 4 n

def State.burstBytes (s : State) (b : Burst) : List Byte := b.stampBytes ++ s.cargo b.act b.op

def State.payload (s : State) (p : Packet) : List Byte :=
  (match p.burst with
    | some i => ((SMap.lookup s.bursts i).map Burst.stampBytes).getD (List.replicate 32 0)
    | none => []) ++ s.cargo p.act p.op

/-- R442: the flits of a payload on a die link or Z port, at 120 bytes each. -/
def flitsOf (bs : List Byte) : Nat := max 1 ((bs.length + 119) / 120)

def State.packetFlits (s : State) (p : Packet) : Nat := flitsOf (s.payload p)

/-- R13: the cycles that a packet takes a plane between two routers, at 1,024 bits each. -/
def State.packetCycles (s : State) (p : Packet) : Nat := max 1 (((s.payload p).length + 127) / 128)

/-! ### Flits (R442) -/

/-- R442: CRC-32C of bytes. -/
def crcByte (c : Nat) (b : Byte) : Nat :=
  (List.range 8).foldl (fun c _ => if c % 2 = 1 then (c / 2) ^^^ 0x82F63B78 else c / 2) (c ^^^ b.toNat)

def crc32c (bs : List Byte) : Nat := (bs.foldl crcByte 0xFFFFFFFF) ^^^ 0xFFFFFFFF

/-- R442: bits 31-0 of a flit's header. -/
def flitHeader (seq ackn type vn : Nat) (ph pt : Bool) : Nat :=
  seq * 2 ^ 20 + ackn * 2 ^ 8 + type * 2 ^ 5 + vn * 2 ^ 3 + (if ph then 4 else 0) + (if pt then 2 else 0)

/-- R442: a flit of 128 bytes: the header with its CRC above it, then the payload. [Assumption 68: DESIGN CHOICE.] -/
def flitBytes (header : Nat) (payload : List Byte) : List Byte :=
  let h := leBytes 4 header
  let body := (payload ++ List.replicate 120 0).take 120
  h ++ (leBytes 4 (crc32c (h ++ body)) ++ body)

def flitType (got : List Byte) : Nat := bitsAt (leNat (got.take 4)) 5 3
def flitAckn (got : List Byte) : Nat := bitsAt (leNat (got.take 4)) 8 12
def flitSeq (got : List Byte) : Nat := bitsAt (leNat (got.take 4)) 20 12

/-- R442, R443: whether a flit as it has come has a good CRC and no reserved type, and, where it carries data, marks that agree with the packet in progress. -/
def flitSound (got : List Byte) (ph pt : Bool) : Bool :=
  let h := leNat (got.take 4)
  let type := flitType got
  decide (crc32c (got.take 4 ++ got.drop 8) = leNat ((got.drop 4).take 4)) && decide (type ≤ 4)
    && (!(decide (type = 1) || decide (type = 4)) || (h.testBit 2 == ph && h.testBit 1 == pt))

/-- R452: the codewords, of 5,140 bits each, that a flit of 1,024 bits stands in. -/
def codewordsOf (wire : Nat) : List Nat :=
  let a := wire * 1024 / 5140
  let b := (wire * 1024 + 1023) / 5140
  if a = b then [a] else [a, b]

/-- R451, R452: a flit that comes to an end of a Z port: its codewords counted as they begin, and whether none of them is uncorrectable. -/
def State.decodeFlit (s : State) (id end_ dp wire : Nat) : Bool × State :=
  let ws := codewordsOf wire
  let new := ws.filter fun w => decide (wire = 0) || !(codewordsOf (wire - 1)).contains w
  let kind (w : Nat) : Nat := Config.codeword id dp w
  (ws.all fun w => decide (kind w ≤ 1),
   (s.countLink id end_ 6 (new.filter fun w => decide (kind w = 1)).length).countLink id end_ 7 (new.filter fun w => decide (1 < kind w)).length)

/-- R10: whether a link is a substrate wrap link, between columns 3 and 0. -/
def linkWraps (id : Nat) : Bool := !linkIsZ id && decide (bitsAt id 10 2 = 1) && decide (bitsAt id 12 2 = 3)

/-- R10, R354, R452: the ticks that a flit takes over a link: some number for every edge-to-edge crossing, 9 more over a wrap link, and some more
over a Z port. [Assumption 5: DESIGN CHOICE.] -/
def crossing (id : Nat) : Nat :=
  max 1 (Config.delay 0 11) + (if linkWraps id then 9 else 0) + (if linkIsZ id then Config.delay 0 13 else 0)

/-- R446, R447: a number that an end has already accepted. -/
def alreadyTaken (expected seq : Nat) : Bool := decide (seq ≠ expected) && decide ((expected + 4096 - seq) % 4096 < 2048)

/-- R442: `ACKN`: the number of the last flit received in order in a direction. -/
def Link.ackn (l : Link) (dp : Nat) : Nat := ((l.dir dp).expected + 4095) % 4096

/-! ### Lanes (R444) -/

/-- The data lanes of a plane. -/
def laneCount (z : Bool) : Nat := if z then 32 else 128

/-- R444: the lane by which bit b of a flit goes: the bits of a flit in turn over the lanes that a plane still uses. [Assumption 68: DESIGN CHOICE.] -/
def Link.laneOf (l : Link) (z : Bool) (plane b : Nat) : Nat :=
  let n := laneCount z
  match l.halves.getD plane none with
  | none => b % n
  | some h => (1 - h) * (n / 2) + b % (n / 2)

/-- R444: the lanes whose parity a flit shows wrong: those by which an odd number of its bits was turned. [Assumption 68: DESIGN CHOICE.] -/
def Link.lanesHit (l : Link) (z : Bool) (plane : Nat) (turned : BitVec 1024) : List Nat :=
  if turned = 0 then []
  else
    let lanes := ((List.range 1024).filter fun b => turned.getLsbD b).map fun b => l.laneOf z plane b
    lanes.eraseDups.filter fun k => decide (lanes.count k % 2 = 1)

/-- R444: the parity errors of a flit counted; a lane with more than 16 of them within the replay window is failing. [Assumption 68: DESIGN CHOICE.] -/
def State.noteLanes (s : State) (id dp : Nat) (turned : BitVec 1024) : State :=
  let l := s.link id
  let plane := if linkIsZ id then 0 else dp % 2
  match l.lanesHit (linkIsZ id) plane turned with
  | [] => s
  | hit =>
    let errors := (l.errors.filter fun e => decide (s.tick < e.2.2 + l.rwin)) ++ hit.map fun k => (plane, k, s.tick)
    hit.foldl (fun s k =>
      if 16 < (errors.filter fun e => decide (e.1 = plane ∧ e.2.1 = k)).length then
        s.once s.tick 0 .laneFailing { Operand.zero with id := id, node := plane, arg := k }
      else s) (s.modLink id fun l => { l with errors := errors })

/-- R444: the half of a plane that holds a lane. -/
def laneHalf (z : Bool) (lane : Nat) : Nat := min 1 (lane / (laneCount z / 2))

/-- R444: the failing lanes of a trained link retired: a spare for each, then the half of the plane that holds the lane; false where it lies in the half that is left. -/
def Link.retire (l : Link) (z : Bool) : Link × Bool :=
  l.failing.foldl (fun acc q =>
    let spare := acc.1.spares.getD q.1 0
    if !z ∧ 0 < spare ∧ acc.1.halves.getD q.1 none = none then ({ acc.1 with spares := acc.1.spares.set q.1 (spare - 1) }, acc.2)
    else match acc.1.halves.getD q.1 none with
      | none => ({ acc.1 with halves := acc.1.halves.set q.1 (some (laneHalf z q.2)) }, acc.2)
      | some h => (acc.1, acc.2 && decide (h = laneHalf z q.2))) ({ l with failing := [] }, true)

/-- R444, R451: the lanes that a retrain has retired: one for each spare put in, and half a plane's lanes (64 of 128, 16 of 32) for each half. -/
def lanesRetired (z : Bool) (l r : Link) : Nat :=
  l.spares.sum - r.spares.sum + laneCount z / 2 * (r.halves.countP Option.isSome - l.halves.countP Option.isSome)

/-- R444: a lane that no retirement has taken out of use. -/
def Link.laneUsed (l : Link) (z : Bool) (plane lane : Nat) : Bool :=
  match l.halves.getD plane none with
  | some h => decide (h ≠ laneHalf z lane)
  | none => true

/-! ### Tunnels (R446) -/

/-- Whether tunnelled flits of a direction of a link are still on their way. -/
def State.tunnelled (s : State) (id dp : Nat) : Bool := s.pkts.any fun p => p.2.carrier && decide (p.2.op.id = id) && decide (p.2.op.node = dp)

/-- R446: a flit of a packet put into its link's tunnel as a packet of its own: it keeps its number, network and payload, and enters at the port of the link, or
from the replay buffer (6). [Assumption 68: DESIGN CHOICE.] -/
def State.carry (s : State) (p : Packet) (d : Dir) (id dp seq i inn : Nat) (bytes : List Byte) (first last : Bool) : State :=
  let (j, s) := s.newId
  let q : Packet := { p with
    dst := neighbour p.at_ d, more := [], num := j, tunnel := longWay p.at_ d 127, flit := none, sent := 0, since := s.tick, ready := s.tick, headAt := none, inn := inn,
    burst := none, kept := none, act := .flitReceive
    op := { Operand.zero with id := id, node := dp, arg := seq, word := BitVec.ofNat 64 i, strand := if first then 1 else 0, bytes := bytes, flag := last } }
  (({ s with pkts := SMap.set s.pkts j q } : State).countLink id (dp / 2) 3 1).after 1 .routerForward (opId j)

/-- Flit k of a packet. -/
def State.slice (s : State) (p : Packet) (k : Nat) : List Byte := ((s.payload p).drop (120 * k)).take 120

/-- The way out of a die over a link in one of its directions. -/
def wayOver (id dp : Nat) : Dir :=
  if linkIsY id then (if dp / 2 % 2 = 0 then .south else .north) else (if dp / 2 % 2 = 0 then .east else .west)

/-- The router at a link's end, from which a direction leaves. -/
def nearEnd (id dp : Nat) : Nat :=
  let die := bitsAt id 12 3
  let idx := bitsAt id 5 5
  let named := if linkIsY id then die * 1024 + 31 * 32 + idx else die * 1024 + idx * 32 + 31
  if dp / 2 % 2 = 0 then named else neighbour named (wayOver id 0)

/-- R446: the unacknowledged flits of an X link resent through its tunnel, in the order of their numbers. -/
def State.resendByTunnel (s : State) (id dp : Nat) : State :=
  let d := (s.link id).dir dp
  let nobody : Packet := { s.packet vnMessage 0 (nearEnd id dp) (nearEnd id dp) .flitReceive Operand.zero with plane := dp % 2 }
  (d.unacked.foldl (fun s u =>
    let whole := match SMap.lookup s.pkts u.2 with
      | some p => (match p.flit with | some f => if f.1 = id ∧ f.2.1 = dp then some (p, (u.1 + 4096 - f.2.2) % 4096) else none | none => none)
      | none => none
    match whole with
    | some (p, k) => s.carry p (wayOver id dp) id dp u.1 u.2 6 (s.slice p k) (decide (k = 0)) (decide (k + 1 = s.packetFlits p))
    | none => s.carry nobody (wayOver id dp) id dp u.1 u.2 6 [] false false) s).modDir id dp fun d => { d with unacked := [] }

/-- What a direction had sent and the far end has not accepted is to be sent again: numbers go on from the one expected, and a packet or burst from its first flit that is missing. -/
def State.rollBack (s : State) (id dp : Nat) : State :=
  let d := (s.link id).dir dp
  let took (first n : Nat) : Nat := let k := (d.expected + 4096 - first) % 4096; if k < n then k else 0
  let s := s.modDir id dp fun d => { d with unacked := [], nextSeq := d.expected, asked := false }
  if linkIsZ id then
    s.bursts.foldl (fun s q =>
      if q.2.zport ∧ !q.2.here ∧ zPort q.2.dest = id ∧ (q.2.sent ≠ 0 ∨ d.unacked.any fun u => decide (u.2 = q.1)) then
        ({ s with bursts := SMap.set s.bursts q.1 { q.2 with sent := took q.2.seq0 (flitsOf (s.burstBytes q.2)) } } : State).once (s.tick + 1) 0 .zportBurstSend (opId q.1)
      else s) s
  else
    s.pkts.foldl (fun s q => match q.2.flit with
      | some f =>
        if f.1 = id ∧ f.2.1 = dp then
          let k := took f.2.2 (s.packetFlits q.2)
          ({ s with pkts := SMap.set s.pkts q.1 { q.2 with sent := k, flit := if k = 0 then none else q.2.flit } } : State).once (s.tick + 1) 0 .routerForward (opId q.1)
        else s
      | none => s) s

/-- R445: the numbers of a direction start again at 0; what is left of a packet or burst sent in part goes on under them. -/
def State.restartDir (s : State) (id dp : Nat) : State :=
  let first (sent : Nat) : Nat := (4096 - sent) % 4096
  let s := s.modDir id dp fun _ => .fresh
  if linkIsZ id then
    { s with bursts := s.bursts.map fun q => if q.2.zport ∧ zPort q.2.dest = id ∧ q.2.sent ≠ 0 then (q.1, { q.2 with seq0 := first q.2.sent }) else q }
  else
    { s with pkts := s.pkts.map fun q => match q.2.flit with
      | some f => if f.1 = id ∧ f.2.1 = dp ∧ q.2.sent ≠ 0 then (q.1, { q.2 with flit := some (id, dp, first q.2.sent) }) else q
      | none => q }

/-- R446-R448: what a link that no longer passes flits had sent without acknowledgement goes through its tunnel, before anything later; on a link without one,
and through a Z port's, it is sent again from what the far end expects; tunnelled flits of others wait for the link. -/
def State.rescue (s : State) (id : Nat) : State :=
  let s := s.cancel fun i o => (decide (i = .flitReceive) || decide (i = .replayRequestReceive)) && decide (o.id = id) && !o.flag
  if linkIsZ id then
    let s := s.rollBack id 0
    if (s.link (zOther id)).carries then s
    else (s.cancel fun i o => decide (i = .flitReceive) && decide (o.id = zOther id) && !o.flag).rollBack (zOther id) 0
  else
    let s := (List.range 4).foldl (fun s dp => if linkIsY id then s.rollBack id dp else s.resendByTunnel id dp) s
    (List.range 4).foldl (fun s dp => s.rollBack id (dp + 4)) s

/-- A link fenced (R445), its unacknowledged flits rescued. -/
def State.fenceLink (s : State) (id : Nat) (why : LinkCause) (event : Bool) : State :=
  let s := if event then s.linkEvent id .fenced why else s.setLink id .fenced
  s.rescue id

/-! ### Training (R444, R445) -/

/-- A training begun: its end comes after a typical time. -/
def State.train (s : State) (id : Nat) : State := s.later 70 .linkTrainingDone (opId id)

/-- R444: lanes that a training itself finds failing. -/
def Link.foundFailing (l : Link) (z : Bool) (fresh : Nat) : List (Nat × Nat) :=
  (Config.failingLanes fresh).filter fun q => decide (q.1 < (if z then 1 else 2)) && decide (q.2 < laneCount z) && l.laneUsed z q.1 q.2

/-- R444, R445: one training of a link: nothing where it fails; else the link with its failing lanes retired, the lanes retired, and whether every plane still has lanes. -/
def State.tryTrain (s : State) (id : Nat) : Option (Link × Nat × Bool) :=
  if Config.trainingFails s.fresh then none
  else
    let l := s.link id
    let z := linkIsZ id
    let r := { l with failing := l.failing ++ l.foundFailing z s.fresh }.retire z
    some ({ r.1 with errors := [] }, lanesRetired z l r.1, r.2)

/-- R445: a link trained: at full width UP, else DEGRADED; its numbers restart, in a direction whose tunnel still holds flits once these have come out. Where a plane has lost
both its halves the link is fenced (R444). -/
def State.trained (s : State) (id : Nat) (r : Link × Nat × Bool) : State :=
  let lane := ((s.link id).failing ++ (s.link id).foundFailing (linkIsZ id) s.fresh).headD (0, 0)
  let s := s.modLink id fun _ => { r.1 with fails := 0 }
  let s := ({ s with fresh := s.fresh + 1 } : State)
  let s := (s.countLink id 0 4 r.2.1).countLink id 1 4 r.2.1
  if !r.2.2 then s.fenceLink id (.lane lane.2) true
  else
    let s := if linkIsZ id then s.rescue id else s
    let s := (List.range 8).foldl (fun s dp => if s.tunnelled id dp then s.modDir id dp fun d => { d with restart := true } else s.restartDir id dp) s
    ({ s with stallY := s.stallY.filter fun x => x ≠ id } : State).setLink id (if r.1.halves.any Option.isSome then .degraded else .up)

/-- LINK_TRAINING_DONE (R444, R445): full width, half width, or a failure; three failures in a row fence. -/
def execLinkTrainingDone (s : State) : Host.Outcome State Fault Refusal :=
  let id := s.ev.id
  let l := s.link id
  if l.st ≠ .training then .next s
  else match s.tryTrain id with
    | some r => .next (s.trained id r)
    | none =>
      let s := { s with fresh := s.fresh + 1 }
      if 2 ≤ l.fails then .next ((s.modLink id fun l => { l with fails := 0 }).fenceLink id .training true)
      else .next ((s.modLink id fun l => { l with fails := l.fails + 1 }).train id)

/-- LANE_FAILING (R444, R445): a lane whose parity errors exceed 16 within the window: an UP link retrains, a DEGRADED one is fenced; one found while a link
trains counts for that training. -/
def execLaneFailing (s : State) : Host.Outcome State Fault Refusal :=
  let id := s.ev.id
  let l := s.link id
  let lane := (s.ev.node, s.ev.arg)
  let found (s : State) : State := s.modLink id fun l => if l.failing.contains lane then l else { l with failing := l.failing ++ [lane] }
  if !l.laneUsed (linkIsZ id) s.ev.node s.ev.arg then .next s
  else match l.st with
    | .up => .next ((((found s).linkEvent id .training (.lane s.ev.arg)).rescue id).train id)
    | .training => .next (found s)
    | .degraded => .next ((found s).fenceLink id (.lane s.ev.arg) true)
    | _ => .next s

/-! ### Replay (R443) -/

/-- R447: the port by which flits of a Z port go: its own, or the column's other, which tunnels them (direction 4). -/
def pathOf (id node : Nat) : Nat := if linkIsZ id ∧ node = 4 then zOther id else id

/-- The direction whose numbers a flit bears. -/
def numberedBy (id node : Nat) : Nat := if linkIsZ id ∧ node = 4 then 0 else node

/-- R447: the hops of a flit between modules. [Assumption 5: DESIGN CHOICE.] -/
def zHops (id node : Nat) : Nat := if linkIsZ id ∧ node = 4 then max 1 (moduleCount - 1) else 1

/-- A flit put on a link, with the acknowledgement of the other direction: it arrives after those sent before it. [Assumption 5: DESIGN CHOICE.] [Assumption 57: DEDUCED.] -/
def State.sendFlit (s : State) (id node seq i : Nat) : State :=
  let path := pathOf id node
  let lane := if linkIsZ id then 0 else node
  let d := (s.link path).dir lane
  let at0 := max (s.tick + zHops id node * crossing path) (d.due + 1)
  (s.modDir path lane fun d => { d with due := at0, wire := d.wire + 1 }).atTick at0 0 .flitReceive
    { Operand.zero with id := id, node := node, arg := seq, strand := d.wire, word := BitVec.ofNat 64 i, tile := (s.link id).ackn (reverseDir (numberedBy id node)) }

/-- A packet goes on from the router it has come to, by the port that it came in by. -/
def State.arriveAt (s : State) (i : Nat) (p : Packet) (t inn : Nat) : State :=
  (s.enqueue i { p with at_ := t, inn := inn, kept := none }).markHead p.buffer

/-- R443, R446: the far end takes the next flit in order. [Assumption 57: DEDUCED.] -/
def State.acceptFlit (s : State) (id dp : Nat) : State :=
  s.modDir id dp fun d => { d with expected := (d.expected + 1) % 4096, asked := false }

/-- R445: a drained link is fenced. -/
def State.checkDrain (s : State) (id : Nat) : State :=
  let l := s.link id
  if l.st = .draining ∧ l.dirs.all (fun d => d.unacked.isEmpty) then s.once s.tick 0 .linkDrainAcknowledged (opId id) else s

/-- R443: the sender of a direction frees its replay buffer up to `ACKN`, which names nothing that the receiver has not accepted. -/
def State.freeTo (s : State) (id dp ackn : Nat) : State :=
  (s.modDir id dp fun d => { d with unacked := d.unacked.filter fun u => decide (2048 ≤ (ackn + 4096 - u.1) % 4096) || !alreadyTaken d.expected u.1 }).checkDrain id

/-- R442: an idle flit takes the acknowledgement back, where no other flit of the other direction does it sooner. [Assumption 57: DEDUCED.] -/
def State.sendIdle (s : State) (id dp : Nat) : State :=
  s.after (crossing id) .flitReceive
    { Operand.zero with id := id, node := reverseDir dp, bytes := flitBytes (flitHeader 0 ((s.link id).ackn dp) 0 0 false false) [] }

/-- R443: the receiver of a flit that it cannot take asks for the number that it expects: once, and again when that number has come and could not be taken. The
request's `ACKN` names it as the one after the last received. [Assumption 68: DESIGN CHOICE.] -/
def State.askReplay (s : State) (id dp : Nat) (again : Bool) : State :=
  let d := (s.link id).dir dp
  if d.asked ∧ !again then s
  else (s.modDir id dp fun d => { d with asked := true }).later 12 .replayRequestReceive
    { Operand.zero with id := id, node := dp, bytes := flitBytes (flitHeader 0 ((s.link id).ackn dp) 2 0 false false) [] }

/-! ### What comes over a link (R442, R443, R446, R450) -/

/-- R450, R452: a flit that comes to a Z port from another module, as 128 bytes: one that stands in an uncorrectable codeword is discarded; a tunnelled one is
for the column's other port, or, bound for another module yet, goes out by it (R447); the last flit of a packet brings its address and length. [Assumption 57: DEDUCED.] [Assumption 68: DESIGN CHOICE.] -/
def State.zReceive (s : State) (o : Operand) : State :=
  let r := s.decodeFlit o.id 0 2 ((s.link o.id).dir 2).wire
  let s := r.2.modDir o.id 2 fun d => { d with wire := d.wire + 1 }
  let type := flitType o.bytes
  let id := if type = 4 then zOther o.id else o.id
  let l := s.link id
  let d := l.dir 2
  let pt := (leNat (o.bytes.take 4)).testBit 1
  let seq := flitSeq o.bytes
  if !r.1 then s.askReplay o.id 2 true
  else if type = 4 ∧ o.strand ≠ modulePlace then (s.countLink (zOther o.id) 0 0 1)
  else if !flitSound o.bytes l.inbox.isEmpty pt then (s.countLink o.id 0 2 1).askReplay o.id 2 true
  else if type = 0 ∨ type = 3 then (if type = 0 then s.freeTo id 0 (flitAckn o.bytes) else s)
  else if type = 2 then s.atTick s.tick 0 .replayRequestReceive { Operand.zero with id := id, node := 0, bytes := o.bytes }
  else
    let s := s.freeTo id 0 (flitAckn o.bytes)
    if seq ≠ d.expected then (if alreadyTaken d.expected seq then s else s.askReplay id 2 false)
    else
      let s := s.acceptFlit id 2
      let bs := l.inbox ++ o.bytes.drop 8
      if pt then
        (s.modLink id fun l => { l with inbox := [] }).atTick s.tick 0 .zportBurstSend
          { Operand.zero with node := bitsAt id 12 3, word := o.word, bytes := (bs.drop 32).take o.arg, flag := true }
      else s.modLink id fun l => { l with inbox := bs }

/-- The flit of a number that a link carries: its first and last marks, its type with the number in its header, its network and its payload. -/
def State.flitOf (s : State) (id seq i : Nat) : Option (Bool × Bool × Nat × Nat × Nat × List Byte) :=
  if linkIsZ id then
    (SMap.lookup s.bursts i).map fun b =>
      let bs := s.burstBytes b
      let k := (seq + 4096 - b.seq0) % 4096
      (decide (k = 0), decide (k + 1 = flitsOf bs), 1, seq, vnCopy, (bs.drop (120 * k)).take 120)
  else (SMap.lookup s.pkts i).map fun p =>
    if p.carrier then (decide (p.op.strand = 1), p.op.flag, 4, p.op.arg, p.vn, p.op.bytes)
    else
      let k := (seq + 4096 - ((p.flit.map fun f => f.2.2).getD 0)) % 4096
      (decide (k = 0), decide (k + 1 = s.packetFlits p), 1, seq, p.vn, s.slice p k)

/-- The last flit of what it belongs to has been accepted: a packet or a tunnelled flit is at the next router, and a burst with the other module, which tells when it has applied
it (R450). -/
def State.flitsDone (s : State) (id dp i : Nat) : State :=
  if linkIsZ id then
    match SMap.lookup s.bursts i with
    | some b => ({ s with bursts := SMap.set s.bursts i { b with here := true } } : State).later 14 .appliedNotice { Operand.zero with id := i, flag := true }
    | none => s
  else match SMap.lookup s.pkts i with
    | some p =>
      let d := wayOver id dp
      s.arriveAt i { p with flit := none, sent := 0, tunnel := p.tunnel.drop 1 } (neighbour p.at_ d) d.opposite.code
    | none => s

/-- FLIT_RECEIVE (R443, R446, R452): an idle flit acknowledges; a data flit in order with a good CRC is taken and acknowledged, and with its last flit a packet passes on;
otherwise the receiver asks for a replay. One that comes to the end of a Z port's tunnel too soon waits there. -/
def execFlitReceive (s : State) : Host.Outcome State Fault Refusal :=
  let o := s.ev
  let i := o.word.toNat
  let path := pathOf o.id o.node
  let dp := numberedBy o.id o.node
  let l := s.link o.id
  let d := l.dir dp
  if o.flag then .next (if linkIsZ o.id ∧ (s.link o.id).passes then s.zReceive o else s)
  else if !o.bytes.isEmpty then .next (s.freeTo o.id (reverseDir o.node) (flitAckn o.bytes))
  else match s.flitOf o.id o.arg i with
    | none => .next s
    | some (ph, pt, type, seq, vn, bs) =>
      if !(s.link path).passes || !(d.unacked.any fun u => decide (u.1 = o.arg) && decide (u.2 = i)) then .next s
      else
        let end_ := 1 - o.node / 2 % 2
        let turned := Config.corrupt s.fresh
        let flit : BitVec 1024 := BitVec.ofNat 1024 (leNat (flitBytes (flitHeader seq o.tile (if o.node = 4 ∧ linkIsZ o.id then 4 else type) vn ph pt) bs))
        let good := flitSound (leBytes 128 (flit ^^^ turned).toNat) ph pt
        let r := if linkIsZ o.id then s.decodeFlit path end_ o.node o.strand else (true, s)
        let s := ({ r.2 with fresh := s.fresh + 1 } : State).noteLanes path o.node turned
        let again := decide (o.arg = d.expected)
        if !r.1 then .next (s.askReplay o.id dp again)
        else if !good then .next ((s.countLink path end_ 2 1).askReplay o.id dp again)
        else
          let s := s.freeTo o.id (reverseDir dp) o.tile
          if o.arg = d.expected then
            let s := (s.acceptFlit o.id dp).sendIdle o.id dp
            .next (if pt ∨ type = 4 then s.flitsDone o.id dp i else s)
          else if alreadyTaken d.expected o.arg then .next (s.sendIdle o.id dp)
          else if o.node = 4 ∧ linkIsZ o.id then .next (s.after 1 .flitReceive o)
          else .next (s.askReplay o.id dp false)

/-- REPLAY_REQUEST_RECEIVE (R443, R445): the sender counts a replay, frees what is acknowledged and sends the rest again, from the number asked for; too many within the window fence
the link. -/
def execReplayRequestReceive (s : State) : Host.Outcome State Fault Refusal :=
  let o := s.ev
  let node := if linkIsZ o.id ∧ o.node = 0 ∧ !(s.link o.id).passes then 4 else o.node
  let path := pathOf o.id node
  if !(s.link path).passes then .next s
  else
    let s := s.modLink path fun l => { l with replays := (l.replays.filter fun t => decide (s.tick < t + l.rwin)) ++ [s.tick] }
    let s := (s.countLink path (o.node / 2 % 2) 1 1).freeTo o.id o.node (flitAckn o.bytes)
    let s := ((s.link o.id).dir o.node).unacked.foldl (fun s u => s.sendFlit o.id node u.1 u.2) s
    .next (if (s.link path).rthr < (s.link path).replays.length then s.once s.tick 0 .replayThresholdFence (opId path) else s)

/-- REPLAY_THRESHOLD_FENCE (R445). -/
def execReplayThresholdFence (s : State) : Host.Outcome State Fault Refusal :=
  let l := s.link s.ev.id
  let many := decide (l.rthr < (l.replays.filter fun t => decide (s.tick < t + l.rwin)).length)
  if many ∧ l.carries then .next (s.fenceLink s.ev.id .replays true)
  else if many ∧ l.st = .draining then .next (s.fenceLink s.ev.id .replays false)
  else .next s

/-- LINK_DRAIN_ACKNOWLEDGED (R445). -/
def execLinkDrainAcknowledged (s : State) : Host.Outcome State Fault Refusal :=
  let l := s.link s.ev.id
  if l.st = .draining ∧ l.dirs.all (fun d => d.unacked.isEmpty) then .next (s.setLink s.ev.id .fenced) else .next s

/-! ### Routers (R11, R14, R15) -/

/-- The direction in which a packet leaves its router for a destination. -/
def Packet.wayTo (p : Packet) (dst : Nat) : Dir :=
  match p.tunnel with
  | u :: _ => if u = neighbour p.at_ .east then .east else .west
  | [] => routeDir p.at_ dst

def Packet.way (p : Packet) : Dir := p.wayTo p.dst

/-- The output that a packet is for; the local port is one of them (R11). -/
def Packet.key (p : Packet) : Nat := (p.at_ * 8 + p.way.code) * 2 + p.plane

/-- A tunnelled flit at the far end of its tunnel. -/
def Packet.tunnelEnd (p : Packet) : Bool := p.carrier && p.tunnel.isEmpty

/-- The packet of a network that an output takes: of the heads of the inputs the one whose turn it is, and of the capsule network one that a thaw has put back (R398), then one of the highest
priority (R340); after reset the turn of the port N comes first. [Assumption 38: DEDUCED.] [Assumption 57: DEDUCED.] -/
def State.firstOf (s : State) (key cls : Nat) (ps : List (Nat × Packet)) : Option Nat :=
  let mine := ps.filter fun q => decide (q.2.cls = cls)
  match (mine.filterMap fun q => q.2.kept).min? with
  | some k => (mine.find? fun q => decide (q.2.kept = some k)).map Prod.fst
  | none =>
    let top := mine.foldl (fun m q => max m q.2.prio) 0
    let mine := if cls = vnCapsule then mine.filter fun q => decide (q.2.prio = top) else mine
    let last := SMap.get s.inTurn 4 (key * 8 + cls)
    (List.range 7).findSome? fun i => (mine.find? fun q => decide (q.2.inn = (last + 1 + i) % 7)).map Prod.fst

/-- R442: the direction of its link by which a packet leaves its die: the link, the numbering, and the way out. -/
def Packet.edge (p : Packet) : Nat × Nat :=
  let (id, dir) := linkOut p.at_ p.way
  (id, dir * 2 + p.plane + (if p.carrier then 4 else 0))

/-- R443: flits of a plane and direction that its replay buffer holds. -/
def Link.buffered (l : Link) (dp : Nat) : Nat := (l.dir (dp % 4)).unacked.length + (l.dir (dp % 4 + 4)).unacked.length

/-- R14, R446: the buffer that a packet on a link is bound for, or stands in. -/
def Packet.taking (p : Packet) : Nat := if p.onWire then ({ p with at_ := neighbour p.at_ p.way, inn := p.way.opposite.code } : Packet).buffer else p.buffer

/-- R14, R446: whether a buffer has room for a packet more: an ordinary one holds some number of packets, a tunnel's 4 flits. [Assumption 57: DEDUCED.] -/
def State.bufferRoom (s : State) (p : Packet) (next inn : Nat) : Bool :=
  let here := ({ p with at_ := next, inn := inn, flit := none } : Packet).buffer
  let there := s.pkts.countP fun q => decide (q.2.inn ≠ 5) && decide (q.2.taking = here)
  decide (there = 0) || decide (there < (if p.carrier then 4 else Config.netBuffer))

/-- Whether a hop leaves the die. -/
def crossesDie (t : Nat) (d : Dir) : Bool := decide (dieOf t ≠ dieOf (neighbour t d))

/-- R446: whether the tunnel of a packet's link has room at its near end, and nothing that must be resent first. -/
def State.tunnelRoom (s : State) (p : Packet) : Bool :=
  let (id, dp) := p.edge
  (s.pkts.all fun q => !(q.2.carrier && decide (q.2.inn = 6) && decide (q.2.op.id = id) && decide (q.2.op.node = dp)))
    && s.bufferRoom { p with act := .flitReceive } p.at_ p.way.code

/-- R443, R446-R448: whether the link at a die's edge takes a packet's next flit: its replay buffer has room, or, while an X link does not carry, its tunnel. -/
def State.linkTakes (s : State) (p : Packet) : Bool :=
  let (id, dp) := p.edge
  let l := s.link id
  if l.carries then decide (l.buffered dp < 256) && !((l.dir dp).restart && s.tunnelled id dp)
  else if linkIsY id ∨ l.st = .down ∨ p.carrier then false
  else s.tunnelRoom p

/-- R342: whether the local port may deliver a capsule: its tile has a free arrival slot and none is being delivered. -/
def State.slotWaits (s : State) (p : Packet) : Bool :=
  decide (p.act = .capsuleArrival) && (((s.tile p.dst).capSlots.all Option.isSome) || s.agenda.any fun e => decide (e.2.2.1 = .capsuleArrival) && decide (e.2.2.2.tile = p.dst))

/-- Whether a packet may leave its router now: its receiver or its next buffer has room, and the link that it crosses takes it. -/
def State.mayLeave (s : State) (p : Packet) : Bool :=
  if p.tunnelEnd then false
  else if p.at_ = p.dst then !s.slotWaits p && !s.portWaits p.act p.op
  else (decide (p.sent ≠ 0) || s.bufferRoom p (neighbour p.at_ p.way) p.way.opposite.code) && (!crossesDie p.at_ p.way || s.linkTakes p)

/-- R14, R446: the packet that takes an output in this cycle, of those that stand at the head of their buffer, are ready and may leave: one that the output's link has
sent in part, then one of configuration, then the other networks and the tunnel in turn. After reset the message network's turn comes first. [Assumption 57: DEDUCED.] -/
def State.pickPacket (s : State) (key : Nat) : Option Nat :=
  let ps := s.pkts.filter fun q => decide (q.2.key = key) && decide (q.2.ready ≤ s.tick) && s.atHead q.1 q.2 && s.mayLeave q.2
  match ps.find? fun q => decide (q.2.sent ≠ 0) with
  | some q => some q.1
  | none =>
    match s.firstOf key vnConfig ps with
    | some i => some i
    | none =>
      let last := SMap.get s.linkTurn 0 key
      let order := [0, 1, 2, 4].filter (fun c => decide (last < c)) ++ [0, 1, 2, 4].filter fun c => decide (c ≤ last)
      order.findSome? fun c => s.firstOf key c ps

/-- The output is taken for a number of cycles. -/
def State.takeOutput (s : State) (p : Packet) (n : Nat) : State :=
  { s with linkTick := SMap.set s.linkTick p.key (s.tick + n), linkTurn := if p.cls = vnConfig then s.linkTurn else SMap.set s.linkTurn p.key p.cls
           inTurn := SMap.set s.inTurn (p.key * 8 + p.cls) p.inn }

/-- A packet as its next flit leaves under a number: after its last it is on its way. -/
def Packet.sendOne (p : Packet) (n id dp seq : Nat) : Packet :=
  { p with flit := if p.sent = 0 then some (id, dp, seq) else p.flit, sent := if p.sent + 1 = n then 0 else p.sent + 1 }

/-- R442-R444: the next flit of a packet put on its link, whose plane takes one every two cycles at half width. -/
def State.sendNext (s : State) (i : Nat) (p : Packet) (id dp : Nat) : State :=
  let l := s.link id
  let seq := (l.dir dp).nextSeq
  let q := p.sendOne (if p.carrier then 1 else s.packetFlits p) id dp seq
  let s := (s.takeOutput p (if (l.halves.getD p.plane none).isSome then 2 else 1)).modDir id dp fun x => { x with nextSeq := (seq + 1) % 4096, unacked := x.unacked ++ [(seq, i)] }
  let s := (({ s with pkts := SMap.set s.pkts i q } : State).countLink id (dp / 2 % 2) 0 1).sendFlit id dp seq i
  if q.sent = 0 then s.markHead p.buffer else s.after 1 .routerForward (opId i)

/-- R446: the next flit of a packet put into its link's tunnel. -/
def State.tunnelNext (s : State) (i : Nat) (p : Packet) (id dp : Nat) : State :=
  let seq := ((s.link id).dir dp).nextSeq
  let n := s.packetFlits p
  let q := p.sendOne n id dp seq
  let s := (s.takeOutput p 1).modDir id dp fun x => { x with nextSeq := (seq + 1) % 4096 }
  let s := ({ s with pkts := SMap.set s.pkts i q } : State).carry p p.way id dp seq i p.way.code (s.slice p p.sent) (decide (p.sent = 0)) (decide (p.sent + 1 = n))
  if q.sent = 0 then s.markHead p.buffer else s.after 1 .routerForward (opId i)

/-- R442, R445-R448: a packet that crosses a die's edge: over the link flit by flit, or into its tunnel. -/
def State.crossLink (s : State) (i : Nat) (p : Packet) : State :=
  let (id, dp) := p.edge
  let l := s.link id
  if l.carries then
    if (l.dir dp).restart then
      let s := s.restartDir id dp
      s.sendNext i ((SMap.lookup s.pkts i).getD p) id dp
    else s.sendNext i p id dp
  else s.tunnelNext i p id dp

/-- R446: a tunnelled flit at the far end, taken in the order of its link, but for what the far end has already accepted; with its packet's last flit the packet goes on. -/
def State.leaveTunnel (s : State) (i : Nat) (p : Packet) : State :=
  let o := p.op
  let d := (s.link o.id).dir o.node
  if o.arg = d.expected then
    let s := (s.dropPacket i p).acceptFlit o.id o.node
    if o.flag then s.flitsDone o.id o.node o.word.toNat else s
  else if alreadyTaken d.expected o.arg then s.dropPacket i p
  else s.after 1 .routerForward (opId i)

/-- R305: a multicast at a router where its destinations part: a replica for each of the other ways, which stands beside it. -/
def State.replicate (s : State) (i : Nat) (p : Packet) : State :=
  let here := p.more.filter fun d => decide (p.wayTo d = p.way)
  let s := { s with pkts := SMap.set s.pkts i { p with more := here } }
  ([Dir.north, .east, .south, .west, .here].filter fun w => decide (w ≠ p.way)).foldl (fun s w =>
    match p.more.filter fun d => decide (p.wayTo d = w) with
    | [] => s
    | d :: rest =>
      let (j, s) := s.newId
      ({ s with pkts := SMap.set s.pkts j { p with dst := d, more := rest, op := { p.op with tile := d } } } : State).after 1 .routerForward (opId j)) s

/-- R15, R302: a packet of the copy network of the same stream that was sent before and has still to arrive. -/
def State.outOfOrder (s : State) (p : Packet) : Bool :=
  decide (p.vn = vnCopy) && decide (p.act ≠ .walkBurst) && s.pkts.any fun q => decide (q.2.num < p.num) && decide (q.2.src = p.src) && decide (q.2.dst = p.dst ∨ q.2.more.contains p.dst)
    && decide (q.2.vn = vnCopy) && decide (q.2.act = p.act) && decide (q.2.op.id = p.op.id) && decide (q.2.op.node = p.op.node) && decide (q.2.op.strand = p.op.strand)

/-- R348, R393: a capsule whose next hop lies in a stopped tile of its own region, which the tile that it stands in is not. [Assumption 38: DEDUCED.] -/
def Packet.frozenAhead (p : Packet) (s : State) : Bool :=
  let u := neighbour p.at_ p.way
  decide (p.vn = vnCapsule) && !p.carrier && decide (p.at_ ≠ p.dst) && (s.tile u).stopped && (s.ctx p.ctx).holds u && !(s.tile p.at_).stopped

/-- R401: what a die's engines serve. -/
def engineEvents : List Instr :=
  [.remoteAccessPerform, .mordantAtomic, .mordantRed, .frdPerform, .fwrPerform, .frstPerform, .futureDeferral, .barqPerform, .barrierArrival,
   .burstApply, .hbmRead, .hbmWrite, .meetArrival]

/-- R393: a capsule of the frozen context in a router of a stopped tile. [Assumption 38: DEDUCED.] -/
def Packet.captured (p : Packet) (s : State) : Bool :=
  decide (p.vn = vnCapsule) && !p.carrier && (s.tile p.at_).stopped && (s.ctx p.ctx).holds p.at_

/-- R393: such a capsule is channel state. [Assumption 38: DEDUCED.] -/
def State.holdCapsule (s : State) (i : Nat) (p : Packet) : State :=
  ((s.dropPacket i p).burstDropped p).modTile p.at_ fun y => { y with capHeld := y.capHeld ++ [{ p with burst := none }] }

/-- A packet at its destination leaves its router: it brings its event, unless others of its stream must come first. -/
def State.deliverHere (s : State) (i : Nat) (p : Packet) : State :=
  if s.outOfOrder p then
    ((if p.inn ≠ 5 then ({ s with pkts := SMap.set s.pkts i { p with inn := 5 } } : State).markHead p.buffer else s)).after 1 .routerForward (opId i)
  else
    let s := if engineEvents.contains p.act ∨ p.burst.isSome then s.markShared p.ctx ((List.range 4).map fun k => 4 * dieOf p.at_ + k) else s
    (s.dropPacket i p).deliver p

/-- ROUTER_FORWARD (R11, R13-R15, R305, R340, R342, R446): a packet that stands at the head of its buffer leaves its router when its output is free, its turn has
come and there is room for it; the local port is an output like the others. -/
def execRouterForward (s : State) : Host.Outcome State Fault Refusal :=
  let i := s.ev.id
  let wait := s.after 1 .routerForward s.ev
  match SMap.lookup s.pkts i with
  | none => .next s
  | some p =>
    if p.onWire then .next s
    else if p.inn = 5 then .next (s.deliverHere i p)
    else
      let s := s.markShared p.ctx [clusterOf p.at_]
      if p.captured s then .next (s.holdCapsule i p)
      else if !s.atHead i p then .next wait
      else if p.frozenAhead s then .next (s.atTick s.tick 0 .capsuleParkTimeout { opId i with arg := 2 })
      else if !p.carrier ∧ p.more.any (fun d => decide (p.wayTo d ≠ p.way)) then .next ((s.replicate i p).atTick s.tick 0 .routerForward s.ev)
      else if p.tunnelEnd then .next (s.leaveTunnel i p)
      else if s.tick < SMap.get s.linkTick 0 p.key then .next (s.atTick (SMap.get s.linkTick 0 p.key) 0 .routerForward s.ev)
      else if s.pickPacket p.key ≠ some i then .next wait
      else if p.at_ = p.dst then .next ((s.takeOutput p (s.packetCycles p)).deliverHere i p)
      else if crossesDie p.at_ p.way then .next (s.crossLink i p)
      else .next ((s.takeOutput p (s.packetCycles p)).arriveAt i { p with tunnel := p.tunnel.drop 1 } (neighbour p.at_ p.way) p.way.opposite.code)

/-! ### Z ports (R450) -/

/-- R447: a Z port carries its traffic, or, while it trains, drains or is fenced, its column's port of the other direction does; with one module in the ring
none carries any. -/
def State.zReaches (s : State) (die : Nat) : Bool :=
  decide (1 < moduleCount)
    && ((s.link (zPort die)).carries || (decide ((s.link (zPort die)).st ≠ .down) && (s.link (zOther (zPort die))).carries))

/-- R450: a burst of the origin die numbered before this one that has still to be applied, or whose notice has still to return. -/
def State.predecessor (s : State) (i : Nat) (b : Burst) : Bool :=
  s.bursts.any fun q => decide (q.1 < i) && decide (q.2.origin = b.origin)

/-- R443, R446, R447, R450-R452: the next flit of a burst that leaves by a Z port, or by its column's other port. [Assumption 68: DESIGN CHOICE.] -/
def State.zSend (s : State) (i : Nat) (b : Burst) : State :=
  let id := zPort b.dest
  let l := s.link id
  let again := s.after 1 .zportBurstSend (opId i)
  if (l.dir 0).unacked.any fun u => decide (u.2 = i) && decide (b.sent = 0) then s
  else if 256 ≤ (l.dir 0).unacked.length ∨ s.bursts.any (fun q => decide (q.1 ≠ i) && q.2.zport && decide (q.2.dest = b.dest) && decide (q.2.sent ≠ 0)) then again
  else
    let node := if l.carries then 0 else 4
    let path := pathOf id node
    let seq := (l.dir 0).nextSeq
    let n := flitsOf (s.burstBytes b)
    let c := { b with seq0 := if b.sent = 0 then seq else b.seq0, sent := if b.sent + 1 = n then 0 else b.sent + 1 }
    let s := s.modDir id 0 fun d => { d with nextSeq := (seq + 1) % 4096, unacked := d.unacked ++ [(seq, i)] }
    let s := (({ s with bursts := SMap.set s.bursts i c } : State).countLink path 0 0 1).sendFlit id node seq i
    let s := if node = 4 then s.countLink id 0 3 1 else s
    if c.sent = 0 then s else s.after (if (s.link path).halves.any Option.isSome then 2 else 1) .zportBurstSend (opId i)

/-- ZPORT_BURST_SEND (R438, R441, R450, R452): a burst for the module that a port is cabled to is stamped by its die and leaves by the die's Z port, flit by flit, once the die's clock satisfies the stamp and the
notices of the die's earlier bursts have come back; one that comes from another module is stamped afresh and forwarded to its home. [Assumption 55: DEDUCED.] [Assumption 57: DEDUCED.] [Assumption 65: DESIGN CHOICE.] -/
def execZportBurstSend (s : State) : Host.Outcome State Fault Refusal :=
  let o := s.ev
  if o.flag then
    let pa := o.word.toNat
    let (i, s) := s.newBurst o.node (homeDie pa) (edgeTile o.node) .other 0 .hbmWrite
      { Operand.zero with tile := edgeTile o.node, strand := 8, node := homeDie pa, word := o.word, bytes := o.bytes, flag := false, arg := 2 }
    .next (s.sendBurst vnMessage 0 (edgeTile o.node) (homeTile pa) i)
  else if o.arg = 1 then
    let die := o.node % 8
    let (i, s) := s.newBurst die die (edgeTile die) .other 0 .hbmWrite { Operand.zero with node := cabledTo (zPort die), word := o.word, bytes := o.bytes }
    .next ((({ s with bursts := s.bursts.map fun q => if q.1 = i then (i, { q.2 with zport := true }) else q } : State)).after 1 .zportBurstSend (opId i))
  else match SMap.lookup s.bursts o.id with
    | none => .next s
    | some b =>
      if !b.zport ∨ b.here then .next s
      else if !s.zReaches b.dest ∨ (b.sent = 0 ∧ (!stampOk (s.clock b.dest) b ∨ s.predecessor o.id b)) then .next (s.after 1 .zportBurstSend o)
      else .next (s.zSend o.id b)

end Sys2Proof.Machine
end

