-- ==== Sys2Proof/Machine/Port.lean ====
section
/-! DEFINITION. PORT nodes in time (R21, R249, R267-R270, R297-R303): opening a walk or stream, scratchpad accesses by bank, and tokens to
and from the network. -/

namespace Sys2Proof.Machine

/-! ### Opening and closing (R299-R302) -/

/-- R299, R300: the code by which a PORT's block is refused, 0 for one that passes. [Assumption 34: DEDUCED.] -/
def portRefusal (dir : Nat) (b : Blk) : Nat :=
  match dir with
  | 1 | 2 | 5 => b.refusal .scratch false none
  | 3 | 6 => if b.pep = 5 then 1 else b.refusal (if b.pep = 0 then .memory else .peer) true (some 2048)
  | 4 => b.refusal (if b.pep = 0 then .memory else .peer) false none
  | _ => 0

/-- R301: PORT k of a tile begins its walk, or opens its stream. While a stream of the same producer that has been aborted is still closing, the notices wait for
its end (R294). -/
def State.openPort (s : State) (t k : Nat) : State :=
  let n := 48 + k
  let p := (s.node t n).active
  let b := s.blkAt t p.spb
  let w : Walk := { blk := b, elem := 0, tok := 0, acc := [], begun := false, start := (s.core t).stepc, buf := [], got := 0, credit := 0, sent := 0, eng := 0, closed := false, scl := none }
  let begin_ (s : State) (w : Walk) : State := s.modNode t n fun nd => { nd with walk := some w, part := 0 }
  if (p.dir = 3 ∨ p.dir = 4 ∨ p.dir = 6) ∧ b.pep = 0 then
    let (i, s) := s.newId
    let e : StreamW := { tile := t, eng := k, writer := decide (p.dir = 4), blk := b, ctx := (((s.tile t).kernel).map Prod.fst).getD 0, cid := some p.cid, other := .port k
                         credit := 0, next := 0, begun := false, reads := none, held := [], busy := false, pend := 0, got := 0, stuck := false, whole := false, part := false,
                         spread := [], strand := 0, run := 0, promise := 0 }
    let s := begin_ { s with streams := SMap.set s.streams i e } { w with eng := i, credit := if p.dir = 4 then 8 else 0 }
    if p.dir = 4 then s else s.notices t k b.nslot i
  else
    let s := begin_ s w
    let source := portSource b.peer (b.pep - 1)
    if (p.dir = 3 ∨ p.dir = 6) ∧ !(s.node t n).stopping.contains source then s.notices t k b.nslot source else s

/-- The end of a PORT's walk: the stream of its own engine goes with it. -/
def State.closePort (s : State) (t n : Nat) : State :=
  match (s.node t n).walk with
  | none => s
  | some w => ({ s with streams := if w.eng = 0 then s.streams else SMap.erase s.streams w.eng } : State).modNode t n fun nd => { nd with walk := none, part := 0 }

/-! ### Scratchpad walks (R21, R298) -/

/-- R21: whether one more granule can be reached in a step: one of at most two, in a bank that is free and not yet used. -/
def granuleFits (free : Nat → Bool) (gs : List Nat) (g : Nat) : Bool :=
  !(decide (gs.length = 2) || (gs.any fun h => decide (h % 8 = g % 8)) || !free (g % 8))

/-- Elements from n that one step can reach, up to two granules of different banks of those that are free: the first element it leaves, the granules, and
whether it has read the scale of the token that begins there, which comes before the token's first element (R298). -/
def Blk.reach (b : Blk) (free : Nat → Bool) (stop : Nat) : Nat → Nat → Bool → List Nat → Nat × List Nat × Bool
  | 0, n, scaled, gs => (n, gs, scaled)
  | f + 1, n, scaled, gs =>
    if stop ≤ n then (n, gs, scaled)
    else match (if scaled then none else b.scaleAt n) with
      | some a =>
        if scratchSize ≤ a ∨ gs.contains (a / 16) then b.reach free stop f n true gs
        else if granuleFits free gs (a / 16) then b.reach free stop f n true (gs ++ [a / 16])
        else (n, gs, false)
      | none =>
        let g := b.addr n / 16
        if scratchSize ≤ b.addr n ∨ gs.contains g then b.reach free stop f (n + 1) false gs
        else if granuleFits free gs g then b.reach free stop f (n + 1) false (gs ++ [g])
        else (n, gs, scaled)

/-- Elements of a full token. -/
def Blk.perTok (b : Blk) : Nat := 16 / b.bytes

/-- The next element of a PORT's walk, and where this step must stop: a source at its burst's end, a sink at its token's. -/
def Node.walkSpan (nd : Node) (w : Walk) : Nat × Nat :=
  if nd.active.dir = 2 then (w.blk.perTok * w.tok + nd.part, min w.blk.count (w.blk.perTok * (w.tok + 1)))
  else (w.elem, min w.blk.count (w.blk.perTok * ((w.tok / w.blk.blen + 1) * w.blk.blen)))

/-- R21: at most 32 bytes a step. -/
def Node.walkReach (nd : Node) (w : Walk) (free : Nat → Bool) : Nat × List Nat × Bool :=
  let q := nd.walkSpan w
  let b := if nd.active.dir = 2 then { w.blk with ssrc := 0 } else w.blk
  b.reach free q.2 (4 * w.blk.perTok) q.1 w.scl.isSome []

/-- Whether a scratchpad PORT has an access to make in this step (R249, R268): its first comes in the step after its walk begins. -/
def State.portGoes (s : State) (t n : Nat) : Bool :=
  let nd := s.node t n
  match nd.walk with
  | none => false
  | some w =>
    decide (nd.st = .active) && decide (w.start < (s.core t).stepc) && decide (w.tok < w.blk.tokens)
      && (if nd.active.dir = 2 then (nd.headOf 0).any fun x => decide (x.kind = 0) else decide (nd.out.length < 5))
      && (w.begun || s.mayBegin t (n - 48)) && !nd.holdsTail (w.blk.isTail w.tok)

/-- The banks that PORT k's accesses of this step need, and whether they write. [Assumption 28: DEDUCED.] -/
def State.portBanks (s : State) (t k : Nat) : Option (Bool × List Nat) :=
  let nd := s.node t (48 + k)
  let d := nd.active.dir
  match nd.walk with
  | none => none
  | some w => if (d = 1 ∨ d = 2 ∨ d = 5) && s.portGoes t (48 + k) then some (decide (d = 2), (nd.walkReach w fun _ => true).2.1.map (· % 8)) else none

/-- R21: which PORT a bank's read or write port serves. [Assumption 28: DEDUCED.] -/
def grantOf (co : Core) (turns : List Nat) (wants : List (Nat × Bool × List Nat)) (write : Bool) (bank : Nat) : Option Nat :=
  let who := (wants.filter fun q => decide (q.2.1 = write) && q.2.2.contains bank).map Prod.fst
  if co.portUses.contains (write, bank) then none
  else if who.contains (bank / 2) then some (bank / 2)
  else
    let last := turns.getD (bank + (if write then 8 else 0)) 0
    ((List.range 4).map fun i => (last + 1 + i) % 4).find? who.contains

/-- The banks granted to each scratchpad PORT in this step, as a mask, and whether it is the first that loses one. [Assumption 28: DEDUCED.] -/
def State.portGrants (s : State) (t : Nat) : List (Nat × Bool × Nat × Bool) :=
  let wants := (List.range 4).filterMap fun k => (s.portBanks t k).map fun q => ((k, q) : Nat × Bool × List Nat)
  let got (q : Nat × Bool × List Nat) : List Nat := q.2.2.filter fun b => grantOf (s.core t) (s.collar t).turns wants q.2.1 b = some q.1
  let lost := wants.find? fun q => decide ((got q).length < q.2.2.length)
  wants.map fun q => (q.1, q.2.1, (got q).foldl (fun m b => m + 2 ^ b) 0, decide (lost = some q))

/-- R21: the round of a bank's port moves on past a PORT that it has served away from home. -/
def Collar.served (c : Collar) (k : Nat) (write : Bool) (banks : List Nat) : Collar :=
  { c with turns := banks.foldl (fun l b => if b / 2 = k then l else l.set (b + (if write then 8 else 0)) k) c.turns }

/-- An element's bytes; beyond the scratchpad they read zero (R299). -/
def State.portByte (s : State) (t : Nat) (b : Blk) (n : Nat) : List Byte :=
  if scratchSize ≤ b.addr n then List.replicate b.bytes 0 else memRead s.mem (tileBase t + b.addr n) b.bytes

/-- R298: the scale of the token that begins with element n, read from the array where it has one. -/
def Walk.readScale (w : Walk) (n : Nat) (scale : Nat → BitVec 32) : Walk :=
  match w.scl, w.blk.scaleAt n with
  | none, some a => { w with scl := some (scale a) }
  | _, _ => w

/-- An element added to a walk's token; a whole token leaves it. -/
def Walk.addElem (w : Walk) (n : Nat) (bs : List Byte) (scale : Nat → BitVec 32) : Walk × List Tok :=
  let w := w.readScale n scale
  let acc := w.acc ++ bs
  if acc.length = 16 ∨ n + 1 = w.blk.count then
    ({ w with elem := n + 1, tok := w.tok + 1, acc := [], begun := !w.blk.isTail w.tok, scl := none },
     [w.blk.token w.tok (acc ++ List.replicate (16 - acc.length) 0) fun _ => w.scl.getD 0])
  else ({ w with elem := n + 1, acc := acc, begun := true }, [])

/-- PORT_SCRATCHPAD_READ (R21, R249, R268, R298): accesses to the banks of mask `arg`. -/
def execPortScratchpadRead (s : State) : Host.Outcome State Fault Refusal :=
  s.atNode fun t n nd =>
    match nd.walk with
    | none => .next s
    | some w =>
      if !s.portGoes t n then .next s
      else
        let r := nd.walkReach w fun b => s.ev.arg.testBit b
        let s := if s.ev.flag then s.tally t 15 1 else s
        if r.1 = w.elem ∧ (!r.2.2 ∨ w.scl.isSome) then .next s
        else
          let s := (if w.begun then s else s.begins t (n - 48)).modCollar t fun c => c.served (n - 48) false (r.2.1.map (· % 8))
          let done := ((List.range (r.1 - w.elem)).map (· + w.elem)).foldl (fun (acc : Walk × List Tok) i =>
            let q := acc.1.addElem i (s.portByte t w.blk i) (s.scratchWord t)
            (q.1, acc.2 ++ q.2)) ({ w with begun := true }, [])
          let w' := if r.2.2 then { done.1.readScale r.1 (s.scratchWord t) with begun := true } else done.1
          let s := s.modNode t n fun nd => ({ nd with walk := some w' } : Node).queue n ((s.core t).stepc + 3) done.2
          .next (if done.2.any Tok.t then s.emitDone t (n - 48) else s)

/-- R287, R296: what a sink PORT notes of a token it has taken: a tail-marked one is a checkpoint of its own. -/
def Node.noteSunk (nd : Node) (x : Tok) : Node := let nd := nd.noteTaken x false; if x.t then { nd with since := 0 } else nd

/-- PORT_SCRATCHPAD_WRITE (R21, R268, R298, R303): the token at the input written to the banks of mask `arg`, or found to be beyond the walk. -/
def execPortScratchpadWrite (s : State) : Host.Outcome State Fault Refusal :=
  s.atNode fun t n nd =>
    match nd.walk, nd.headOf 0 with
    | some w, some x =>
      if x.kind ≠ 0 then .next s
      else if w.blk.tokens ≤ w.tok then
        .next (if nd.forced then s.modNode t n fun nd => { nd.popInput 0 with resume := none, burst := nd.burst && !x.t } else s.nodeCause t n 2 0 false)
      else if !s.portGoes t n then .next s
      else
        let q := nd.walkSpan w
        let r := nd.walkReach w fun b => s.ev.arg.testBit b
        let s := if s.ev.flag then s.tally t 15 1 else s
        if r.1 = q.1 then .next s
        else
          let s := (if w.begun then s else s.begins t (n - 48)).modCollar t fun c => c.served (n - 48) true (r.2.1.map (· % 8))
          let bytes := leBytes 16 x.data.toNat
          let s := ((List.range (r.1 - q.1)).map (· + q.1)).foldl (fun (s : State) i =>
            let a := w.blk.addr i
            if scratchSize ≤ a then s else { s with mem := memWrite s.mem (tileBase t + a) ((bytes.drop (i * w.blk.bytes % 16)).take w.blk.bytes) }) s
          let tail := w.blk.isTail w.tok
          if r.1 = q.2 then
            let s := (s.tally t 16 1).modNode t n fun nd => { (nd.popInput 0).noteSunk x with part := 0, walk := some { w with tok := w.tok + 1, begun := !tail } }
            .next (if tail then s.emitDone t (n - 48) else s)
          else .next (s.modNode t n fun nd => { nd with part := r.1 - w.blk.perTok * w.tok, walk := some { w with begun := true } })
    | _, _ => .next s

/-! ### Network streams (R267-R269, R301-R303) -/

/-- PORT_NETWORK_IN (R301-R303): the buffer's oldest token goes out; the slot of a burst whose tail has left is free. The place of a skipped
burst (R293) is passed over and is free too. [Assumption 34: DEDUCED.] -/
def execPortNetworkIn (s : State) : Host.Outcome State Fault Refusal :=
  s.atNode fun t n nd =>
    match nd.walk with
    | none => .next s
    | some w =>
      let k := n - 48
      if !nd.out.isEmpty then .next s
      else
        let s := if w.sent = 0 then s else (s.modNode t n fun nd => { nd with walk := some { w with sent := 0 } }).notify t w.source (k + 1) 0 0
        let w := { w with sent := 0 }
        match w.buf with
        | [] => .next s
        | x :: rest =>
          if x.kind = 3 then .next (s.modNode t n fun nd => { nd with walk := some { w with buf := rest, got := w.got + x.num, sent := 1 } }) else
          let peer := decide (w.blk.pep ≠ 0)
          let begins := peer && !w.begun
          if begins && !s.mayBegin t k then .next s
          else if nd.holdsTail x.t then .next s
          else if tokenMisfits w.blk w.got x && !nd.forced then .next (s.nodeCause t n 2 0 false)
          else
            let x := { x with t := x.t || nd.forced }
            let s := if begins then s.begins t k else s
            .next (s.modNode t n fun nd =>
              (({ nd with walk := some { w with buf := rest, got := w.got + 1, begun := !x.t, sent := if x.t then 1 else 0 }, resume := none } : Node).queue
                n ((s.core t).stepc + 1) [x]).noteSent [x])

/-- R269, R301, R302, R436: a sink's burst, or the piece of one that stands before a switch token, sent to its walk engine, to a PORT or to a ring, with its ordering token. -/
def State.putBurst (s : State) (t k : Nat) (w : Walk) : State :=
  let n := 48 + k
  let ctx := (((s.tile t).kernel).map Prod.fst).getD 0
  let order : Tok := { dataTok false false false 0 0 0 0 with kind := 2 }
  let toks := w.buf ++ (if (s.node t n).active.ordt && (w.buf.getLast?.any Tok.t) then [order] else [])
  let op : Operand := { Operand.zero with node := k + 1, word := BitVec.ofNat 64 t, bytes := toksBytes toks }
  let s := s.modNode t n fun nd => { nd with walk := some { w with buf := [], begun := !(w.buf.getLast?.any Tok.t), sent := w.sent + 1 } }
  match w.blk.pep with
  | 0 => s.send vnCopy ctx t t .streamBurstArrival { op with tile := t, id := w.eng }
  | 5 => s.sendWrite vnCopy ctx t w.blk.peer .other .streamBurstArrival { op with tile := w.blk.peer, arg := 5, strand := 8 * w.blk.pstr + w.blk.pkey }
  | q => s.sendWrite vnCopy ctx t w.blk.peer .other .streamBurstArrival { op with tile := w.blk.peer, arg := q }

/-- R287, R293: the burst to be sent with its last token tail-marked. -/
def Walk.tailed (w : Walk) : Walk := { w with buf := w.buf.dropLast ++ (w.buf.getLast?.toList.map fun x => { x with t := true }) }

/-- PORT_NETWORK_OUT (R267-R269, R287, R302): a token into the burst to be sent; a burst goes at its tail, at `BLEN` tokens, or before a switch token unless
that is to meet it as partial. -/
def execPortNetworkOut (s : State) : Host.Outcome State Fault Refusal :=
  s.atNode fun t n nd =>
    match nd.walk, nd.headOf 0 with
    | some w, some x =>
      let k := n - 48
      if w.closed then .next s
      else if x.kind ≠ 0 then .next (if w.buf.isEmpty || nd.burst then s else s.putBurst t k w)
      else if !w.begun && (decide (w.credit = 0) || !s.mayBegin t k) then .next s
      else if nd.holdsTail x.t then .next s
      else
        let s := if w.begun then s else s.begins t k
        let w := { w with begun := true, credit := if w.begun then w.credit else w.credit - 1, buf := w.buf ++ [x], got := w.got + 1 }
        let s := (s.tally t 16 1).modNode t n fun nd => { (nd.popInput 0).noteSunk x with walk := some w }
        .next (if x.t ∨ w.buf.length = w.blk.blen then s.putBurst t k w else s)
    | _, _ => .next s

/-- Whether a source PORT has come to the end of its walk (R284, R432). -/
def Node.walkOver (nd : Node) : Bool :=
  match nd.walk with
  | none => true
  | some w => nd.out.isEmpty && (match nd.active.dir with
    | 1 | 5 => decide (w.blk.tokens ≤ w.tok)
    | 3 | 6 => decide (w.blk.tokens ≤ w.got)
    | _ => true)

/-- R432: whether a sink PORT has performed every write of the tokens it has taken. -/
def Node.writesDone (nd : Node) : Bool :=
  match nd.walk with
  | none => true
  | some w => decide (nd.part = 0) && w.buf.isEmpty && (decide (nd.active.dir ≠ 4) || decide (w.blk.pep ≠ 0) || decide (w.sent = 0))

end Sys2Proof.Machine
end

