-- ==== Sys2Proof/Machine/Slate.lean ====
section
/-! DEFINITION. Slates (R271-R296): loads of the shadow planes, switch tokens and flips, held nodes and their resumption, and the COL
triggers. -/

namespace Sys2Proof.Machine

/-! ### Switch tokens (R283) -/

def Tok.snap (x : Tok) : W64 := x.data.extractLsb' 64 64
def Tok.pass (x : Tok) : Nat := (x.data.extractLsb' 48 16).toNat
def Tok.fstr (x : Tok) : Nat := (x.data.extractLsb' 45 3).toNat

/-- R283. -/
def switchTok (snap : W64) (pass fstr side num : Nat) (feeds : Bool) : Tok :=
  ⟨1, false, false, false, 0, 0, 0, (snap.setWidth 128 <<< 64) ||| BitVec.ofNat 128 (pass % 2 ^ 16 * 2 ^ 48 + fstr % 8 * 2 ^ 45 + side % 4 * 2 ^ 43), num, feeds, false⟩

/-! ### What a switch token meets (R250, R253-R267, R285-R287) -/

/-- R285: the node cause and detail with which a node that flips refuses its new plane; `blk` is the block that a PORT's plane names. [Assumption 31: DEDUCED.] -/
def flipRefusal (n : Nat) (p : Plane) (x : Tok) (blk : Blk) : Option (Nat × Nat) :=
  let k := nodeKind n
  let valid := x.snap.getLsbD 63
  if (k.ring || decide (k = .port)) && p.idle then none
  else if p.reservedSet k then some (5, 0)
  else if k.bypasses && p.byp then none
  else match k with
    | .decode =>
      let fmt := if p.fsrc then bitsAt x.snap.toNat 38 4 else p.fmtField
      if p.amode = 7 ∨ p.ssrc = 3 ∨ (p.ssrc = 1 ∧ p.klen = 0) then some (5, 0)
      else if (p.fsrc && !valid) || ((p.fsrc || !p.sel.isEmpty) && !decodeTakes p.amode fmt) then some (3, 0) else none
    | .activate => if p.fld 0 0 2 = 3 then some (5, 0) else none
    | .convert =>
      let fmt := if p.fsrc then bitsAt x.snap.toNat 46 4 else p.fmtField
      if (p.fsrc && !valid) || decide (7 ≤ fmt) then some (3, 0) else none
    | .corner => if p.fld 0 2 2 = 3 ∨ cornerSide p * cornerBytes p < 16 then some (5, 0) else none
    | .reduce =>
      let ins := (List.range 4).filter fun i => p.inm.testBit i
      if 2 ≤ p.rop ∨ ins.isEmpty ∨ (p.along ∧ ins.length ≠ 1) then some (5, 0) else none
    | .join => if p.jm = 3 then some (5, 0) else none
    | .port =>
      let feed := decide (p.dir = 5) || decide (p.dir = 6)
      if p.dir = 7 || (p.edge (n - 48)).1 || (feed && (!p.dst.contains 16 || x.feeds)) then some (5, 0)
      else let c := portRefusal p.dir blk; if c = 0 then none else some (5, c)
    | _ => none

/-- R49: what a node that does not flip finds wrong in the snapshot. [Assumption 31: DEDUCED.] -/
def tableRefusal (n : Nat) (nd : Node) (x : Tok) : Option (Nat × Nat) :=
  let p := nd.active
  if nd.st = .off ∨ p.byp ∨ !p.fsrc then none
  else match nodeKind n with
    | .decode => if x.snap.getLsbD 63 && decodeTakes p.amode (bitsAt x.snap.toNat 38 4) then none else some (3, 0)
    | .convert => if x.snap.getLsbD 63 && decide (bitsAt x.snap.toNat 46 4 < 7) then none else some (3, 0)
    | _ => none

/-- R284: whether a PORT that takes a switch token without flipping begins its walk afresh. [Assumption 33: DEDUCED.] -/
def Node.restarts (nd : Node) (n : Nat) : Bool :=
  decide (nodeKind n = .port) && decide (nd.st ≠ .off) && decide (nd.active.dir ≠ 0) && !nd.active.idle
    && (decide (nd.active.dir = 1) || decide (nd.active.dir = 2) || decide (nd.active.dir = 5) || (nd.walk.all fun w => decide (w.blk.pep = 0)))

/-- R285, R49, R284, R296: what refuses a switch token at a node. -/
def State.switchRefusal (s : State) (t n : Nat) (nd : Node) (x : Tok) : Option (Nat × Nat) :=
  if nd.sval then
    if nd.shadow.bad ∧ nd.shadow.ovl then some (6, 1)
    else if nd.shadow.bad && ((s.collar t).slate nd.shadow.slot).badFor n then some (6, 3)
    else
      let p := if nd.shadow.bad then ((s.collar t).slate nd.shadow.slot).plane nd.shadow.slot n else nd.shadow
      flipRefusal n p x (s.blkAt t p.spb)
  else if nd.restarts n then (let c := portRefusal nd.active.dir (s.blkAt t nd.active.spb); if c = 0 then none else some (5, c))
  else tableRefusal n nd x

/-- R287: whether a node holds a partial burst. -/
def Node.partialBurst (nd : Node) (n : Nat) : Bool :=
  decide (nodeKind n ≠ .promote) && (nd.burst || (decide (nodeKind n = .convert) && !nd.elems.isEmpty))

/-- Whether a whole row or block still waits to be emitted. -/
def Node.waitsOut (nd : Node) (n : Nat) : Bool :=
  match nodeKind n with
  | .norm | .smax => nd.rowWhole
  | .corner => !nd.row.isEmpty && decide (nd.row.length = cornerTokens nd.active)
  | _ => false

/-- The last token of the row under way with the tail mark. -/
def Node.tailRow (nd : Node) : Node := { nd with row := nd.row.zipIdx.map fun p => if p.2 + 1 = nd.row.length then { p.1 with t := true } else p.1 }

/-- R287, R293: a node ends its partial burst as though the last token had carried the tail mark. [Assumption 32: DESIGN CHOICE.] [Assumption 33: DEDUCED.] -/
def State.endBurst (s : State) (t n : Nat) : State :=
  let step := (s.core t).stepc
  let nd := s.node t n
  let lat := nodeSteps n nd.active
  let finished (nd : Node) : Node := { nd with burst := false, marks := 0, ending := true }
  let byp := (nodeKind n).bypasses && nd.active.byp
  match nodeKind n with
  | .norm => if byp || nd.row.isEmpty then s.modNode t n finished else (s.modNode t n fun nd => finished nd.tailRow).finishRow t n
  | .smax =>
    if nd.row.isEmpty then s.modNode t n finished
    else
      let nd := nd.tailRow
      s.modNode t n fun _ => finished ((({ nd with row := [] } : Node).queue n (step + 16 + nd.row.length + routeSteps n) nd.smaxRow).noteSent nd.smaxRow)
  | .convert =>
    if byp || nd.elems.isEmpty then s.modNode t n finished
    else let r := nd.convertEmit (nd.convertFmt nd.active) true; s.modNode t n fun _ => finished ((r.1.queue n (step + lat) [r.2]).noteSent [r.2])
  | .reduce =>
    if !nd.active.along then s.modNode t n finished
    else
      let r := nd.reduceEmit (Config.freeWord s.fresh)
      { s with fresh := s.fresh + 1 }.modNode t n fun _ => finished ((r.1.queue n (step + lat) [r.2]).noteSent [r.2])
  | .corner =>
    if nd.row.isEmpty ∨ nd.ending then s.modNode t n fun nd => finished { nd with row := [] }
    else s.nodeCause t n 2 0 true
  | .port =>
    let s := match nd.walk with
      | some w => if nd.active.dir = 4 ∧ !w.buf.isEmpty then s.putBurst t (n - 48) w.tailed else s
      | none => s
    s.modNode t n finished
  | _ => s.modNode t n finished

/-! ### Taking a switch token (R276, R277, R284-R287) -/

/-- R278: READY becomes EMPTY once no node is ready to flip. -/
def Collar.settle (k : Collar) : Collar :=
  if k.sst = .ready ∧ !(k.nodes.any fun q => q.2.sval) then { k with sst := .empty } else k

/-- Steps that a switch token takes through a node. [Assumption 33: DEDUCED.] -/
def switchSteps (n : Nat) (p : Plane) : Nat := if nodeKind n = .norm then 1 else nodeSteps n p

/-- R254-R257, R266, R268, R283: what a node does on taking any switch token. [Assumption 33: DEDUCED.] -/
def Node.takes (nd : Node) (n : Nat) (x : Tok) : Node :=
  let nd := { nd with took := x.num, snap := x.snap, fstr := x.fstr, ending := false, resume := none, st := if nd.st = .off then .off else .active }
  match nodeKind n with
  | .decode => { nd with cnt := 0, elems := [], marks := 0, scale := 0x3F800000 }
  | .norm => { nd with cnt := 0 }
  | .join => { nd with cnt := 0 }
  | .port => { nd with dones := List.replicate 5 0 }
  | _ => nd

/-- R276, R259, R262: a flip. A shadow that has lost a bit is rebuilt from the slate store (R296). [Assumption 33: DEDUCED.] -/
def Node.flips (nd : Node) (n : Nat) (rebuilt : Plane) : Node :=
  let p := if nd.shadow.bad then rebuilt else nd.shadow
  let nd := { nd with st := .active, active := p, shadow := p, sval := false, drain := false, codes := 0 }
  match nodeKind n with
  | .promote => if p.flag 0 0 then { nd with store := nd.store.filter fun q => decide (4096 ≤ q.1) } else nd
  | .convert => { nd with rng := if p.seed = 0 then 1 else BitVec.ofNat 32 p.seed }
  | _ => nd

/-- R277, R284: where a node that is off passes a switch token: along its lane, which is wired; it has no routed destinations. -/
def offDst (n : Nat) : List Nat :=
  match nodeKind n with
  | .decode | .norm | .promote | .affine | .activate => [laneNext]
  | _ => []

/-- R284: a node takes a switch token; `remove` takes the token from where it stands. [Assumption 33: DEDUCED.] -/
def State.acceptSwitch (s : State) (t n : Nat) (x : Tok) (remove : State → State) : State :=
  let old := s.node t n
  let step := (s.core t).stepc
  let rebuilt := ((s.collar t).slate old.shadow.slot).plane old.shadow.slot n
  let s := (remove s).modNode t n fun nd =>
    let dst := if nd.st = .off then offDst n else nodeDst n nd.active true
    let nd := if nd.st = .off ∧ dst.isEmpty then nd else nd.queueAt (step + switchSteps n nd.active) dst false x
    nd.takes n x
  let s := if old.sval then
      let s := if old.shadow.bad then (s.modCollar t fun k => { k with rcnt := (k.rcnt + 1) % 2 ^ 16 }).tally t 17 1 else s
      (s.modNode t n fun nd => nd.flips n rebuilt).modCollar t Collar.settle
    else s
  if nodeKind n ≠ .port then s
  else
    let s := s.releasesOwed t (n - 48)
    let nd := s.node t n
    if old.sval then
      let s := s.closePort t n
      if nd.active.dir = 0 ∨ nd.active.idle then s else s.openPort t (n - 48)
    else if old.restarts n then (s.closePort t n).openPort t (n - 48)
    else s

/-- R284-R287: a switch token that stands at a node. [Assumption 33: DEDUCED.] -/
def State.takeSwitch (s : State) (t n : Nat) (x : Tok) (remove : State → State) : State :=
  let nd := s.node t n
  let on := decide (nd.st ≠ .off)
  if nd.st = .held ∨ nd.st = .repairing then s
  else if on && nd.active.bad then s.startRepair t n
  else if on && nd.waitsOut n then s
  else if on && nd.partialBurst n then (if nd.drain ∨ nd.ending then s.endBurst t n else s.nodeCause t n 2 0 true)
  else if on && nd.ending && !nd.out.isEmpty then s
  else if on && decide (nodeKind n = .convert) && nd.sval && !nd.drain && !nd.ending
      && (decide (nd.shadow.rm ≠ nd.active.rm) || nd.shadow.sat != nd.active.sat || decide (nd.shadow.seed ≠ nd.active.seed)) then s.nodeCause t n 5 1 true
  else match s.switchRefusal t n nd x with
    | some (c, d) => (s.modNode t n fun nd => { nd with fstr := x.fstr, snap := x.snap }).nodeCause t n c d true
    | none => s.acceptSwitch t n x remove

/-- SWITCH_TOKEN_TAKE (R284): at an input (0), as a marker at PROMOTE (1), or offered (2). -/
def execSwitchTokenTake (s : State) : Host.Outcome State Fault Refusal :=
  let t := s.ev.tile
  let n := s.ev.node
  let nd := s.node t n
  if s.ev.arg = 0 then
    let ins := nd.switchInputs n
    let heads := ins.map fun i => (nd.headOf i).filter fun x => decide (x.kind = 1)
    let toks := heads.filterMap id
    if toks.isEmpty then .next s
    else if heads.any Option.isNone then .next (if nd.st = .active then s.modNode t n fun nd => { nd with st := .aligning } else s)
    else
      let x := toks.foldl (fun a b => if a.num < b.num then b else a) (toks.headD (switchTok 0 0 0 0 0 false))
      if nodeKind n = .port && !nd.burst && !nd.writesDone then .next s
      else .next (s.takeSwitch t n x fun s => s.modNode t n fun nd => ins.foldl Node.popInput nd)
  else if s.ev.arg = 1 then
    match nd.entries with
    | e :: r => match e.tok with
      | some x =>
        let drop (s : State) : State := (s.modNode t n fun nd => { nd with entries := r }).returnCredit t ((n - 12) / 4)
        .next (if nd.st = .off ∨ x.num ≤ nd.took then drop s else s.takeSwitch t n x drop)
      | none => .next s
    | [] => .next s
  else match (s.collar t).offers.find? fun q => decide (q.1 = n) with
    | none => .next s
    | some (_, x) =>
      let drop (s : State) : State := s.modCollar t fun k => { k with offers := k.offers.filter fun q => !(decide (q.1 = n) && decide (q.2.num = x.num)) }
      if x.num ≤ nd.took then .next (drop s)
      else if nodeKind n = .port && decide (nd.st ≠ .off) && !nd.walkOver then .next s
      else .next (s.takeSwitch t n x drop)

/-! ### Loads (R278-R280) -/

/-- R278: the shadows of the named nodes begin to be written. -/
def State.beginLoad (s : State) (t slot : Nat) (names : List Nat) (id coord : Nat) : State :=
  (s.modCollar t fun k =>
    let k := names.foldl (fun (k : Collar) n => k.modNode n fun nd => { nd with sval := false }) k
    { k with sst := .loading, load := some ⟨id, slot, names, coord, false⟩ }).later 71 .slateLoadDone
    { Operand.zero with tile := t, id := id, arg := coord }

/-- Nodes by a mask. -/
def nodesOf (mask : Nat) : List Nat := (List.range 52).filter fun n => mask.testBit n

/-- R280: a request that has waited for the present load to end. -/
def State.nextLoad (s : State) (t : Nat) : State :=
  match (s.collar t).queued with
  | [] => s
  | o :: r => (s.modCollar t fun k => { k with queued := r }).atTick s.tick 0 .regionLoadRequest o

/-- R280: a tile's report to the coordinator. -/
def State.report (s : State) (t coord id : Nat) (bad : Bool) : State :=
  s.send vnConfig (s.ctxOn t) t coord .regionLoadReport { Operand.zero with tile := coord, id := id, word := BitVec.ofNat 64 t, flag := bad }

/-- R278: a load of the present shadows has ended. -/
def Collar.endLoad (k : Collar) (names : List Nat) (good : Bool) : Collar :=
  let k := if good then names.foldl (fun (k : Collar) n => k.modNode n fun nd => { nd with sval := true }) k else k
  { k with sst := if good then .ready else .failed, load := none }

/-- SLATE_LOAD_DONE (R278). [Assumption 33: DEDUCED.] -/
def execSlateLoadDone (s : State) : Host.Outcome State Fault Refusal :=
  let o := s.ev
  s.unlessStopped o.tile .slateLoadDone fun s =>
    match (s.collar o.tile).load with
    | some l =>
      if l.id = o.id ∧ (s.collar o.tile).sst = .loading then
        let x := (s.collar o.tile).slate l.slot
        let bad := l.names.any x.badFor
        let s := s.modCollar o.tile fun k => l.names.foldl (fun (k : Collar) n => k.modNode n fun nd => { nd with shadow := x.plane l.slot n }) k
        if l.coord = 0 then .next ((s.modCollar o.tile fun k => k.endLoad l.names (!bad)).nextLoad o.tile)
        else .next ((s.modCollar o.tile fun k => { k with sst := .prepared, load := some { l with bad := bad } }).report o.tile (l.coord - 1) l.id bad)
      else .next (if o.arg = 0 then s else s.report o.tile (o.arg - 1) o.id true)
    | none => .next (if o.arg = 0 then s else s.report o.tile (o.arg - 1) o.id true)

/-- REGION_LOAD_REQUEST (R280): slot `arg`, nodes `word`, coordinator `node`. -/
def execRegionLoadRequest (s : State) : Host.Outcome State Fault Refusal :=
  let o := s.ev
  s.unlessStopped o.tile .regionLoadRequest fun s =>
    let k := s.collar o.tile
    let s := s.modCollar o.tile fun k => { k with barred := if k.barred.contains o.id then k.barred else k.barred ++ [o.id] }
    if k.sst = .loading ∨ k.sst = .prepared then .next (s.modCollar o.tile fun k => { k with queued := k.queued ++ [o] })
    else if !(k.slate o.arg).valid then .next ((s.report o.tile o.node o.id true).nextLoad o.tile)
    else .next ((s.modCollar o.tile fun k => { k with lidx := o.arg }).beginLoad o.tile o.arg (nodesOf o.word.toNat) o.id (o.node + 1))

/-- REGION_LOAD_REPORT (R280). -/
def execRegionLoadReport (s : State) : Host.Outcome State Fault Refusal :=
  let o := s.ev
  s.unlessStopped o.tile .regionLoadReport fun s =>
    match (s.collar o.tile).regions.find? fun g => decide (g.id = o.id) with
    | none => .next s
    | some g =>
      let g := { g with left := g.left.filter fun t => t ≠ o.word.toNat, bad := g.bad || o.flag }
      if !g.left.isEmpty then .next (s.modCollar o.tile fun k => { k with regions := k.regions.map fun h => if h.id = g.id then g else h })
      else
        let act : Instr := if g.bad then .regionWithhold else .regionCommit
        .next (g.tiles.foldl (fun (s : State) t => s.send vnConfig (s.ctxOn t) o.tile t act { Operand.zero with tile := t, id := g.id })
          (s.modCollar o.tile fun k => { k with regions := k.regions.filter fun h => h.id ≠ g.id }))

/-- The outcome of a region-wide load at a tile (R278, R280). -/
def State.outcome (s : State) (good : Bool) : State :=
  let o := s.ev
  let s := s.modCollar o.tile fun k => { k with barred := k.barred.filter fun i => i ≠ o.id }
  match (s.collar o.tile).load with
  | some l => if l.id = o.id ∧ (s.collar o.tile).sst = .prepared then (s.modCollar o.tile fun k => k.endLoad l.names good).nextLoad o.tile else s
  | none => s

/-- REGION_COMMIT (R280). -/
def execRegionCommit (s : State) : Host.Outcome State Fault Refusal :=
  s.unlessStopped s.ev.tile .regionCommit fun s => .next ((s.outcome true).poke s.ev.tile)

/-- REGION_WITHHOLD (R280). -/
def execRegionWithhold (s : State) : Host.Outcome State Fault Refusal :=
  s.unlessStopped s.ev.tile .regionWithhold fun s => .next ((s.outcome false).poke s.ev.tile)

/-! ### COL triggers (R279-R295) -/

def colNeed (use0 commit : Bool) : Need := { use0 := use0, commit := commit }

/-- R279: `sload` and `spart`, which names the nodes of `mask`. -/
def State.slateLoad (s : State) (c : Issuer) (v mask : Nat) : Except State State :=
  let k := s.collar c.tile
  let slot := v % 32
  if 2 ^ 9 ≤ v ∨ bitsAt v 5 3 ≠ 0 ∨ 2 ^ 52 ≤ mask then .error (s.illegalDest c 0)
  else if !(k.slate slot).valid then .error (s.illegalDest c 0x12)
  else if k.sst = .loading ∨ k.sst = .prepared then .error (s.illegalDest c 0x11)
  else
    let s := s.modCollar c.tile fun k => { k with lidx := slot }
    if mask = 0 then .ok s
    else
      let (i, s) := s.newId
      if !v.testBit 8 then .ok (s.beginLoad c.tile slot (nodesOf mask) i 0)
      else
        let tiles := (s.ctx (s.strand c.tile c.strand).ctx).tiles
        let s := s.modCollar c.tile fun k => { k with regions := k.regions ++ [⟨i, tiles, tiles, false⟩], barred := k.barred ++ [i] }
        let s := s.beginLoad c.tile slot (nodesOf mask) i (c.tile + 1)
        .ok ((tiles.filter fun t => t ≠ c.tile).foldl (fun (s : State) t =>
          s.send vnConfig (s.ctxOn t) c.tile t .regionLoadRequest { Operand.zero with tile := t, id := i, arg := slot, node := c.tile, word := BitVec.ofNat 64 mask }) s)

/-- R279 `sload`. -/
def execSload (t : Trig) (s : State) : Host.Outcome State Fault Refusal :=
  s.trigger 15 (colNeed false true) t fun c o s => some (s.slateLoad c (low64 o.t).toNat (2 ^ 52 - 1))

/-- R279 `spart`. [Assumption 33: DEDUCED.] -/
def execSpart (t : Trig) (s : State) : Host.Outcome State Fault Refusal :=
  s.trigger 15 (colNeed true true) t fun c o s => some (s.slateLoad c (low64 o.t).toNat (low64 o.o0).toNat)

/-- R267: whether more than one PORT is to hold a weight feed once a token injected now has passed. -/
def Collar.feedsClash (k : Collar) : Bool :=
  decide (1 < ((List.range 4).filter fun i =>
    let nd := k.node (48 + i)
    let p := if nd.sval then nd.shadow else nd.active
    !p.idle && (decide (p.dir = 5) || decide (p.dir = 6))).length)

/-- R281, R284: a switch token injected: its marker enters the array at once, the token itself in the next step. It is no beat that R234 has `amode` wait for. -/
def State.injectSwitch (s : State) (c : Issuer) (x : Tok) (side : Nat) : State :=
  let s := if side.testBit 1 then s.modArr c.tile fun a => { a.enter { s.newEntry c .marker 0 with tok := some x } with lastIn := a.lastIn } else s
  s.modCollar c.tile fun k => { k with num := x.num, last := some x, inject := k.inject ++ [(c.step + 1, x, side)] }

/-- R281, R282, R432: what holds or refuses a switch token of side `side`. -/
def State.switchHeld (s : State) (c : Issuer) (side : Nat) : Bool :=
  let k := s.collar c.tile
  decide (k.sst = .loading) || decide (k.sst = .prepared) || !k.barred.isEmpty || (side.testBit 1 && !(s.arr c.tile).hasCredit)
    || (s.strand c.tile c.strand).stream.unissuedBelow c.seq isAccess

/-- R48, R211: the format-table base as the issuing bundle sees it, or nothing while it must wait. -/
def State.formatBase (s : State) (c : Issuer) : Option Nat :=
  let x := s.strand c.tile c.strand
  if regReady (s.core c.tile) c.strand x codeFmtb c.seq c.step then some (low64 (x.regAt codeFmtb c.seq)).toNat else none

/-- R281 `fire`. [Assumption 34: DEDUCED.] -/
def execFire (t : Trig) (s : State) : Host.Outcome State Fault Refusal :=
  s.trigger 15 { colNeed false true with loads := true, access := true } t fun c o s =>
    let v := (low64 o.t).toNat
    let k := s.collar c.tile
    if 2 ^ 16 ≤ v then some (.error (s.illegalDest c 0))
    else if s.switchHeld c 0 then none
    else if k.sst = .failed then some (.error (s.illegalDest c 0x10))
    else if !k.act ∧ k.sst = .empty then some (.error (s.illegalDest c 0x13))
    else if s.switchHeld c 3 then none
    else match s.specialValue c .lc0, s.formatBase c with
      | some lc, some base =>
        let snap := BitVec.ofNat 64 (leNat (s.readPieces c [(base + 8 * (lc.toNat % 16), 8)]))
        let x := switchTok snap v c.strand 3 (k.num + 1) k.feedsClash
        let s := s.oweBanks c.tile false [(base + 8 * (lc.toNat % 16), 8)]
        some (.ok ((s.modCollar c.tile fun k => { k with act := true, abort := false, pass := v }).injectSwitch c x 3))
      | _, _ => none

/-- R282 `swtok`. [Assumption 34: DEDUCED.] -/
def execSwtok (t : Trig) (s : State) : Host.Outcome State Fault Refusal :=
  s.trigger 15 (colNeed false true) t fun c o s =>
    let v := (low64 o.t).toNat
    let k := s.collar c.tile
    if 4 ≤ v ∨ v = 0 then some (.error (s.illegalDest c 0))
    else if s.switchHeld c 0 then none
    else if k.sst = .failed then some (.error (s.illegalDest c 0x10))
    else match (if k.act then k.last else none) with
      | none => some (.error (s.illegalDest c 0x16))
      | some l =>
        if s.switchHeld c v then none
        else some (.ok (s.injectSwitch c (switchTok l.snap l.pass l.fstr v (k.num + 1) k.feedsClash) v))

/-- R288 `cdrain`. -/
def execCdrain (t : Trig) (s : State) : Host.Outcome State Fault Refusal :=
  s.trigger 15 (colNeed false true) t fun c o s =>
    let v := (low64 o.t).toNat
    if 2 ^ 52 ≤ v then some (.error (s.illegalDest c 0))
    else some (.ok (s.modCollar c.tile fun k => (nodesOf v).foldl (fun (k : Collar) n => k.modNode n fun nd => { nd with drain := true }) k))

/-- Nodes that are HELD, lowest first. -/
def Collar.heldNodes (k : Collar) : List Nat := (k.nodes.filter fun q => decide (q.2.st = .held)).map Prod.fst

/-- R292: what `ctrap` returns. -/
def Collar.trapWord (k : Collar) : W64 :=
  match k.raised with
  | none => 0
  | some n => match (k.node n).hold with
    | none => 0
    | some h => BitVec.ofNat 64 (h.detail % 2 ^ 48 * 2 ^ 16 + h.cause * 2 ^ 8 + 2 ^ 7 + (if 1 < k.heldNodes.length then 2 ^ 6 else 0) + n)

/-- R292 `ctrap`. -/
def execCtrap (t : Trig) (s : State) : Host.Outcome State Fault Refusal :=
  s.trigger 15 { colNeed false false with result := some 15 } t fun c _ s =>
    some (.ok (s.result c 15 2 t.w (widen (s.collar c.tile).trapWord) 0 0))

/-- R291: the held node with the lowest number is raised. -/
def State.raiseNext (s : State) (t : Nat) : State :=
  match (s.collar t).heldNodes with
  | [] => s
  | n :: _ => s.raiseNode t n

/-- R293: a held node goes on. -/
def State.resumeNode (s : State) (t n : Nat) (h : Hold) (v : W64) : State :=
  let nd := s.node t n
  let eng := (nd.walk.map Walk.eng).getD 0
  let s := s.modNode t n fun nd => { nd with
    st := .active, hold := none, ending := nd.ending || (decide (h.cause = 2) && h.sw)
    resume := if h.cause = 1 ∨ (h.cause = 2 ∧ !h.sw ∧ (nodeKind n ≠ .port ∨ nd.active.dir ≠ 4)) then some (h.cause, v) else none }
  let s := s.modCollar t fun k => { k with raised := none }
  let s := if nodeKind n = .port ∧ (h.cause = 4 ∨ h.cause = 7 ∨ (h.cause = 2 ∧ !h.sw ∧ nd.active.dir = 4)) then s.resumeStream eng h.cause (decide (v = 1)) else s
  s.raiseNext t

/-- R293 `cres`. [Assumption 34: DEDUCED.] -/
def execCres (t : Trig) (s : State) : Host.Outcome State Fault Refusal :=
  s.trigger 15 (colNeed true true) t fun c o s =>
    let n := (low64 o.o0).toNat % 64
    let v := low64 o.t
    if (s.collar c.tile).raised ≠ some n then some (.error (s.illegalDest c 0x14))
    else match (s.node c.tile n).hold with
      | none => some (.error (s.illegalDest c 0x14))
      | some h =>
        if h.cause = 3 ∨ h.cause = 5 ∨ h.cause = 6 then some (.error (s.illegalDest c 0x15))
        else if (h.cause = 4 ∨ h.cause = 7) ∧ 1 < v.toNat then some (.error (s.illegalDest c 0x14))
        else some (.ok (s.resumeNode c.tile n h v))

/-- R294: a node after `cabort`. -/
def Node.aborted (nd : Node) : Node :=
  { Node.reset with active := nd.active, shadow := nd.shadow, ns := nd.ns, store := nd.store, took := nd.took, stopping := nd.stopping }

/-- R294: a PORT's stream is closed as `close` closes it: the producer of another tile is told to stop. -/
def State.abortPort (s : State) (t n : Nat) : State :=
  let nd := s.node t n
  let s := match nd.walk with
    | some w => if (nd.active.dir = 3 ∨ nd.active.dir = 6) ∧ w.blk.pep ≠ 0 then
        (s.modNode t n fun nd => { nd with stopping := w.source :: nd.stopping }).stopProducer t 8 n w.source else s
    | none => s
  s.closePort t n

/-- R278: the shadow of a node whose load ends early: each register, the route and the rest of the plane have arrived or have not, which is open. -/
def Plane.partly (old new : Plane) (bits : W64) : Plane :=
  let rest := bits.getLsbD 10
  { p := (List.range 8).map fun m => (if bits.getLsbD m then new else old).p.getD m 0
    sel := (if bits.getLsbD 8 then new else old).sel
    dst := (if bits.getLsbD 9 then new else old).dst
    slot := (if rest then new else old).slot, ovl := (if rest then new else old).ovl, cid := (if rest then new else old).cid, bad := (if rest then new else old).bad }

/-- R278, R294: the shadows of a load that `cabort` ends before its words have all come. -/
def State.cutLoad (s : State) (t : Nat) : State :=
  match (s.collar t).load with
  | some l =>
    if (s.collar t).sst ≠ .loading then s
    else
      let x := (s.collar t).slate l.slot
      l.names.foldl (fun s n => ({ s with fresh := s.fresh + 1 } : State).modNode t n fun nd =>
        { nd with shadow := nd.shadow.partly (x.plane l.slot n) (Config.freeWord s.fresh) }) s
  | none => s

/-- R294: the slate is ended; a region-wide load that has waited for the tile's own load is taken up (R280). [Assumption 33: DEDUCED.] -/
def State.abortCollar (s : State) (t : Nat) : State :=
  let s := s.cutLoad t
  let s := [48, 49, 50, 51].foldl (fun s n => s.abortPort t n) s
  let owed := (s.collar t).nodes.flatMap fun q => (q.2.entries.map fun _ => (q.1 - 12) / 4) ++ (q.2.out.filter OutTok.credit).map fun _ => (q.1 - 12) / 4
  let s := owed.foldl (fun s j => s.returnCredit t j) s
  let s := s.modCollar t fun k => { k with
    nodes := k.nodes.map fun q => (q.1, q.2.aborted), sst := .empty, inject := [], offers := [], lanes := [[], [], [], []], wport := [], raised := none
    load := none, abort := k.act }
  s.nextLoad t

/-- R294 `cabort`. [Assumption 33: DEDUCED.] -/
def execCabort (t : Trig) (s : State) : Host.Outcome State Fault Refusal :=
  s.trigger 15 (colNeed false true) t fun c _ s => some (.ok ((s.abortCollar c.tile).later 72 .cabortComplete (opTile c.tile)))

/-- CABORT_COMPLETE (R294): the collar has no active slate; a later `fire` has made one of its own. -/
def execCabortComplete (s : State) : Host.Outcome State Fault Refusal :=
  s.unlessStopped s.ev.tile .cabortComplete fun s =>
    .next (s.modCollar s.ev.tile fun k => if k.abort then { k with act := false, abort := false } else k)

/-- R295: a switch token is still in transit. -/
def State.switching (s : State) (t : Nat) : Bool :=
  let k := s.collar t
  !k.inject.isEmpty || !k.offers.isEmpty || ((s.arr t).inside.any fun e => decide (e.kind = .marker))
    || k.nodes.any fun q => (q.2.ins.any fun l => l.any fun x => decide (x.kind = 1)) || (q.2.out.any fun x => decide (x.tok.kind = 1))
        || (q.2.entries.any fun e => decide (e.kind = .marker)) || decide (q.2.st = .aligning)

/-- R295: what `cstat` returns. -/
def State.collarStatus (s : State) (t : Nat) : W64 :=
  let k := s.collar t
  let sst := match k.sst with | .empty => 0 | .loading => 1 | .prepared => 2 | .ready => 3 | .failed => 4
  BitVec.ofNat 64 ((if k.act then 2 ^ 63 else 0) + sst * 2 ^ 60 + (if k.heldNodes.isEmpty then 0 else 2 ^ 59)
    + (if k.nodes.any fun q => decide (q.2.st = .repairing) then 2 ^ 58 else 0) + (if s.switching t then 2 ^ 57 else 0)
    + k.lidx * 2 ^ 48 + k.rcnt * 2 ^ 32 + k.pass * 2 ^ 16)

/-- R295 `cstat`. [Assumption 34: DEDUCED.] -/
def execCstat (t : Trig) (s : State) : Host.Outcome State Fault Refusal :=
  s.trigger 15 { colNeed false false with result := some 15 } t fun c _ s =>
    some (.ok (s.result c 15 2 t.w (widen (s.collarStatus c.tile)) 0 0))

/-- R289 `npar`. -/
def execNpar (t : Trig) (s : State) : Host.Outcome State Fault Refusal :=
  s.trigger 15 (colNeed true true) t fun c o s =>
    let v := low64 o.t
    let sel := (low64 o.o0).toNat
    let n := sel % 64
    let k := s.collar c.tile
    if 2 ^ 16 ≤ sel ∨ bitsAt sel 11 4 ≠ 0 ∨ bitsAt sel 6 2 ≠ 0 ∨ 51 < n then some (.error (s.illegalDest c 0))
    else if sel.testBit 15 then
      some (.ok (s.modNode c.tile n fun nd =>
        let ns := nd.ns &&& ~~~(v &&& 0x3F)
        { nd with ns := if v.getLsbD 8 then ns &&& ~~~0xFF00 else ns }))
    else if k.sst = .loading ∨ k.sst = .prepared then some (.error (s.illegalDest c 0x11))
    else some (.ok (s.modCollar c.tile fun k =>
      { k.modNode n fun nd => { nd with shadow := { nd.shadow with p := nd.shadow.p.set (bitsAt sel 8 3) v, ovl := true }, sval := true } with sst := .ready }))

end Sys2Proof.Machine
end

