-- ==== Sys2Proof/Machine/Capsule.lean ====
section
/-! DEFINITION. Capsules: the WRK triggers that form, edit and send them (R334-R339), arrival and visits (R342, R343), meets (R345, R346, R484),
returns (R332, R349) and parking (R348). -/

namespace Sys2Proof.Machine

/-! ### What the triggers share (R334, R335) -/

/-- Strand 7 while it handles a capsule (R343). -/
def Strand.visits (x : Strand) : Bool := x.capVisit.isSome

/-- R329: the address of an arrival slot. -/
def arrivalBase (slot : Nat) : Nat := 0x7_8000 + slot * 0x4000

/-- The arrival head of the capsule a strand handles. -/
def Strand.arrivalHead (x : Strand) : Option Nat := x.capVisit.map arrivalBase

/-- R334: what an editing trigger needs: it commits the checkpoint and acts on the scratchpad in sequence order. -/
def capNeed (use0 use1 : Bool) : Need := { use0 := use0, use1 := use1, commit := true, access := true, loads := true }

/-- n bytes of the scratchpad from an aligned address as the issuing bundle sees them; those beyond it read 0. -/
def State.capRead (s : State) (c : Issuer) (a n : Nat) : List Byte := s.readPieces c ((List.range ((n + 15) / 16)).map fun g => (a + 16 * g, min 16 (n - 16 * g)))

/-- Runs of bytes stored by the issuing bundle. -/
def State.capWrite (s : State) (c : Issuer) (ps : List (Nat × List Byte)) : State :=
  (s.storePieces c false (ps.map fun p => ((p.1, p.2.length), p.2))).oweBanks c.tile true (ps.flatMap fun p => granulesAt p.1 p.2.length)

/-- One word of a head stored. -/
def State.capWord (s : State) (c : Issuer) (a : Nat) (bs : List Byte) (k : Nat) : State := s.capWrite c [(a + 8 * k, leBytes 8 (wordAt bs k))]

/-- A whole capsule at an address. -/
def State.capsuleAt (s : State) (c : Issuer) (a : Nat) : List Byte :=
  let h := s.capRead c a headSize
  h ++ s.capRead c (a + headSize) (capLen h)

/-- R331: the bytes of a head and of every stop its `NSTP` can name. -/
def headSpan : Nat := 320

/-- R335: LO. -/
def Strand.lowStop (x : Strand) (bs : List Byte) : Nat := if some x.ccap = x.arrivalHead then capCur bs + 1 else capCur bs

/-- R334, R336: an instruction on the current capsule. -/
def State.onCapsule (s : State) (n : Need) (t : Trig) (eff : Issuer → Opnds → Strand → List Byte → State → Option (Except State State)) :
    Host.Outcome State Fault Refusal :=
  s.trigger 9 n t fun c o s =>
    let x := s.strand c.tile c.strand
    if x.ccap = 0 then some (.error (s.illegalDest c 0x0601)) else eff c o x (s.capRead c x.ccap headSpan) (s.oweBanks c.tile false (granulesAt x.ccap headSpan))

/-- R330: the tile's next capsule identifier. -/
def Tile.nextCapId (y : Tile) (t : Nat) : Nat := t * 2 ^ 19 + y.capCount % 2 ^ 19

def State.countCapsule (s : State) (t : Nat) : State := s.modTile t fun y => { y with capCount := (y.capCount + 1) % 2 ^ 19 }

/-- R206, R339: what a release at module scope waits for in its slot: every earlier access made, performed, and its cross-die writes applied. [Assumption 43: DEDUCED.] -/
def State.moduleRelease (s : State) (c : Issuer) : Bool :=
  s.releaseReady c true && !(s.requestsBelow c.tile c.strand c.seq fun _ => true) && !s.writesOut c.tile c.strand c.seq s.ids false

/-! ### Forming and editing (R336, R337) -/

/-- R330, R337: a fresh head; `CTX` has no reset value. -/
def freshHead (id tile kslot desc : Nat) (ctx : W64) : List Byte :=
  leBytes 8 (id * 2 ^ 32 + ctx.toNat % 2 ^ 12 * 2 ^ 20) ++ leBytes 8 desc ++ leBytes 8 0x3F80_0000_3F80_0000 ++ leBytes 8 (tile * 2 ^ 31)
    ++ leBytes 8 (2 ^ 16) ++ leBytes 8 (kslot * 2 ^ 48) ++ List.replicate 208 0

/-- R337 `capnew`. [Assumption 37: DEDUCED.] -/
def execCapnew (t : Trig) (s : State) : Host.Outcome State Fault Refusal :=
  s.trigger 9 { capNeed true false with result := some 9 } t fun c o s =>
    let buf := (low64 o.t).toNat
    let desc := (low64 o.o0).toNat
    let x := s.strand c.tile c.strand
    if buf % 64 ≠ 0 ∨ !descriptorOk desc ∨ scratchSize < buf + headSize + bitsAt desc 0 15 then some (.error (s.illegalDest c 0x0604))
    else if !regReady (s.core c.tile) c.strand x codeKsel c.seq c.step then none
    else
      let kslot := ((x.regAt codeKsel c.seq).setWidth 16).toNat
      let h := freshHead ((s.tile c.tile).nextCapId c.tile) c.tile kslot desc (Config.freeWord s.fresh)
      let s := ({ s with fresh := s.fresh + 1 } : State).capWrite c [(buf, h)]
      let s := (s.countCapsule c.tile).modStrand c.tile c.strand fun x => { x with ccap := buf }
      some (.ok (s.result c 9 2 t.w (widen (BitVec.ofNat 64 buf)) 0 0))

/-- R336 `capins`. -/
def execCapins (t : Trig) (s : State) : Host.Outcome State Fault Refusal :=
  s.onCapsule (capNeed true true) t fun c o x bs s =>
    let p := (low64 o.t).toNat
    let n := capStops bs
    if p < x.lowStop bs ∨ n < p ∨ 12 ≤ n then some (.error (s.illegalDest c 0x0602))
    else
      let moved := (bs.drop (64 + 16 * p)).take (16 * (n - p))
      let s := s.capWrite c [(x.ccap + 64 + 16 * p, leBytes 8 (low64 o.o0).toNat ++ leBytes 8 (low64 o.o1).toNat ++ moved)]
      some (.ok (s.capWord c x.ccap (setHead bs 0 11 4 (n + 1)) 0))

/-- R336 `capdel`. -/
def execCapdel (t : Trig) (s : State) : Host.Outcome State Fault Refusal :=
  s.onCapsule (capNeed false false) t fun c o x bs s =>
    let p := (low64 o.t).toNat
    let n := capStops bs
    if p < x.lowStop bs ∨ n ≤ p then some (.error (s.illegalDest c 0x0602))
    else
      let moved := (bs.drop (64 + 16 * (p + 1))).take (16 * (n - 1 - p))
      let s := s.capWrite c [(x.ccap + 64 + 16 * p, moved ++ List.replicate 16 0)]
      some (.ok (s.capWord c x.ccap (setHead bs 0 11 4 (n - 1)) 0))

/-- R336: the word, bit and width of a selector's field as `caprd` returns it. -/
def capField (sel : Nat) : Option (Nat × Nat × Nat) :=
  if sel < 14 then
    [(0, 17, 3), (0, 15, 2), (1, 0, 64), (2, 0, 32), (2, 32, 32), (4, 32, 32), (4, 24, 8), (4, 16, 8), (6, 0, 64), (7, 0, 64), (0, 7, 4), (0, 0, 64),
      (3, 0, 64), (5, 48, 16)][sel]?
  else if 0x10 ≤ sel ∧ sel < 0x1C then some (8 + 2 * (sel - 0x10), 0, 64)
  else if 0x20 ≤ sel ∧ sel < 0x2C then some (9 + 2 * (sel - 0x20), 0, 64)
  else none

/-- R336: whether `capset` accepts a value for a selector. -/
def capAccepts (bs : List Byte) (arrival : Bool) (sel v : Nat) : Bool :=
  match sel with
  | 0 => decide (v < 8)
  | 1 => decide (v < 2)
  | 2 => descriptorOk v
  | 3 => decide (v < 2 ^ 32)
  | 4 => decide (v < 2 ^ 32)
  | 5 => decide (v < 2 ^ 32)
  | 6 => decide (v < 16)
  | 7 => decide (1 ≤ v ∧ v ≤ 16)
  | 8 => true
  | 9 => true
  | 10 => decide (v ≤ capStops bs) && (!arrival || decide (capCur bs ≤ v))
  | _ => decide (0x10 ≤ sel) && decide (sel < 0x1C) && decide (sel - 0x10 < capStops bs) && decide (v < 2 ^ 32)

/-- R336 `capset`. -/
def execCapset (t : Trig) (s : State) : Host.Outcome State Fault Refusal :=
  s.onCapsule (capNeed true false) t fun c o x bs s =>
    let sel := (low64 o.o0).toNat
    let v := (low64 o.t).toNat
    match capField sel with
    | some (k, lo, n) =>
      if capAccepts bs (decide (some x.ccap = x.arrivalHead)) sel v then
        some (.ok (s.capWord c x.ccap (setHead bs k lo (if 0x10 ≤ sel then 32 else n) v) k))
      else some (.error (s.illegalDest c 0x0602))
    | none => some (.error (s.illegalDest c 0x0602))

/-- R336 `caprd`: it commits nothing. [Assumption 37: DEDUCED.] -/
def execCaprd (t : Trig) (s : State) : Host.Outcome State Fault Refusal :=
  s.onCapsule { access := true, loads := true, result := some 9 } t fun c o _ bs s =>
    match capField (low64 o.t).toNat with
    | some (k, lo, n) => some (.ok (s.result c 9 2 t.w (widen (BitVec.ofNat 64 (headField bs k lo n))) 0 0))
    | none => some (.error (s.illegalDest c 0x0602))

/-- R337 `capfork`: the copy is read whole before anything is written. [Assumption 37: DEDUCED.] -/
def execCapfork (t : Trig) (s : State) : Host.Outcome State Fault Refusal :=
  s.trigger 9 (capNeed true false) t fun c o s =>
    let x := s.strand c.tile c.strand
    let a := (low64 o.t).toNat
    let w := (low64 o.o0).toNat
    let fi := bitsAt w 40 8
    let nfc := bitsAt w 32 8
    let buf := bitsAt w 0 19
    if x.ccap = 0 then some (.error (s.illegalDest c 0x0601))
    else if 2 ^ 48 ≤ w ∨ bitsAt w 19 13 ≠ 0 ∨ nfc = 0 ∨ 16 < nfc ∨ nfc ≤ fi then some (.error (s.illegalDest c 0x0602))
    else if a % 64 ≠ 0 then some (.error (s.illegalDest c 0x0604))
    else
      let bs := s.capsuleAt c a
      if nfc ≤ capFork bs then some (.error (s.illegalDest c 0x0602))
      else if buf % 64 ≠ 0 ∨ scratchSize < buf + headSize + capLen bs ∨ scratchSize < a + headSize + capLen bs then some (.error (s.illegalDest c 0x0604))
      else
        let bs := setHead bs 4 16 8 nfc
        let copy := setHead (setHead bs 4 24 8 fi) 0 32 32 ((s.tile c.tile).nextCapId c.tile)
        let s := (s.capWord c a bs 4).capWrite c [(buf, copy)]
        some (.ok ((s.countCapsule c.tile).modStrand c.tile c.strand fun x => { x with ccap := buf }))

/-! ### Sending (R338, R339) -/

/-- The capsules of a tile that its message queue still holds. -/
def State.capsulesQueued (s : State) (t : Nat) : Nat :=
  (s.pkts.filter fun q => decide (q.2.vn = vnCapsule) && decide (q.2.src = t) && decide (q.2.at_ = t) && decide (q.2.inn = 4)).length

/-- R339 `capsend`: it waits while the message queue holds 16 capsules. -/
def execCapsend (t : Trig) (s : State) : Host.Outcome State Fault Refusal :=
  s.trigger 9 (capNeed false false) t fun c o s =>
    let x := s.strand c.tile c.strand
    let a := (low64 o.t).toNat
    let bs := s.capsuleAt c (a / 64 * 64)
    if !headOk bs a then some (.error (s.illegalDest c 0x0604))
    else if some a = x.arrivalHead then some (.error (s.illegalDest c 0x0603))
    else if !s.moduleRelease c ∨ 16 ≤ s.capsulesQueued c.tile then none
    else
      let bs := setHead bs 0 20 12 x.ctx
      some (.ok ((s.capWord c a bs 0).capSend c.tile x.ctx bs))

/-! ### The end of a visit (R344) -/

/-- The nodes a node's tokens go to next. -/
def Collar.after (k : Collar) (n : Nat) : List Nat :=
  (nodeDst n (k.node n).active false).filterMap fun b => if b = laneNext then some (n + 1) else if b = laneRows ∨ b = 16 then none else some (inputOwner b).1

def Collar.isSink (k : Collar) (n : Nat) : Bool :=
  decide (nodeKind n = .port) && decide ((k.node n).st ≠ .off) && (decide ((k.node n).active.dir = 2) || decide ((k.node n).active.dir = 4))

/-- Whether a node's tokens are bound for a sink PORT. -/
def Collar.toSink (k : Collar) : Nat → Nat → Bool
  | 0, _ => false
  | fuel + 1, n => k.isSink n || (k.after n).any fun m => k.toSink fuel m

/-- A node still holds something of its pass. [Assumption 39: DEDUCED.] -/
def Node.holding (nd : Node) : Bool :=
  (nd.ins.any fun l => l.any fun x => decide (x.kind ≠ 1)) || (nd.out.any fun x => decide (x.tok.kind ≠ 1)) || !nd.entries.isEmpty || !nd.row.isEmpty
    || !nd.elems.isEmpty || decide (nd.part ≠ 0) || (nd.walk.any fun w => decide (nd.active.dir = 4) && decide (w.sent ≠ 0))

/-- A source PORT has still tokens of its walk to give. -/
def Node.feeding (nd : Node) (n : Nat) : Bool := decide (nodeKind n = .port) && (decide (nd.active.dir = 1) || decide (nd.active.dir = 3)) && !nd.walkOver

/-- R344: the switch tokens of strand 7's passes that are on their way (R283, R284). -/
def State.visitSwitches (s : State) (t : Nat) : List Tok :=
  let k := s.collar t
  (k.inject.map (fun q => q.2.1) ++ k.offers.map Prod.snd ++ (s.arr t).inside.filterMap ArrEntry.tok
    ++ k.nodes.flatMap fun q => q.2.ins.flatten ++ q.2.out.map OutTok.tok ++ q.2.entries.filterMap ArrEntry.tok).filter fun x => decide (x.kind = 1) && decide (x.fstr = 7)

/-- R344: a beat that strand 7 issued is in the array or, as tokens, in an exit lane. -/
def State.visitBeats (s : State) (t : Nat) : Bool :=
  let beat (e : ArrEntry) : Bool := decide (e.strand = 7) && decide (e.kind ≠ .marker)
  ((s.arr t).inside.any beat)
    || (s.collar t).nodes.any fun q => decide (12 ≤ q.1) && decide (q.1 < 44)
        && (q.2.entries.any beat || q.2.visit || (q.2.ins.any fun l => l.any Tok.visit) || q.2.out.any fun x => x.tok.visit)

/-- R344: a switch token of strand 7's pass has still to reach a source PORT, whose walk is then to feed a sink. [Assumption 39: DEDUCED.] -/
def State.passDue (s : State) (t : Nat) : Bool :=
  let k := s.collar t
  let plane (i : Nat) : Plane := let nd := k.node (48 + i); if nd.sval then nd.shadow else nd.active
  let used (i d e : Nat) : Bool := (decide ((plane i).dir = d) || decide ((plane i).dir = e)) && !(plane i).idle
  (s.visitSwitches t).any (fun x => (List.range 4).any fun i => decide ((k.node (48 + i)).took < x.num) && used i 1 3)
    && (List.range 4).any fun i => used i 2 4

/-- R344: a beat that strand 7 issued has still to leave the exit lanes, or a token of a pass that it fired is still on its way, or still to come, to a sink PORT. [Assumption 39: DEDUCED.] -/
def State.visitBusy (s : State) (t : Nat) : Bool :=
  let k := s.collar t
  s.visitBeats t || s.passDue t
    || k.nodes.any fun q => decide (q.2.fstr = 7) && decide (q.2.st ≠ .off) && (q.2.holding || q.2.feeding q.1) && k.toSink 16 q.1

/-- R344: a pass that strand 7 fired is still in the collar. [Assumption 39: DEDUCED.] -/
def State.visitPass (s : State) (t : Nat) : Bool :=
  let k := s.collar t
  (k.act && !(s.visitSwitches t).isEmpty)
    || k.nodes.any fun q => decide (q.2.fstr = 7) && decide (q.2.st ≠ .off) && (q.2.holding || q.2.hold.isSome || q.2.feeding q.1
        || (q.2.ins.any fun l => !l.isEmpty) || !q.2.out.isEmpty)

/-- R344: `capnxt` or `capfin`. -/
def State.endVisit (s : State) (next : Bool) (t : Trig) : Host.Outcome State Fault Refusal :=
  s.trigger 9 { capNeed false false with commit := false } t fun c o s =>
    let x := s.strand c.tile c.strand
    let a := (low64 o.t).toNat
    if !x.visits then some (.error (s.illegalDest c 0x0600))
    else if some a ≠ x.arrivalHead then some (.error (s.raiseHere c 14 (BitVec.ofNat 64 x.ccap) 2))
    else if next && !headOk (s.capRead c a headSize) a then some (.error (s.illegalDest c 0x0604))
    else if !s.mayEnd c || !s.moduleRelease c || s.visitBusy c.tile then none
    else some (.ok (s.endRun c ⟨if next then .capNext (low64 o.t) else .capFinish (low64 o.t), 0, [], 0, 0⟩))

/-- R344 `capnxt`. [Assumption 39: DEDUCED.] -/
def execCapnxt (t : Trig) (s : State) : Host.Outcome State Fault Refusal := s.endVisit true t

/-- R344 `capfin`. [Assumption 39: DEDUCED.] -/
def execCapfin (t : Trig) (s : State) : Host.Outcome State Fault Refusal := s.endVisit false t

/-! ### Arrival (R341, R342) -/

/-- A strand of the tile is resident, or a record has been sent to one. -/
def Tile.resident (y : Tile) : Bool := y.strands.any fun q => decide (q.2.st ≠ .free) || q.2.sent

/-- R114: a valid handler's bundle. -/
def Tile.handler (y : Tile) (id : Nat) : Option Nat := (y.handlers[id]?).bind fun w => if w.testBit 15 then some (w % 4096) else none

def State.modCapSlot (s : State) (t slot : Nat) (f : Option CapSlot → Option CapSlot) : State :=
  s.modTile t fun y => { y with capSlots := y.capSlots.modify slot f }

/-- The capsule as it stands in an arrival slot. -/
def State.slotCapsule (s : State) (t slot : Nat) : List Byte :=
  let h := memRead s.mem (tileBase t + arrivalBase slot) headSize
  h ++ memRead s.mem (tileBase t + arrivalBase slot + headSize) (capLen h)

/-- A slot frees, and a capsule that waits for one comes in; the next visit may begin. -/
def State.freeSlot (s : State) (t slot : Nat) : State :=
  let s := s.modCapSlot t slot fun _ => none
  let s := match (s.tile t).capWait with
    | [] => s
    | o :: rest => (s.modTile t fun y => { y with capWait := rest }).atTick s.tick 0 .capsuleArrival { o with flag := true }
  s.atTick s.tick 1 .capsuleVisitStart (opTile t)

/-- A capsule that its tile cannot take diverted. -/
def State.refuseCapsule (s : State) (t slot code : Nat) : State :=
  let bs := s.slotCapsule t slot
  (s.divert t (capCtx bs) bs code (capCur bs)).freeSlot t slot

/-- R342: a capsule older than one slot's still waits for its visit in the other. -/
def Tile.olderWaits (y : Tile) (slot : Nat) : Bool :=
  match y.capSlots.getD slot none with
  | none => false
  | some x => y.capSlots.zipIdx.any fun q => decide (q.2 ≠ slot) && q.1.any fun z => decide (z.order < x.order) && !z.visiting

/-- R341, R342: the checks of an arrived capsule; a tile without a resident strand loads the capsule's kernel first. One that would need another kernel than a load
under way brings, or than an older capsule counts on, is judged once that one's visit begins. [Assumption 36: DEDUCED.] -/
def State.checkArrival (s : State) (t slot : Nat) : State :=
  let bs := s.slotCapsule t slot
  let ctx := capCtx bs
  let y := s.tile t
  match SMap.lookup (s.ctx ctx).kernels (capKernel bs) with
  | none => s.refuseCapsule t slot 4
  | some k =>
    let is (q : Option (Nat × KHeader)) : Bool := match q with | some p => decide (p.1 = ctx) && decide (p.2.kslot = k.hdr.kslot) | none => false
    if is y.kernel then
      if !k.hdr.caps ∨ (y.handler (stopHandler bs (capCur bs))).isNone then s.refuseCapsule t slot 3
      else (s.modCapSlot t slot fun q => q.map fun x => { x with ready := true }).atTick s.tick 1 .capsuleVisitStart (opTile t)
    else if is y.loading then s
    else if y.resident then s.refuseCapsule t slot 4
    else if y.loading.isSome ∨ y.olderWaits slot then s
    else (s.modTile t fun y => { y with kernel := none, code := [], nbun := 0, loading := some (ctx, k.hdr) }).later 32 .codeLoadDone { opTile t with node := slot, flag := true }

/-- A capsule into a free slot: its bytes, then its checks. [Assumption 36: DEDUCED.] -/
def State.takeIn (s : State) (t slot : Nat) (bs : List Byte) : State :=
  let s := (s.setMem (memWrite s.mem (tileBase t + arrivalBase slot) (bs.take headSize ++ capData bs))).oweBanks t true
    (granulesAt (arrivalBase slot) (headSize + (capData bs).length))
  let s := s.modTile t fun y => { y with capSeq := y.capSeq + 1, capSlots := y.capSlots.set slot (some ⟨y.capSeq, false, false⟩) }
  (s.tally t 24 1).checkArrival t slot

/-- R348: the timer of a capsule that waits at the head of a tile's router. [Assumption 38: DEDUCED.] -/
def State.armWait (s : State) (t : Nat) : State :=
  match (s.tile t).capWait with
  | o :: _ => s.atTick (s.tick + 65536) 0 .capsuleParkTimeout { opTileId t o.strand with arg := 3 }
  | [] => s

/-- CAPSULE_ARRIVAL (R342): a capsule reaches its VISIT tile; it takes the lowest free slot or waits in the router, behind those that wait there. [Assumption 36: DEDUCED.] [Assumption 38: DEDUCED.] -/
def execCapsuleArrival (s : State) : Host.Outcome State Fault Refusal :=
  let o := s.ev
  let t := o.tile
  s.unlessStopped t .capsuleArrival fun s =>
    if (s.ctx (capCtx o.bytes)).st = .destroyed then .next s
    else
      let y := s.tile t
      match (if o.flag || y.capWait.isEmpty then y.capSlots.findIdx? fun q => q.isNone else none) with
      | some slot => .next ((s.takeIn t slot o.bytes).armWait t)
      | none =>
        let (i, s) := s.newId
        let s := s.modTile t fun y => { y with capWait := if o.flag then { o with strand := i } :: y.capWait else y.capWait ++ [{ o with strand := i }] }
        .next (if y.capWait.isEmpty ∨ o.flag then s.armWait t else s)

/-- The oldest capsule in a tile's slots that waits for its visit. -/
def Tile.oldestArrived (y : Tile) : Option Nat :=
  let waiting := (y.capSlots.zipIdx.filterMap fun q => q.1.map fun x => (q.2, x)).filter fun q => !q.2.visiting
  (waiting.foldl (fun (best : Option (Nat × CapSlot)) q => match best with
    | none => some q
    | some b => if q.2.order < b.2.order then some q else some b) none).map Prod.fst

/-- R343: the registers of a visit. -/
def visitRegs (base : Nat) (bs : List Byte) : SMap Wide :=
  let cur := capCur bs
  let vals : List Nat := [base, wordAt bs 0, wordAt bs 1, wordAt bs 2, stopArg bs cur, stopSlate bs cur, stopHandler bs cur, wordAt bs 6, wordAt bs 7]
  let regs := vals.zipIdx.foldl (fun m q => SMap.setD m 0 (0x080 + q.2) (BitVec.ofNat 1024 q.1)) Strand.reset.regs
  SMap.setD regs 0 codeKsel (BitVec.ofNat 1024 (capKernel bs))

/-- R222: the checkpoint at the first bundle of a run. -/
def firstCheckpoint (step idx : Nat) : Checkpoint := ⟨handlerStream 0 idx, [], [], [], [], [], [], idx, step - 1⟩

/-- CAPSULE_VISIT_START (R343): the capsule strand takes the oldest arrived capsule. [Assumption 38: DEDUCED.] [Assumption 41: DEDUCED.] -/
def execCapsuleVisitStart (s : State) : Host.Outcome State Fault Refusal :=
  let t := s.ev.tile
  s.unlessStopped t .capsuleVisitStart fun s =>
    let y := s.tile t
    if (y.strand 7).st ≠ .free ∨ (y.strand 7).sent then .next s
    else match y.oldestArrived with
      | none => .next s
      | some slot =>
        let bs := s.slotCapsule t slot
        let held := match y.kernel with | some q => decide (q.1 = capCtx bs) && decide (q.2.kslot = capKernel bs) | none => false
        if !held ∨ !(y.capSlots.getD slot none).any CapSlot.ready then .next (s.checkArrival t slot)
        else match y.handler (stopHandler bs (capCur bs)) with
          | none => .next (s.refuseCapsule t slot 3)
          | some idx =>
            let base := arrivalBase slot
            let (run, s) := s.newId
            let x : Strand := { Strand.reset with
              st := .resident, regs := visitRegs base bs, wid := BitVec.ofNat 64 (capId bs), metaWord := BitVec.ofNat 64 (wordAt bs 0), run := run
              ctx := capCtx bs, kslot := capKernel bs, stream := handlerStream 0 idx, ckpt := some (firstCheckpoint y.core.stepc idx), ccap := base, capVisit := some slot }
            let s := s.modCapSlot t slot fun q => q.map fun x => { x with visiting := true }
            let s := (s.modStrand t 7 fun _ => x).poke t
            .next (if ((s.tile t).capSlots.getD (1 - slot) none).any fun z => !z.ready && !z.visiting then s.checkArrival t (1 - slot) else s)

/-! ### After the end of a visit (R344) -/

/-- R344: the capsule leaves its slot: on to its next stop, into memory, or diverted with the cause that ended the run. -/
def State.leaveVisit (s : State) (t slot ctx : Nat) (kind : EndKind) : State :=
  let bs := s.slotCapsule t slot
  let s := match kind with
    | .capNext _ => s.capSend t ctx (setHead bs 0 7 4 (capCur bs + 1))
    | .capFinish _ => if capAux bs = 0 then s else s.storeCapsule t ctx (capAux bs) bs false
    | .fault code =>
      let s := s.divert t ctx bs (0x100 + code) (capCur bs)
      if s.visitPass t then (s.abortCollar t).later 72 .cabortComplete (opTile t) else s
    | _ => s
  s.freeSlot t slot

/-! ### Meets (R345, R346, R484) -/

/-- R345: the formats a meet combines, with their element sizes. -/
def meetFormat (fmt : Nat) : Option (Fmt × Nat) :=
  match fmt with
  | 0 => some (fp32, 4) | 1 => some (fp16, 2) | 2 => some (bf16, 2) | _ => none

/-- Element e of a fork's data, widened. -/
def Fork.elem (f : Fork) (e : Nat) : Num :=
  match meetFormat (capFmt f.head) with
  | some (g, w) => g.decode (leNat ((f.data.drop (w * e)).take w))
  | none => .fin false 0 0

/-- R345: one element of the result, in the order of the fork indices. -/
def meetElem (forks : List Fork) (fcnt e : Nat) : Nat :=
  (List.range fcnt).foldl (fun acc i =>
    match forks.find? fun f => decide (f.idx = i) with
    | some f => if f.standIn.isSome then (fp32.add acc 0).1
        else (fp32.finish (numFma (f.elem e) (fp32.decode (capGw f.head)) (fp32.decode acc))).1
    | none => acc) 0

/-- R345, R346: the combined capsule. -/
def Meet.combine (m : Meet) (fcnt : Nat) : List Byte :=
  let n := m.n.getD 0
  let head := ((m.forks.find? fun f => decide (f.idx = 0)).map fun f => f.head).getD (List.replicate headSize 0)
  let size := match capFmt head with | 0 => 4 | 6 => 4 | 1 => 2 | 2 => 2 | _ => 1
  let desc := putBits (putBits (putBits (wordAt head 1) 60 4 0) 28 15 (headField head 1 28 15 * 4 / size)) 0 15 (4 * n)
  let head := setHead (setHead (setWord head 1 desc) 2 32 32 0x3F80_0000) 4 16 16 1
  let head := match m.forks.findSome? Fork.standIn with
    | some j => setHead (setHead head 3 48 16 7) 3 44 4 j
    | none => head
  head ++ (List.range n).flatMap fun e => leBytes 4 (meetElem m.forks fcnt e)

/-- R345: whether an arrival joins the entry it finds. [Assumption 40: DEDUCED.] -/
def meetFits (bs : List Byte) (m : Option Meet) : Bool :=
  match meetFormat (capFmt bs) with
  | none => false
  | some (_, w) =>
    let n := capLen bs / w
    decide (capFork bs < capForks bs) && (match m with
      | none => decide (4 * n ≤ 16128)
      | some m => !(m.forks.any fun f => decide (f.idx = capFork bs)) && (match m.n with
        | some k => decide (k = n) && decide (m.fcnt = capForks bs)
        | none => decide (4 * n ≤ 16128)))

/-- MEET_ARRIVAL (R345, R346, R484): a fork or a stand-in reaches a die's Mordant; with the last the combined capsule goes on. [Assumption 40: DEDUCED.] -/
def execMeetArrival (s : State) : Host.Outcome State Fault Refusal :=
  let o := s.ev
  let die := o.node
  let bs := o.bytes
  let ctx := capCtx bs
  let mine (m : Meet) : Bool := decide (m.die = die) && decide (m.ctx = ctx) && decide (m.mtag = capTag bs)
  let old := s.meets.find? mine
  if (s.ctx ctx).st = .destroyed then .next s
  else if !o.flag ∧ !meetFits bs old then .next (s.divert (edgeTile die) ctx bs 6 (capCur bs) true)
  else if o.flag ∧ (old.any fun m => m.forks.any fun f => decide (f.idx = capFork bs)) then .next s
  else
    let m := old.getD ⟨die, ctx, capTag bs, capForks bs, none, []⟩
    let w := ((meetFormat (capFmt bs)).map Prod.snd).getD 1
    let m := if o.flag then m else { m with fcnt := capForks bs, n := some (capLen bs / w) }
    let m := { m with forks := m.forks ++ [⟨capFork bs, bs.take headSize, if o.flag then [] else capData bs, if o.flag then some o.arg else none⟩] }
    let rest := s.meets.filter fun q => !mine q
    if m.forks.length < m.fcnt then .next { s with meets := m :: rest }
    else
      let out := m.combine m.fcnt
      .next (({ s with meets := rest } : State).capSend (edgeTile die) ctx (setHead out 0 7 4 (capCur out + 1)) true)

/-! ### Returns and parking (R332, R348, R349) -/

/-- CAPSULE_RETURN_DELIVERY (R332, R349): the bytes are written, and then the key credited. [Assumption 39: DEDUCED.] -/
def execCapsuleReturnDelivery (s : State) : Host.Outcome State Fault Refusal :=
  let o := s.ev
  let t := o.tile
  let i := capCur o.bytes
  let arg := stopArg o.bytes i
  let data := returnBytes o.bytes i
  let s := (s.setMem (memWrite s.mem (tileBase t + bitsAt arg 0 19) data)).oweBanks t true (granulesAt (bitsAt arg 0 19) data.length)
  .next ((s.poke t).after 1 .keyCredit { Operand.zero with tile := t, strand := bitsAt arg 27 3, node := bitsAt arg 24 3, id := t * 8 + 4, arg := (data.length + 15) / 16 })

/-- CAPSULE_PARK_TIMEOUT (R348): a capsule that has stood too long at a router input is parked, and so is one whose next hop lies in a stopped tile. [Assumption 38: DEDUCED.] -/
def execCapsuleParkTimeout (s : State) : Host.Outcome State Fault Refusal :=
  let o := s.ev
  if o.arg = 3 then
    match (s.tile o.tile).capWait with
    | w :: rest =>
      if w.strand = o.id ∧ !(s.tile o.tile).stopped then
        .next (((s.modTile o.tile fun y => { y with capWait := rest }).parkCapsule o.tile w.bytes 0xFFFD).armWait o.tile)
      else .next s
    | [] => .next s
  else match SMap.lookup s.pkts o.id with
    | none => .next s
    | some p =>
      if o.arg = 2 then
        if p.frozenAhead s then .next (((s.dropPacket o.id p).burstDropped p).parkCapsule p.at_ p.op.bytes 0xFFFC) else .next (s.after 1 .routerForward (opId o.id))
      else if p.headAt = some o.word.toNat ∧ p.queued ∧ !p.carrier ∧ p.sent = 0 ∧ !(s.tile p.at_).stopped then
        .next (((s.dropPacket o.id p).burstDropped p).parkCapsule p.at_ p.op.bytes 0xFFFD)
      else .next s

end Sys2Proof.Machine
end

