-- ==== Sys2Proof/Machine/Ecdsa.lean ====
section
/-! DEFINITION. ECDSA on brainpoolP384r1 (FIPS 186-5, RFC 5639), by which the attestation report is signed (R479, R480). -/

namespace Sys2Proof.Machine

/-! ### The curve: y^2 = x^3 + a x + b modulo p, with a base point of prime order n -/

def curveP : Nat := 0x8CB91E82A3386D280F5D6F7E50E641DF152F7109ED5456B412B1DA197FB71123ACD3A729901D1A71874700133107EC53
def curveA : Nat := 0x7BC382C63D8C150C3C72080ACE05AFA0C2BEA28E4FB22787139165EFBA91F90F8AA5814A503AD4EB04A8C7DD22CE2826
def curveB : Nat := 0x04A8C7DD22CE28268B39B55416F0447C2FB77DE107DCD2A62E880EA53EEB62D57CB4390295DBC9943AB78696FA504C11
def curveN : Nat := 0x8CB91E82A3386D280F5D6F7E50E641DF152F7109ED5456B31F166E6CAC0425A7CF3AB6AF6B7FC3103B883202E9046565
def curveG : Nat × Nat :=
  (0x1D1C64F068CF45FFA2A63A81B7C13F6B8847A3E77EF14FE3DB7FCAFE0CBD10E8E826E03436D646AAEF87B2E247D4AF1E,
   0x8ABE1D7520F9C2A45CB1EB8E95CFD55262B70B29FEEC5864E19C054FF99129280E4646217791811142820341263C5315)

/-- A power modulo m, over the 384 bits of an exponent. -/
def powMod (x e m : Nat) : Nat :=
  (List.range 384).foldr (fun i acc => if e.testBit i then acc * acc % m * x % m else acc * acc % m) 1

/-- The inverse modulo a prime. -/
def invMod (x m : Nat) : Nat := powMod (x % m) (m - 2) m

/-- The sum of two points of the curve; nothing is the point at infinity. -/
def addPoint (p q : Option (Nat × Nat)) : Option (Nat × Nat) :=
  match p, q with
  | none, q => q
  | p, none => p
  | some (x1, y1), some (x2, y2) =>
    let m := curveP
    if x1 = x2 ∧ (y1 + y2) % m = 0 then none
    else
      let l := if x1 = x2 then (3 * x1 * x1 + curveA) * invMod (2 * y1) m % m else (y2 + m - y1) * invMod (x2 + m - x1) m % m
      let x3 := (l * l + 2 * m - x1 - x2) % m
      some (x3, (l * (x1 + m - x3) + m - y1) % m)

/-- A multiple of a point, over the 384 bits of the factor. -/
def mulPoint (k : Nat) (p : Option (Nat × Nat)) : Option (Nat × Nat) :=
  (List.range 384).foldr (fun i acc => if k.testBit i then addPoint (addPoint acc acc) p else addPoint acc acc) none

/-- The public key of a private one (R479). -/
def publicKey (d : Nat) : Option (Nat × Nat) := mulPoint (d % curveN) (some curveG)

/-- One trial of a signature of a digest under a secret number: r and s, unless one of them is 0. -/
def ecdsaTry (d z k : Nat) : Option (Nat × Nat) :=
  match mulPoint k (some curveG) with
  | none => none
  | some (x, _) =>
    let r := x % curveN
    let s := invMod k curveN * (z + r * d) % curveN
    if r = 0 ∨ s = 0 then none else some (r, s)

/-- ECDSA: a signature of a digest of 384 bits by a private key, under the first of the secret numbers, 1 to n − 1, that gives one. -/
def ecdsaSign (d z : Nat) (nonces : List Nat) : Nat × Nat :=
  (nonces.findSome? fun k => ecdsaTry (d % curveN) z (k % (curveN - 1) + 1)).getD (0, 0)

/-- Whether a signature of a digest is good under a public key. -/
def ecdsaVerify (key : Option (Nat × Nat)) (z : Nat) (sig : Nat × Nat) : Bool :=
  let w := invMod sig.2 curveN
  match addPoint (mulPoint (z * w % curveN) (some curveG)) (mulPoint (sig.1 * w % curveN) key) with
  | none => false
  | some (x, _) => decide (0 < sig.1) && decide (sig.1 < curveN) && decide (0 < sig.2) && decide (sig.2 < curveN) && decide (x % curveN = sig.1)

/-- A number from its big-endian bytes. -/
def beNat (bs : List Byte) : Nat := leNat bs.reverse

end Sys2Proof.Machine
end

