-- ==== Sys2Proof/Machine/Host.lean ====
section
/-! DEFINITION. The host: masters and ownership (R473, R474), the mailbox (R475, R476), the BARs (R142-R144, R469-R472), reset and bring-up (R478), and the commands
on links, pages, sensors, counters and events (R445, R451, R465, R477). -/

namespace Sys2Proof.Machine

/-! ### Masters (R473, R474) -/

/-- R473: the masters that are there. -/
def State.masterPresent (s : State) (m : Nat) : Bool :=
  match m with
  | 0 => true | 1 => s.bifurcated | 2 => true | 3 => Config.debugFuse | _ => false

def State.isOwner (s : State) (m : Nat) : Bool := decide (s.owner = .owned m)
def State.master (s : State) (m : Nat) : Master := SMap.get s.masters Master.reset m
def State.modMaster (s : State) (m : Nat) (f : Master → Master) : State := { s with masters := SMap.set s.masters m (f (s.master m)) }

/-! ### The mailbox (R475, R476) -/

def Command.opcode (c : Command) : Nat := bitsAt (c.words.headD 0).toNat 48 16
def Command.count (c : Command) : Nat := bitsAt (c.words.headD 0).toNat 40 5
/-- Argument word k; 0 beyond the number the command gives. -/
def Command.arg (c : Command) (k : Nat) : Nat := if k ≤ c.count then (c.words.getD k 0).toNat else 0

/-- R476: no reserved bit is set: word 0's, and those of the argument words outside the masks. -/
def Command.clean (c : Command) (masks : List Nat) : Bool :=
  decide (bitsAt (c.words.headD 0).toNat 0 40 = 0) && decide (bitsAt (c.words.headD 0).toNat 45 3 = 0)
    && (List.range 31).all fun k => decide (c.arg (k + 1) &&& masks.getD k 0 = c.arg (k + 1))

def mask64 : Nat := 2 ^ 64 - 1

/-- R477: the instruction that carries a command out. -/
def commandOf (c : Command) : Option Instr :=
  match c.opcode with
  | 0x0001 => some .claim | 0x0002 => some .handover | 0x0003 => some .reset | 0x0004 => some .status
  | 0x0010 => some .ctxCreate | 0x0011 => some .ctxBind | 0x0012 => some .ctxFreeze | 0x0013 => some .ctxThaw
  | 0x0014 => some .ctxEvict | 0x0015 => some .ctxDestroy | 0x0016 => some .queuePause | 0x0017 => some .queueResume
  | 0x0020 => some .kernelInstall | 0x0021 => some .kernelRemove | 0x0030 => some .ptRoot | 0x0031 => some .tlbShootdown
  | 0x0032 => some .pageMigrate | 0x0033 => some .pageReclaim | 0x0034 => some .rawRead | 0x0040 => some .sensorRead
  | 0x0041 => some .counterRead | 0x0042 => some .eventRead | 0x0060 => some .attest | 0x0061 => some .identityCert | 0x006F => some .outputRead
  | 0x0050 => match c.arg 2 with
    | 0 => some .linkTrain | 1 => some .linkRetrain | 2 => some .linkRetrainLaneReset | 3 => some .linkDrain | 4 => some .linkSetRwinRthr
    | _ => some .linkEventMsixEnable
  | _ => none

/-- R475: a command's response: its results, then `DONE`. -/
def State.respond (s : State) (c : Command) (status detail : Nat) (results : List Nat) : State :=
  if c.gone then s
  else s.modMaster c.master fun m => { m with
    response := ((0 : W64) :: results.map (fun r => BitVec.ofNat 64 r) ++ List.replicate 32 0).take 32
    mbst := BitVec.ofNat 64 (c.tag * 2 ^ 48 + detail % 2 ^ 16 * 2 ^ 32 + status % 2 ^ 8 * 2 ^ 24 + bitsAt m.mbst.toNat 2 1 * 4 + 1) }

/-- R475, R476, R478: the MCP takes up the next command; one it does not know ends at once. [Assumption 65: DESIGN CHOICE.] -/
def State.takeUp (s : State) : List Command → State
  | [] => { s with mcpQ := [] }
  | c :: rest =>
    match commandOf c with
    | some i => ({ s with mcp := some c, mcpQ := rest } : State).later 80 i { Operand.zero with node := c.master }
    | none => (s.respond c (if s.phase = 5 then 1 else 3) 0 []).takeUp rest

def State.nextCommand (s : State) : State := if s.mcp.isSome then s else s.takeUp s.mcpQ

/-- The running command ends. -/
def State.finish (s : State) (status detail : Nat) (results : List Nat) : State :=
  match s.mcp with
  | some c => ({ s.respond c status detail results with mcp := none } : State).nextCommand
  | none => s

/-- R475: what the running command has started has ended, and with it the command, which has held the MCP. [Assumption 52: DEDUCED.] -/
def State.finishHeld (s : State) (test : Command → Bool) (status detail : Nat) (results : List Nat) : State :=
  if s.mcp.any test then s.finish status detail results else s

/-- The running command stays busy until what it waits for has come; the MCP goes on, as a second freeze (R391) and further claims (R474) need. [Assumption 52: DEDUCED.] -/
def State.keepBusy (s : State) : State :=
  match s.mcp with
  | some c => ({ s with mcp := none, waiting := s.waiting ++ [c] } : State).nextCommand
  | none => s

/-- The busy commands that a test marks end. -/
def State.finishWaiting (s : State) (test : Command → Bool) (status detail : Nat) (results : List Nat) : State :=
  (s.waiting.filter test).foldl (fun s c => s.respond c status detail results) { s with waiting := s.waiting.filter fun c => !test c }

/-- One command carried out (R476-R478): READY, then the owner's right, then reserved bits, then its own effect. [Assumption 65: DESIGN CHOICE.] -/
def State.command (s : State) (i : Instr) (owner : Bool) (masks : List Nat) (body : Command → State → State) : Host.Outcome State Fault Refusal :=
  match s.mcp with
  | none => .next s
  | some c =>
    if commandOf c ≠ some i then .next s
    else if s.phase ≠ 5 ∧ i ≠ .status then .next (s.finish 3 0 [])
    else if owner ∧ !s.isOwner c.master then .next (s.finish 2 0 [])
    else if !c.clean masks then .next (s.finish 1 0 [])
    else .next (body c s)

/-- MBGO_WRITE (R475): a master's command is accepted, or ignored with `OVR` while one is in flight. [Assumption 65: DESIGN CHOICE.] -/
def execMbgoWrite (s : State) : Host.Outcome State Fault Refusal :=
  let m := s.ev.node
  let x := s.master m
  if !s.masterPresent m then .next s
  else if x.mbst.getLsbD 1 then .next (s.modMaster m fun x => { x with mbst := x.mbst ||| 4 })
  else
    let tag := s.ev.word.toNat % 2 ^ 16
    let s := s.modMaster m fun x => { x with mbst := BitVec.ofNat 64 (tag * 2 ^ 48 + 2) }
    .next ({ s with mcpQ := s.mcpQ ++ [⟨m, tag, x.request, false⟩] } : State).nextCommand

/-! ### Ownership (R474) -/

/-- R474: the port's link has been down for 2^31 ticks. -/
def State.linkLost (s : State) (port : Nat) : Bool :=
  match SMap.lookup s.downAt port with
  | some t => decide (t + 2 ^ 31 ≤ s.tick)
  | none => false

/-- R474: a new owner, which loses the module at once where its port is in D3hot or has long been down. -/
def State.ownedBy (s : State) (m : Nat) : State :=
  let s := { s with owner := .owned m }
  if s.d3hot.contains m ∨ s.linkLost m then s.atTick s.tick 0 .ownerLost { Operand.zero with node := m } else s

/-- CLAIM (R474). -/
def execClaim (s : State) : Host.Outcome State Fault Refusal :=
  s.command .claim false [] fun c s => match s.owner with
    | .unowned => (s.ownedBy c.master).finish 0 0 [c.master]
    | .electing _ => s.keepBusy
    | .owned m => s.finish 3 0 [m]

/-- ELECTION_WINDOW_END (R474): the lowest claimant owns the module. -/
def execElectionWindowEnd (s : State) : Host.Outcome State Fault Refusal :=
  match s.owner with
  | .electing _ =>
    match s.waiting.filter fun c => decide (c.opcode = 1) with
    | [] => .next { s with owner := .unowned }
    | c :: cs =>
      let m := cs.foldl (fun m d => min m d.master) c.master
      .next ((s.ownedBy m).finishWaiting (fun d => decide (d.opcode = 1)) 0 0 [m])
  | _ => .next s

/-- HANDOVER (R474). -/
def execHandover (s : State) : Host.Outcome State Fault Refusal :=
  s.command .handover true [mask64] fun c s =>
    if s.masterPresent (c.arg 1) then (s.ownedBy (c.arg 1)).finish 0 0 [] else s.finish 4 0 []

/-- OWNER_LOST (R468, R474): a port's function is put in D3hot (the flag), or its link has long been down; a port in either state owns nothing. [Assumption 59: PRESUMED.] -/
def execOwnerLost (s : State) : Host.Outcome State Fault Refusal :=
  let m := s.ev.node
  let s := if s.ev.flag ∧ m < 2 ∧ !s.d3hot.contains m then { s with d3hot := s.d3hot ++ [m] } else s
  if s.isOwner m ∧ m < 2 ∧ (s.d3hot.contains m ∨ s.linkLost m) then .next (({ s with owner := .unowned } : State).logEvent 3 [m]) else .next s

/-- A port's link goes down; after 2^31 ticks its master's ownership ends. -/
def State.portDown (s : State) (p : Nat) : State :=
  if s.upPorts.contains p then
    ({ s with upPorts := s.upPorts.filter (fun q => q ≠ p), downAt := SMap.set s.downAt p s.tick } : State).atTick (s.tick + 2 ^ 31) 0 .ownerLost { Operand.zero with node := p }
  else s

/-- HOST_LINK_DOWN (R468, R474). -/
def execHostLinkDown (s : State) : Host.Outcome State Fault Refusal := .next (s.portDown s.ev.node)

/-- HOST_LINK_UP (R468, R474, R478): a port's link is up, its function in D0. -/
def execHostLinkUp (s : State) : Host.Outcome State Fault Refusal :=
  let p := s.ev.node
  if !s.masterPresent p ∨ 2 ≤ p then .next s
  else .next { s with upPorts := if s.upPorts.contains p then s.upPorts else s.upPorts ++ [p], downAt := SMap.erase s.downAt p, d3hot := s.d3hot.filter fun q => q ≠ p }

/-! ### Reset and bring-up (R478) -/

/-- R468, R478: everything cleared but the fuses, and the strap read; the counter of free values, the model's own, goes on. [Assumption 6: DESIGN CHOICE.] [Assumption 7: DESIGN CHOICE.] -/
def State.moduleReset (s : State) : State := { State.reset with fresh := s.fresh + 1, bifurcated := Config.strap s.fresh }

/-- MODULE_RESET (R478). -/
def execModuleReset (s : State) : Host.Outcome State Fault Refusal := .next s.moduleReset

/-- RESET (R477): queued commands are discarded without responses. -/
def execReset (s : State) : Host.Outcome State Fault Refusal := s.command .reset true [] fun _ s => s.moduleReset

/-- PORT_B_RESET (R468, R474): only port B's link and function; commands of its master that wait are discarded, and a running one ends without a response. -/
def execPortBReset (s : State) : Host.Outcome State Fault Refusal :=
  if !s.bifurcated then .next s
  else
    let s := s.portDown 1
    .next { s with wbase := SMap.erase s.wbase 1, d3hot := s.d3hot.filter fun q => q ≠ 1
                   mcpQ := s.mcpQ.filter fun c => decide (c.master ≠ 1), waiting := s.waiting.filter fun c => decide (c.master ≠ 1)
                   mcp := s.mcp.map fun c => if c.master = 1 then { c with gone := true } else c
                   masters := SMap.erase s.masters 1, msix := s.msix.filter (fun p => decide (p.1 < 4096)), pba := s.pba.filter fun v => decide (v < 2048) }

/-- R10, R441: the die links. -/
def dieLinks : List Nat :=
  ((List.range 8).flatMap fun d => (List.range 32).map fun i => linkId false d 1 i) ++ (List.range 4).flatMap fun d => (List.range 32).map fun i => linkId false d 2 i

def zPorts : List Nat := (List.range 8).map zPort

/-- R445, R478: a step of bring-up begins to train its links: the die links, then the Z ports, which are down until then. -/
def State.beginTraining (s : State) : State :=
  if s.phase = 3 then
    { s with links := zPorts.foldl (fun m id => SMap.set m id Link.reset) s.links, linkBase := { s.linkBase with st := .training } }
  else if s.phase = 4 then zPorts.foldl (fun s id => s.setLink id .training) s
  else s

/-- R444, R445, R478: the training of a link that has some tries left: lanes retire; with none left it is fenced and logged. -/
def State.bringUpLink (s : State) (id : Nat) : Nat → State
  | 0 => s.fenceLink id .training true
  | n + 1 => match s.tryTrain id with
    | some r => s.trained id r
    | none => ({ s with fresh := s.fresh + 1 } : State).bringUpLink id n

/-- R478: the links of the step trained, and whether the step has failed by it: one of the die links was fenced. -/
def State.endTraining (s : State) : State × Bool :=
  if s.phase = 3 then
    let s := dieLinks.foldl (fun s id => s.bringUpLink id 3) s
    (s, dieLinks.any fun id => decide ((s.link id).st = .fenced))
  else if s.phase = 4 then (zPorts.foldl (fun s id => s.bringUpLink id 3) s, false)
  else (s, false)

/-- BRINGUP_STEP_DONE (R478): with the flag, the step of `PHASE` ends; without it, it begins. -/
def execBringupStepDone (s : State) : Host.Outcome State Fault Refusal :=
  if 5 ≤ s.phase then .next s
  else if !s.ev.flag then .next (s.later 90 .bringupStepDone { s.ev with flag := true })
  else
    let fail := if s.phase = 4 then none else Config.bringupFailure s.fresh s.phase
    let s := { s with fresh := s.fresh + 1 }
    match fail with
    | some code => .next { s with phase := 15, fcode := code % 256 }
    | none =>
      let r := s.endTraining
      if r.2 then .next { r.1 with phase := 15, fcode := Config.fenceCode r.1.fresh % 256, fresh := r.1.fresh + 1 }
      else
      let s := ({ r.1 with phase := s.phase + 1 } : State).beginTraining
      if s.phase = 5 then .next (({ s with owner := .electing [] } : State).atTick (s.tick + 2100000) 0 .electionWindowEnd Operand.zero)
      else .next (s.later 90 .bringupStepDone { s.ev with flag := true })

/-! ### BAR2: queue apertures (R142-R144) -/

/-- R143: `QSTAT`. [Assumption 47: DEDUCED.] -/
def Ctx.qstat (c : Ctx) (q : LaunchQ) : Nat :=
  let bit (b : Bool) (i : Nat) : Nat := if b then 2 ^ i else 0
  bit q.ovf 63 + bit q.mal 62 + bit ((c.paused || q.fw) && decide (c.st ≠ .destroyed)) 61 + bit (decide (c.st = .destroyed)) 60 + min q.drops 0xFFFFFF * 2 ^ 32 + (2 ^ c.qcap - (q.pidx - q.cidx))

/-- The live queue of an aperture: its context and number. -/
def State.aperture (s : State) (off : Nat) : Option (Nat × Nat) :=
  let n := off / 0x1000
  let ctx := n / 64
  if ctx = 0 ∨ (s.ctx ctx).st = .none ∨ (s.ctx ctx).launchQs.length ≤ n % 64 ∨ s.phase ≠ 5 then none else some (ctx, n % 64)

def State.modLaunchQ (s : State) (ctx q : Nat) (f : LaunchQ → LaunchQ) : State := s.modCtx ctx fun c => { c with launchQs := c.launchQs.modify q f }

def LaunchQ.drop (q : LaunchQ) : LaunchQ := { q with drops := min (q.drops + 1) 0xFFFFFF }

/-- R138: 64 bytes at the tail of a launch ring, and whether there was room. -/
def State.enqueueLaunch (s : State) (ctx q : Nat) (bs : List Byte) : State × Bool :=
  let c := s.ctx ctx
  let lq := c.launchQs.getD q LaunchQ.reset
  if c.st = .destroyed then (s.modLaunchQ ctx q LaunchQ.drop, true)
  else if 2 ^ c.qcap ≤ lq.pidx - lq.cidx then (s.modLaunchQ ctx q fun x => { x.drop with ovf := true }, false)
  else
    let s := s.ctxWrite ctx (c.launchBase q + 64 * (lq.pidx % 2 ^ c.qcap)) bs
    ((s.modLaunchQ ctx q fun x => { x with pidx := x.pidx + 1 }).wakeCtx ctx, true)

/-- R473: a master with a path to the queue apertures and the device-memory window. -/
def State.windowMaster (s : State) (m : Nat) : Bool := decide (m < 2) && s.masterPresent m

/-- HOST_ENQUEUE (R142-R144, R473): a write to an enqueue window. -/
def execHostEnqueue (s : State) : Host.Outcome State Fault Refusal :=
  let o := s.ev
  match s.aperture o.id with
  | none => .next s
  | some (ctx, q) =>
    if 0x40 ≤ o.id % 0x1000 ∨ !s.windowMaster o.node then .next s
    else if !s.isOwner o.node then .next (s.modLaunchQ ctx q LaunchQ.drop)
    else if o.id % 0x1000 ≠ 0 ∨ o.bytes.length ≠ 64 then .next (s.modLaunchQ ctx q fun x => { x.drop with mal := true })
    else .next (s.enqueueLaunch ctx q o.bytes).1

/-- QSTAT_WRITE (R143, R473): ones clear `OVF`, with `DROPS`, and `MAL`. -/
def execQstatWrite (s : State) : Host.Outcome State Fault Refusal :=
  let o := s.ev
  match s.aperture o.id with
  | none => .next s
  | some (ctx, q) =>
    if !s.windowMaster o.node then .next s
    else if !s.isOwner o.node then .next (s.modLaunchQ ctx q LaunchQ.drop)
    else .next (s.modLaunchQ ctx q fun x =>
      { x with ovf := x.ovf && !o.word.getLsbD 63, drops := if o.word.getLsbD 63 then 0 else x.drops, mal := x.mal && !o.word.getLsbD 62 })

/-! ### BAR0 (R470, R471) -/

/-- R471: `MSTAT`. -/
def State.mstat (s : State) (m : Nat) : Nat :=
  let bit (b : Bool) (i : Nat) : Nat := if b then 2 ^ i else 0
  let owner := match s.owner with | .owned n => n | _ => 7
  let elec := match s.owner with | .electing _ => true | _ => false
  s.phase * 2 ^ 60 + s.fcode * 2 ^ 52 + owner * 2 ^ 49 + bit elec 48 + m * 2 ^ 45
    + bit ((s.ctxs.any fun p => !p.2.held.isEmpty) || !s.stallY.isEmpty) 44 + bit (!s.log.isEmpty) 43

/-- R470: a word of a master's control window. -/
def State.bar0 (s : State) (m off : Nat) : Nat :=
  let x := s.master m
  if off = 0 then s.mstat m
  else if off = 8 then (SMap.get s.wbase 0 (portOf m)).toNat
  else if off = 0x18 then x.mbst.toNat
  else if 0x1000 ≤ off ∧ off < 0x1100 then (x.request.getD ((off - 0x1000) / 8) 0).toNat
  else if 0x1100 ≤ off ∧ off < 0x1200 then (x.response.getD ((off - 0x1100) / 8) 0).toNat
  else if 0x8000 ≤ off ∧ off < 0x10000 then s.msixWord (portOf m) ((off - 0x8000) / 8)
  else if 0x10000 ≤ off ∧ off < 0x10100 then
    (List.range 64).foldl (fun n i => if s.pba.contains (portOf m * 2048 + (off - 0x10000) * 8 + i) then n + 2 ^ i else n) 0
  else 0

/-- R473: the BMC and the debug probe reach the control window only, to 0x11FF. -/
def State.reaches (s : State) (m off : Nat) : Bool := s.masterPresent m && (decide (m < 2) || decide (off < 0x1200))

/-- A vector unmasked while its message is pending sends it. [Assumption 59: PRESUMED.] -/
def State.flushMsix (s : State) (port vector : Nat) : State :=
  if s.pba.contains (port * 2048 + vector) ∧ !(s.msixWord port (2 * vector + 1)).testBit 32 then
    ({ s with pba := s.pba.filter fun v => v ≠ port * 2048 + vector } : State).sendMsix port vector
  else s

/-- A word with the half that a DWORD write at an offset names replaced. -/
def dwordInto (old : W64) (off : Nat) (v : W64) : W64 := if off % 8 < 4 then setField old 0 32 (v.toNat % 2 ^ 32) else setField old 32 32 (v.toNat % 2 ^ 32)

/-- REGISTER_WRITE (R6, R470, R472): an aligned word of the control window, or, where its length of 4 bytes is given, a DWORD of it. [Assumption 59: PRESUMED.] [Assumption 65: DESIGN CHOICE.] -/
def execRegisterWrite (s : State) : Host.Outcome State Fault Refusal :=
  let m := s.ev.node
  let off := s.ev.id / 8 * 8
  let v := if s.ev.arg = 4 then dwordInto (BitVec.ofNat 64 (s.bar0 m off)) s.ev.id s.ev.word else s.ev.word
  if !s.reaches m off then .next s
  else if off = 8 then .next { s with wbase := SMap.set s.wbase (portOf m) (v &&& 0xFFF000000000) }
  else if 0x1000 ≤ off ∧ off < 0x1100 then .next (s.modMaster m fun x => { x with request := x.request.set ((off - 0x1000) / 8) v })
  else if 0x8000 ≤ off ∧ off < 0x10000 then
    let w := (off - 0x8000) / 8
    .next (({ s with msix := SMap.setD s.msix (msixReset w) (portOf m * 4096 + w) v } : State).flushMsix (portOf m) (w / 2))
  else .next s

/-! ### BAR4 (R472) -/

def State.windowPa (s : State) (m off : Nat) : Nat := (SMap.get s.wbase 0 (portOf m)).toNat + off

/-- R469: the bytes of BAR4. -/
def bar4Size : Nat := 2 ^ 36

/-- R472: the bytes a host read of the window returns; nothing for a poisoned completion (R420). -/
def State.windowRead (s : State) (m off n : Nat) : Option (List Byte) :=
  let pa := s.windowPa m off
  if s.phase ≠ 5 then some (List.replicate n 0)
  else
    let parts := (List.range n).map fun i => if windowReaches (pa + i) then s.physRead (pa + i) 1 else some [0]
    if parts.all Option.isSome then some (parts.flatMap fun p => p.getD []) else none

/-- R142: a word of the queue apertures: `QSTAT` at 0x040, and 0 elsewhere. -/
def State.bar2 (s : State) (off : Nat) : Nat :=
  match s.aperture off with
  | some (ctx, q) => if off % 0x1000 / 8 = 8 then (s.ctx ctx).qstat ((s.ctx ctx).launchQs.getD q LaunchQ.reset) else 0
  | none => 0

/-- The n bytes from an offset of a space of 8-byte words. -/
def readWords (word : Nat → Nat) (off n : Nat) : List Byte :=
  (((List.range ((off % 8 + n + 7) / 8)).flatMap fun i => leBytes 8 (word (off / 8 * 8 + 8 * i))).drop (off % 8)).take n

/-- HOST_MEMORY_READ (R142, R143, R470-R472): a read of a BAR: its number, offset and length; its completion is kept for the host. [Assumption 65: DESIGN CHOICE.] -/
def execHostMemoryRead (s : State) : Host.Outcome State Fault Refusal :=
  let o := s.ev
  let m := o.node
  let n := o.word.toNat
  let data : Option (List Byte) := match o.arg with
    | 0 => if s.reaches m o.id then some (readWords (fun a => if s.reaches m a then s.bar0 m a else 0) o.id n) else none
    | 2 => if m < 2 then some (readWords s.bar2 o.id n) else none
    | _ => if m < 2 ∧ o.id + n ≤ bar4Size then s.windowRead m o.id n else none
  if s.masterPresent m then .next { s with completions := s.completions ++ [(m, data)] } else .next s

/-- HOST_MEMORY_WRITE (R469, R472): the owner's writes, run by run of the addresses the window may reach. [Assumption 25: DEDUCED.] [Assumption 65: DESIGN CHOICE.] -/
def execHostMemoryWrite (s : State) : Host.Outcome State Fault Refusal :=
  let o := s.ev
  let pa := s.windowPa o.node o.id
  if s.phase ≠ 5 ∨ !s.isOwner o.node ∨ !s.windowMaster o.node ∨ bar4Size < o.id + o.bytes.length then .next s
  else .next (s.outsideWrite pa o.bytes)

/-! ### Queues and pages (R138, R403, R408, R414) -/

/-- R386: a context number. -/
def ctxNumber (n : Nat) : Bool := decide (1 ≤ n) && decide (n < 4096)

/-- A context that a command may act on. -/
def State.liveCtx (s : State) (n : Nat) : Bool := decide ((s.ctx n).st ≠ .none) && decide ((s.ctx n).st ≠ .destroyed)

/-- QUEUE_PAUSE (R138). -/
def execQueuePause (s : State) : Host.Outcome State Fault Refusal :=
  s.command .queuePause true [mask64, mask64] fun c s =>
    if !ctxNumber (c.arg 1) then s.finish 4 0 []
    else if !s.liveCtx (c.arg 1) then s.finish 3 0 []
    else if 2 ^ (s.ctx (c.arg 1)).launchQs.length ≤ c.arg 2 then s.finish 4 0 []
    else (s.modCtx (c.arg 1) fun x => { x with launchQs := x.launchQs.mapIdx fun i q => if (c.arg 2).testBit i then { q with fw := true } else q }).finish 0 0 []

/-- QUEUE_RESUME (R138). -/
def execQueueResume (s : State) : Host.Outcome State Fault Refusal :=
  s.command .queueResume true [mask64, mask64] fun c s =>
    if !ctxNumber (c.arg 1) then s.finish 4 0 []
    else if !s.liveCtx (c.arg 1) then s.finish 3 0 []
    else if 2 ^ (s.ctx (c.arg 1)).launchQs.length ≤ c.arg 2 then s.finish 4 0 []
    else ((s.modCtx (c.arg 1) fun x => { x with launchQs := x.launchQs.mapIdx fun i q => if (c.arg 2).testBit i then { q with fw := false } else q }).wakeCtx (c.arg 1)).finish 0 0 []

/-- PT_ROOT (R403, R404): a 4 KiB aligned table in usable HBM. -/
def execPtRoot (s : State) : Host.Outcome State Fault Refusal :=
  s.command .ptRoot true [mask64, mask64] fun c s =>
    if !ctxNumber (c.arg 1) ∨ c.arg 2 % 4096 ≠ 0 ∨ !isUsableHbm (c.arg 2) then s.finish 4 0 []
    else if !s.liveCtx (c.arg 1) then s.finish 3 0 []
    else ((s.modCtx (c.arg 1) fun x => { x with root := c.arg 2 }).resetRings (c.arg 1)).finish 0 0 []

/-- TLB_SHOOTDOWN (R408): its result comes once every die has dropped the pages. -/
def execTlbShootdown (s : State) : Host.Outcome State Fault Refusal :=
  s.command .tlbShootdown true [mask64, mask64, mask64] fun c s =>
    if !ctxNumber (c.arg 1) ∨ 2 ^ 52 ≤ c.arg 2 ∨ 2 ^ 36 < c.arg 3 then s.finish 4 0 []
    else if !s.liveCtx (c.arg 1) then s.finish 3 0 []
    else s.later 81 .shootdownComplete { Operand.zero with node := c.master, id := c.arg 1, word := BitVec.ofNat 64 (c.arg 2), arg := c.arg 3 }

/-- SHOOTDOWN_COMPLETE (R408): every die has dropped the pages; none given means all of the context. -/
def execShootdownComplete (s : State) : Host.Outcome State Fault Refusal :=
  let o := s.ev
  let lo := o.word.toNat
  let hit (e : TlbEntry) : Bool := decide (e.ctx = o.id) && (decide (o.arg = 0) || (decide (e.va < lo + o.arg * 2 ^ 16) && decide (lo < e.va + e.size)))
  let s := { s with tlb := s.tlb.filter fun e => !hit e }
  .next (s.finishHeld (fun c => decide (c.opcode = 0x0031) && decide (c.master = o.node)) 0 0 [])

/-- PAGE_MIGRATE (R414): a live page begins to drain; its result comes when it is live again. -/
def execPageMigrate (s : State) : Host.Outcome State Fault Refusal :=
  s.command .pageMigrate true [mask64, mask64, mask64] fun c s =>
    if !ctxNumber (c.arg 1) ∨ 2 ^ 52 ≤ c.arg 2 ∨ 2 ^ 32 ≤ c.arg 3 then s.finish 4 0 []
    else if !s.liveCtx (c.arg 1) then s.finish 3 0 []
    else match s.pageWalk (c.arg 1) (c.arg 2) with
      | none => s.finish 3 0 []
      | some (leaf, w, level) =>
        let size := levelSize level
        let pa := c.arg 3 * 2 ^ 16
        if leafDS w ≠ 0 ∨ leafMig w ≠ 0 ∨ (s.jobOf leaf).isSome then s.finish 5 0 []
        else if !frameOk (c.arg 3) size ∨ pa % size ≠ 0 ∨ (leafP w ∧ !(homeDie pa = 0 ∧ isUsableHbm pa)) then s.finish 4 0 []
        else
          let (i, s) := (s.writeLeaf leaf (setField w 56 3 1)).newId
          (({ s with pageJobs := SMap.set s.pageJobs i ⟨.drain, c.arg 1, c.arg 2 / size * size, leaf, size, c.arg 3, decide (hostBase ≤ pa), some c.master⟩ } : State).dropTlb leaf).later
            23 .migrationCopyStart (opId i)

/-- MIGRATION_COPY_DONE (R414, R416): the new STABLE entry, TLBs without the page, held writes resumed. -/
def execMigrationCopyDone (s : State) : Host.Outcome State Fault Refusal :=
  match SMap.lookup s.pageJobs s.ev.id with
  | some ⟨.copy, _, _, leaf, size, frame, host, cmd⟩ =>
    let w := s.leafWord leaf
    let old := leafFrame w * 2 ^ 16
    let s := (pageCopies w).foldl (fun s d => s.copyPage (old + d) (frame * 2 ^ 16 + d) (leafC w) (size / lineSize)) s
    let w' := setField (setField (setField w 56 3 0) 16 32 frame) 11 1 (if host then 1 else 0)
    let s := ({ s with pageJobs := SMap.erase s.pageJobs s.ev.id }.writeLeaf leaf w').dropTlb leaf |>.releaseHeld leaf
    .next (s.finishHeld (fun c => decide (c.opcode = 0x0032) && decide (some c.master = cmd)) 0 0 [])
  | _ => .next s

/-- PAGE_RECLAIM (R414): an unpinned discarded page; its frame is free once requests to it are performed. [Assumption 56: DEDUCED.] -/
def execPageReclaim (s : State) : Host.Outcome State Fault Refusal :=
  s.command .pageReclaim true [mask64, mask64] fun c s =>
    if !ctxNumber (c.arg 1) ∨ 2 ^ 52 ≤ c.arg 2 then s.finish 4 0 []
    else if !s.liveCtx (c.arg 1) then s.finish 3 0 []
    else match s.pageWalk (c.arg 1) (c.arg 2) with
      | none => s.finish 3 0 []
      | some (leaf, w, level) =>
        if SMap.get s.pins 0 leaf ≠ 0 then s.finish 5 0 []
        else if leafDS w ≠ 1 then s.finish 3 0 []
        else
          let size := levelSize level
          let (i, s) := (s.writeLeaf leaf (setField w 4 2 2)).newId
          ((({ s with pageJobs := SMap.set s.pageJobs i ⟨.reclaim, c.arg 1, c.arg 2 / size * size, leaf, size, 0, false, none⟩ } : State).dropTlb leaf).later
            22 .reclaimDone (opId i)).finish 0 0 []

/-- RAW_READ (R421). -/
def execRawRead (s : State) : Host.Outcome State Fault Refusal :=
  s.command .rawRead true [mask64] fun c s =>
    let pa := c.arg 1
    match physKind pa with
    | .hbm _ =>
      if pa % lineSize ≠ 0 then s.finish 4 0 []
      else s.finish 0 0 (s.tagOf (pa / lineSize) :: (List.range 16).map fun k => leNat (memRead s.mem (pa + 8 * k) 8))
    | _ => s.finish 4 0 []

/-! ### Sensors, counters and events (R451, R465, R477) -/

/-- SENSOR_READ (R465). [Assumption 60: DEDUCED.] -/
def execSensorRead (s : State) : Host.Outcome State Fault Refusal :=
  s.command .sensorRead false [mask64] fun c s =>
    if 32 ≤ c.arg 1 then s.finish 4 0 []
    else
      let k := s.cluster (c.arg 1)
      let marks := (k.sensors.map fun x => if x.suspect then 1 else 0) ++ [if k.forced then 1 else 0]
      s.finish 0 0 ((k.sensors.map fun x => (Config.sensorWord x.raw).toNat) ++ [(Config.markWord marks).toNat])

/-- EVENT_READ (R477): the oldest unread entry, or zeros. [Assumption 60: DEDUCED.] -/
def execEventRead (s : State) : Host.Outcome State Fault Refusal :=
  s.command .eventRead false [] fun _ s => match s.log with
    | [] => s.finish 0 0 [0, 0, 0, 0]
    | e :: rest => ({ s with log := rest } : State).finish 0 0 ((List.range 4).map fun k => (Config.eventWord (e.kind :: e.tick :: e.data) k).toNat)

/-! ### Links (R445) -/

/-- A link-control command on a link that exists. -/
def State.linkCommand (s : State) (i : Instr) (params : Nat) (body : Nat → Command → State → State) : Host.Outcome State Fault Refusal :=
  s.command i true [mask64, mask64, params] fun c s =>
    match canonicalLink (c.arg 1) with
    | none => s.finish 4 0 []
    | some id => if 5 < c.arg 2 then s.finish 4 0 [] else body id c s

/-- LINK_TRAIN (R445): a DOWN link trains. [Assumption 58: DEDUCED.] -/
def execLinkTrain (s : State) : Host.Outcome State Fault Refusal :=
  s.linkCommand .linkTrain 0 fun id _ s => if (s.link id).st = .down then ((s.setLink id .training).train id).finish 0 0 [] else s.finish 3 0 []

/-- LINK_RETRAIN (R445): a FENCED link trains; its traffic stays in the tunnel meanwhile. [Assumption 58: DEDUCED.] -/
def execLinkRetrain (s : State) : Host.Outcome State Fault Refusal :=
  s.linkCommand .linkRetrain 0 fun id _ s => if (s.link id).st = .fenced then ((s.setLink id .training).train id).finish 0 0 [] else s.finish 3 0 []

/-- LINK_RETRAIN_LANE_RESET (R444, R445). [Assumption 58: DEDUCED.] -/
def execLinkRetrainLaneReset (s : State) : Host.Outcome State Fault Refusal :=
  s.linkCommand .linkRetrainLaneReset 0 fun id _ s =>
    if (s.link id).st = .fenced then
      (((s.modLink id fun l => { l with spares := [4, 4], halves := [none, none], failing := [] }).setLink id .training).train id).finish 0 0 []
    else s.finish 3 0 []

/-- LINK_DRAIN (R445): a state change that R445's table does not mark as an event. -/
def execLinkDrain (s : State) : Host.Outcome State Fault Refusal :=
  s.linkCommand .linkDrain 0 fun id _ s =>
    if linkIsY id ∨ !(s.link id).carries then s.finish 3 0 [] else ((s.setLink id .draining).checkDrain id).finish 0 0 []

/-- LINK_SET_RWIN_RTHR (R445): bits 31-0 give the window, bits 63-32 the threshold. [Assumption 35: DESIGN CHOICE.] -/
def execLinkSetRwinRthr (s : State) : Host.Outcome State Fault Refusal :=
  s.linkCommand .linkSetRwinRthr mask64 fun id c s =>
    let rwin := c.arg 3 % 2 ^ 32
    let rthr := c.arg 3 / 2 ^ 32
    if !((List.range 11).any fun k => decide (rwin = 2 ^ (16 + k))) ∨ rthr = 0 ∨ 1024 < rthr then s.finish 4 0 []
    else (s.modLink id fun l => { l with rwin := rwin, rthr := rthr }).finish 0 0 []

/-- LINK_EVENT_MSIX_ENABLE (R451): bit 11 enables the vector of bits 10-0. [Assumption 35: DESIGN CHOICE.] -/
def execLinkEventMsixEnable (s : State) : Host.Outcome State Fault Refusal :=
  s.linkCommand .linkEventMsixEnable 0xFFF fun id c s =>
    (s.modLink id fun l => { l with msix := if (c.arg 3).testBit 11 then some (c.arg 3 % 2048) else none, cmdFrom := some c.master }).finish 0 0 []

end Sys2Proof.Machine
end

