-- ==== Sys2Proof/Machine/Firmware.lean ====
section
/-! DEFINITION. Commands of the firmware on contexts' kernels and status (R113, R115, R119, R401, R451, R477), on the creation of contexts
(R386, R387), and on identity and attestation (R479, R480). -/

namespace Sys2Proof.Machine

/-! ### Status and counters -/

/-- R390: a context's state by its place in the table. -/
def CtxState.index : CtxState → Nat
  | .none => 0 | .created => 1 | .bound => 2 | .running => 3 | .frozen => 4 | .evicted => 5 | .destroyed => 6

/-- STATUS (R477): the context's state, whether it is stalled by a full ring (R148), the launches completed since the last STATUS, and the last Mordant error reported to no strand. -/
def execStatus (s : State) : Host.Outcome State Fault Refusal :=
  s.command .status false [mask64] fun c s =>
    let n := c.arg 1
    if !ctxNumber n then s.finish 4 0 []
    else
      let x := s.ctx n
      let s := if x.st = .none then s else s.modCtx n fun x => { x with done := 0 }
      s.finish 0 0 [(Config.ctxStateWord x.st.index !x.held.isEmpty).toNat, x.done, x.lastErr.1, x.lastErr.2]

/-- R451: the counters of one end of a link brought up to the tick, then one of them read and cleared. [Assumption 58: DEDUCED.] -/
def State.readLinkCounter (s : State) (id end_ k : Nat) : Nat × State :=
  let l := s.link id
  let away := if l.st = .up then 0 else s.tick - l.since
  let s := ((s.countLink id 0 5 away).countLink id 1 5 away).modLink id fun l => { l with since := s.tick }
  let v := (((s.link id).counts.getD end_ []).getD k 0)
  (v, s.modLink id fun l => { l with counts := l.counts.modify end_ fun c => c.set k 0 })

/-- COUNTER_READ (R401, R451): kind 0 reads the energy account of a context, 0 for the module's idle account; kind 1 a counter of a link end. [Assumption 51: DEDUCED.] [Assumption 58: DEDUCED.] -/
def execCounterRead (s : State) : Host.Outcome State Fault Refusal :=
  s.command .counterRead false [mask64, mask64, mask64] fun c s =>
    let n := c.arg 2
    match c.arg 1 with
    | 0 =>
      if 4096 ≤ n then s.finish 4 0 []
      else
        let a := SMap.get s.energy (0, 0) n
        s.finish 0 0 [a.1 % 2 ^ 64, a.2 % 2 ^ 64]
    | 1 =>
      match canonicalLink n with
      | none => s.finish 4 0 []
      | some id =>
        if 8 ≤ c.arg 3 then s.finish 4 0 []
        else
          let r := s.readLinkCounter id (if id = n then 0 else 1) (c.arg 3)
          r.2.finish 0 0 [r.1]
    | _ => s.finish 4 0 []

/-! ### Contexts (R386, R387) -/

/-- R386, R387: a context as it is created. -/
def newCtx (cpri nq qcap fcap pcap ring pool count spill aging : Nat) : Ctx :=
  { Ctx.none with
    st := .created, cpri := cpri, qcap := qcap, fcap := fcap, pcap := pcap, ringBase := ring, poolBase := pool, poolCount := count,
    spillBase := spill, aging := aging, launchQs := List.replicate nq LaunchQ.reset }

/-- R387: the launch rings' entries, the fault ring and the park ring, with their control blocks: the size of a ring area. -/
def ringAreaSize (nq qcap fcap pcap : Nat) : Nat := nq * 64 * 2 ^ qcap + 64 + 16 * 2 ^ fcap + 64 + 16 * 2 ^ pcap

/-- CTX_CREATE (R386, R387, R390, R402). [Assumption 51: DEDUCED.] [Assumption 54: DESIGN CHOICE.] -/
def execCtxCreate (s : State) : Host.Outcome State Fault Refusal :=
  s.command .ctxCreate true [0x7FFF, 0x1F3F, 0x1F1F, mask64, mask64, mask64, mask64, mask64] fun c s =>
    let n := bitsAt (c.arg 1) 0 12
    let nq := bitsAt (c.arg 2) 0 6 + 1
    let qcap := bitsAt (c.arg 2) 8 5
    let fcap := bitsAt (c.arg 3) 0 5
    let pcap := bitsAt (c.arg 3) 8 5
    let aging := if c.arg 8 = 0 then 20 else c.arg 8
    let cap (k : Nat) : Bool := decide (6 ≤ k) && decide (k ≤ 16)
    if !ctxNumber n || !cap qcap || !cap fcap || !cap pcap || decide (c.arg 4 % 2 ^ 16 ≠ 0) || decide (2 ^ 52 < c.arg 4 + ringAreaSize nq qcap fcap pcap)
        || decide (c.arg 5 % 64 ≠ 0) || decide (c.arg 6 = 0) || decide (2 ^ 24 < c.arg 6) || decide (2 ^ 52 < c.arg 5 + 64 * c.arg 6)
        || decide (2 ^ 52 < c.arg 7 + 0x4000 * (2 ^ fcap + 2 ^ pcap)) || decide (aging < 12) || decide (30 < aging) then s.finish 4 0 []
    else if s.liveCtx n then s.finish 3 0 []
    else if s.pkts.any fun p => decide (p.2.ctx = n) then s.finish 5 0 []
    else
      let x := newCtx (bitsAt (c.arg 1) 12 3) nq qcap fcap pcap (c.arg 4) (c.arg 5) (c.arg 6) (c.arg 7) aging
      ({ s with ctxs := SMap.set s.ctxs n x, energy := SMap.erase s.energy n } : State).finish 0 0 []

/-! ### Kernels (R112-R119) -/

/-- R113: the F fields of the command, and `RSTR` lowered, written into a header. -/
def stampHeader (bs : List Byte) (arg : Nat) : List Byte :=
  let w3 := wordAt bs 3
  let w3 := putBits w3 42 3 (min (bitsAt w3 42 3) (bitsAt arg 32 3))
  let w3 := putBits (putBits (putBits w3 40 2 (bitsAt arg 4 2)) 37 3 (bitsAt arg 0 3)) 8 8 (bitsAt arg 8 8)
  let w5 := putBits (putBits (wordAt bs 5) 31 1 (bitsAt arg 16 1)) 0 11 (bitsAt arg 20 11)
  setWord (setWord bs 3 w3) 5 w5

/-- R112: a launch header. -/
def headerOf (bs : List Byte) : KHeader :=
  let w (i : Nat) : Nat := wordAt bs i
  { nbun := bitsAt (w 0) 16 13, kslot := bitsAt (w 0) 0 16, nf := bitsAt (w 1) 61 3, gang := bitsAt (w 1) 58 3
    place := (List.range 6).map fun n => bitsAt (w 1) (42 + 2 * n) 2
    widths := (List.range (bitsAt (w 1) 61 3)).map fun n => bitsAt (w 1) (7 * n) 7
    base := w 2, tv := (w 3).testBit 63, trapv := bitsAt (w 3) 48 12, res := (w 3).testBit 47, caps := (w 3).testBit 46, ft := (w 3).testBit 45
    rstr := bitsAt (w 3) 42 3, boost := bitsAt (w 3) 40 2, prio := bitsAt (w 3) 37 3, cid := bitsAt (w 3) 8 8
    dlen := bitsAt (w 4) 32 32, nslt := bitsAt (w 4) 0 6, msie := (w 5).testBit 31, msiv := bitsAt (w 5) 0 11 }

/-- R115, code 2: a bit of the header that must be 0. -/
def headerReserved (bs : List Byte) : Bool :=
  let f (i lo n : Nat) : Bool := decide (bitsAt (wordAt bs i) lo n ≠ 0)
  f 0 29 11 || f 1 54 4 || f 3 60 3 || f 3 16 21 || f 3 0 8 || f 4 6 26 || f 5 32 32 || f 5 11 20 || (List.range 10).any fun i => f (6 + i) 0 64

/-- R114, R115, code 2: reserved bits of the extent templates and the handler table, by the image's first 4 KiB. -/
def templatesReserved (page : List Byte) : Bool :=
  ((List.range 8).any fun i =>
    let lo := wordAt page (16 + 2 * i)
    let hi := wordAt page (17 + 2 * i)
    decide (bitsAt lo 52 12 ≠ 0) || decide (bitsAt hi 32 8 ≠ 0) || decide (bitsAt hi 42 22 ≠ 0))
  || (List.range 256).any fun i => decide (bitsAt (fieldOf page (0x180 + 2 * i) 2) 12 3 ≠ 0)

/-- R112, R115, code 3: the fields of the work identifier. -/
def widthsBad (bs : List Byte) : Bool :=
  let nf := bitsAt (wordAt bs 1) 61 3
  let ws := (List.range 6).map fun n => bitsAt (wordAt bs 1) (7 * n) 7
  decide (nf = 0) || decide (6 < nf) || ((ws.take nf).any fun w => decide (w = 0)) || ((ws.drop nf).any fun w => decide (w ≠ 0)) || decide (64 < ws.sum)

/-- R115, codes 1 to 7: the first check that an image's first 4 KiB fails; 0 when it passes them. [Assumption 51: DEDUCED.] -/
def headerRefusal (page : List Byte) : Nat :=
  let h := headerOf page
  if bitsAt (wordAt page 0) 48 16 ≠ 0x5637 ∨ bitsAt (wordAt page 0) 40 8 ≠ 1 then 1
  else if headerReserved page || templatesReserved page then 2
  else if widthsBad page then 3
  else if h.gang ≠ 7 ∧ h.nf ≤ h.gang then 4
  else if h.nbun = 0 ∨ 4096 < h.nbun ∨ 32 < h.nslt ∨ h.boost = 3 then 5
  else if h.caps ∧ h.rstr = 7 then 6
  else if (h.tv ∧ h.nbun ≤ h.trapv) ∨ ((List.range 256).any fun i =>
      let e := fieldOf page (0x180 + 2 * i) 2
      e.testBit 15 && decide (h.nbun ≤ e % 4096)) then 7
  else 0

/-- R274: the load checks of a slate. -/
def slateOk (bs : List Byte) : Bool :=
  let byte (i : Nat) : Nat := fieldOf bs (0x40 + i) 1
  let dir (n : Nat) : Nat := bitsAt (wordAt bs (0x20 + 8 * n)) 61 3
  let feeds (d : Nat) : Bool := decide (d = 5) || decide (d = 6)
  let src (n : Nat) : Bool := decide (nodeKind n = .convert) || (nodeKind n).ring || (decide (48 ≤ n) && decide (n < 52) && ([1, 3, 5, 6] : List Nat).contains (dir n))
  let routes := (List.range 17).map byte
  decide (bitsAt (wordAt bs 0) 40 24 = 0x534C01) && decide (bitsAt (wordAt bs 0) 0 40 = 0) && (routes.all fun b => decide (bitsAt b 6 1 = 0))
    && (routes.all fun b => !b.testBit 7 || src (b % 64))
    && ((List.range 4).all fun k => !(byte (12 + k)).testBit 7 || decide (dir (48 + k) = 2) || decide (dir (48 + k) = 4))
    && (!(byte 16).testBit 7 || (decide (48 ≤ byte 16 % 64) && feeds (dir (byte 16 % 64))))
    && decide (((List.range 4).filter fun k => feeds (dir (48 + k))).length ≤ 1)
    && (List.range 52).all fun n => decide ((routes.filter fun b => b.testBit 7 && decide (b % 64 = n)).length ≤ 4)

/-- R111: the bytes of an image. -/
def KHeader.imageSize (h : KHeader) : Nat := (0x1000 + h.nslt * 0x1000 + h.nbun * 24 + 63) / 64 * 64 + h.dlen

/-- Bytes of a context's memory in chunks of one 4 KiB page; what cannot be read counts as zero. -/
def State.imageBytes (s : State) (ctx va n : Nat) : List Byte :=
  ((List.range ((n + 4095) / 4096)).flatMap fun i => (s.ctxRead ctx (va + 4096 * i) 4096).getD (List.replicate 4096 0)).take n

/-- R115, R480: the measurement of an image, `BASE` and `KSLOT` taken as 0. [Assumption 51: DEDUCED.] -/
def imageDigest (bs : List Byte) : List Byte :=
  sha384 (List.replicate 2 0 ++ (bs.drop 2).take 14 ++ List.replicate 8 0 ++ bs.drop 24)

/-- R115, code 9: the lowest free kernel slot. -/
def Ctx.freeKernel (c : Ctx) : Option Nat := (List.range 256).find? fun i => (SMap.lookup c.kernels i).isNone

/-- KERNEL_INSTALL (R113, R115, R119). [Assumption 51: DEDUCED.] -/
def execKernelInstall (s : State) : Host.Outcome State Fault Refusal :=
  s.command .kernelInstall true [mask64, mask64, 0x7_7FF1_FF37] fun c s =>
    let n := c.arg 1
    let va := c.arg 2
    if !ctxNumber n ∨ va % 4096 ≠ 0 ∨ 2 ^ 52 ≤ va then s.finish 4 0 []
    else if !s.liveCtx n then s.finish 3 0 []
    else match s.ctxRead n va 4096 with
      | none => s.finish 7 1 []
      | some raw =>
        let page := stampHeader raw (c.arg 3)
        let s := s.ctxWrite n va (page.take 128)
        let code := headerRefusal page
        let h := headerOf page
        if code ≠ 0 then s.finish 7 code []
        else if (List.range h.nslt).any fun i => !slateOk (s.imageBytes n (va + 0x1000 * (i + 1)) 0x1000) then s.finish 7 8 []
        else match (s.ctx n).freeKernel with
          | none => s.finish 7 9 []
          | some slot =>
            let w0 := putBits (wordAt page 0) 0 16 slot
            let s := s.ctxWrite n va (setWord (setWord (page.take 128) 0 w0) 2 va)
            let (i, s) := s.newId
            let k : Kernel := { va := va, hdr := { h with kslot := slot, base := va }, st := .installed, live := 0, order := i,
                                digest := imageDigest (s.imageBytes n va h.imageSize), master := c.master }
            (s.modCtx n fun x => { x with kernels := SMap.set x.kernels slot k }).finish 0 0 [slot]

/-- R119: tiles that hold a segment drop it. [Assumption 44: DEDUCED.] -/
def State.dropSegment (s : State) (ctx slot : Nat) : State :=
  { s with tiles := s.tiles.map fun p => (p.1, match p.2.kernel with
      | some (c, h) => if c = ctx ∧ h.kslot = slot then { p.2 with kernel := none, code := [], nbun := 0, handlers := [] } else p.2
      | none => p.2) }

/-- KERNEL_REMOVE (R119, R477). -/
def execKernelRemove (s : State) : Host.Outcome State Fault Refusal :=
  s.command .kernelRemove true [mask64, mask64] fun c s =>
    let n := c.arg 1
    if !ctxNumber n ∨ 256 ≤ c.arg 2 then s.finish 4 0 []
    else match SMap.lookup (s.ctx n).kernels (c.arg 2) with
      | none => s.finish 3 0 []
      | some k =>
        if k.st ≠ .installed then s.finish 5 0 []
        else ((s.modCtx n fun x => { x with kernels := SMap.erase x.kernels (c.arg 2) }).dropSegment n (c.arg 2)).finish 0 0 []

/-! ### Identity and attestation (R479, R480) -/

/-- Bytes brought to a length. -/
def fitBytes (n : Nat) (bs : List Byte) : List Byte := (bs ++ List.replicate n 0).take n

/-- A kernel put in the order of installs. -/
def insertKernel (k : Nat × Nat × Kernel) : List (Nat × Nat × Kernel) → List (Nat × Nat × Kernel)
  | [] => [k]
  | q :: r => if k.2.2.order < q.2.2.order then k :: q :: r else q :: insertKernel k r

/-- The installed kernels of every context, with context and slot, in install order. -/
def State.installedKernels (s : State) : List (Nat × Nat × Kernel) :=
  (s.ctxs.flatMap fun p => p.2.kernels.map fun q => (p.1, q.1, q.2)).foldl (fun acc k => insertKernel k acc) []

/-- R480: the attestation report, signed with the fused key. -/
def State.attestReport (s : State) (nonce : List Byte) : List Byte :=
  let ks := s.installedKernels
  let n := ks.length
  let body := leBytes 2 0x4154 ++ leBytes 2 1 ++ leBytes 4 (176 + 64 * n + 96) ++ nonce ++ fitBytes 48 Config.romHash ++ fitBytes 48 Config.fuseHash
    ++ leBytes 8 s.tick ++ leBytes 4 n ++ List.replicate 12 0
    ++ ks.flatMap fun k => leBytes 2 k.1 ++ leBytes 2 k.2.1 ++ List.replicate 12 0 ++ fitBytes 48 k.2.2.digest
  let sig := ecdsaSign Config.privateKey (beNat (sha384 body)) ((List.range 2).map fun i => Config.signingNonce (s.fresh + i))
  body ++ (beBytes 48 sig.1 ++ beBytes 48 sig.2)

/-- ATTEST (R480): the report replaces the master's output buffer. -/
def execAttest (s : State) : Host.Outcome State Fault Refusal :=
  s.command .attest false (List.replicate 6 mask64) fun c s =>
    let r := s.attestReport ((List.range 6).flatMap fun i => leBytes 8 (c.arg (i + 1)))
    (({ s with fresh := s.fresh + 2 } : State).modMaster c.master fun m => { m with output := r }).finish 0 0 [r.length]

/-- IDENTITY_CERT (R479). -/
def execIdentityCert (s : State) : Host.Outcome State Fault Refusal :=
  s.command .identityCert false [] fun c s =>
    (s.modMaster c.master fun m => { m with output := Config.certificate }).finish 0 0 [Config.certificate.length]

/-- OUTPUT_READ (R477, R480): up to 240 bytes of the output buffer from an offset. -/
def execOutputRead (s : State) : Host.Outcome State Fault Refusal :=
  s.command .outputRead false [mask64] fun c s =>
    let bs := ((s.master c.master).output.drop (c.arg 1)).take 240
    s.finish 0 0 (bs.length :: (List.range 30).map fun i => leNat ((bs.drop (8 * i)).take 8))

end Sys2Proof.Machine
end

