-- ==== Sys2Proof/Machine/Dealer.lean ====
section
/-! DEFINITION. The dispatchers: launches and their generators (R119-R121, R139-R141), placement (R127, R128), gangs (R129-R133), pinning
(R151, R410) and the choice of what runs next (R149). -/

namespace Sys2Proof.Machine

/-! ### Gang groups and ranges (R125, R140) -/

/-- R124: the kernel's groups at a level are gangs. [Assumption 46: DEDUCED.] -/
def KHeader.isGang (h : KHeader) : Bool := decide (h.gang < h.nf) && !h.res

/-- R125: the size of the largest gang group of a range. -/
def KHeader.largestGang (h : KHeader) (first last : Nat) : Nat :=
  let b := 2 ^ (64 - (h.widths.take (h.gang + 1)).sum)
  if first / b = last / b then (last - first) / h.inc + 1
  else max (max ((b - first % b) / h.inc) (last % b / h.inc + 1)) (if first / b + 1 < last / b then b / h.inc else 0)

/-- R140: the identifier after one, while the range holds it. -/
def nextWid (inc last wid : Nat) : Option Nat := if wid + inc ≤ last ∧ wid + inc < 2 ^ 64 then some (wid + inc) else none

/-! ### Kernels (R115, R119) -/

def State.modKernel (s : State) (ctx kslot : Nat) (f : Kernel → Kernel) : State :=
  s.modCtx ctx fun c => match c.kernel kslot with
    | some k => { c with kernels := SMap.set c.kernels kslot (f k) }
    | none => c

/-- R119: RUNNING becomes DRAINING once every live launch's generator is exhausted. -/
def State.drainKernel (s : State) (ctx kslot : Nat) : State :=
  if s.launches.any fun p => decide (p.2.ctx = ctx) && decide (p.2.kslot = kslot) && p.2.gen then s
  else s.modKernel ctx kslot fun k => if k.st = .running then { k with st := .draining } else k

/-- R119: a launch's generator has no more to create. -/
def State.exhaust (s : State) (id : Nat) : State :=
  match s.launch id with
  | some l => ((s.modLaunch id fun l => { l with gen := false }).drainKernel l.ctx l.kslot).checkLaunch id
  | none => s

/-! ### Launch records (R119, R139-R141) -/

/-- R141: why a launch record is refused. -/
def State.launchRefusal (s : State) (ctx : Nat) (bs : List Byte) : Option Nat :=
  let w := wordAt bs 0
  let c := s.ctx ctx
  if bitsAt w 61 3 ≠ 0 ∨ bitsAt w 28 3 ≠ 0 ∨ bitsAt (wordAt bs 3) 0 16 ≠ 0 then some 1
  else match c.kernel (bitsAt w 0 16) with
    | none => some 2
    | some k =>
      let first := wordAt bs 1 / k.hdr.inc * k.hdr.inc
      let last := wordAt bs 2 / k.hdr.inc * k.hdr.inc
      let xl := bitsAt (wordAt bs 3) 16 48 * 64
      if k.hdr.isGang ∧ first ≤ last ∧ (k.hdr.rstr + 1) * c.tiles.length < k.hdr.largestGang first last then some 3
      else if xl ≠ 0 ∧ (s.imageRead c.home ctx xl .read 2 128).fails then some 4
      else none

/-- The launch that an accepted record opens. -/
def launchOf (ctx : Nat) (k : Kernel) (bs : List Byte) : Launch :=
  let w := wordAt bs 0
  let first := wordAt bs 1 / k.hdr.inc * k.hdr.inc
  let last := wordAt bs 2 / k.hdr.inc * k.hdr.inc
  let full := decide (first ≤ last)
  { ctx := ctx, kslot := bitsAt w 0 16, prio := if bitsAt w 60 1 = 1 then k.hdr.prio else bitsAt w 57 3, nc := bitsAt w 55 2
    entry := bitsAt w 16 12, xl := bitsAt (wordAt bs 3) 16 48 * 64
    c := (List.range 4).map fun j => if j ≤ bitsAt w 55 2 then wordAt bs (4 + j) else 0
    cell := if bitsAt w 54 1 = 1 then some (syncBase (bitsAt w 51 3) + bitsAt w 31 20 * 16) else none
    last := last, inc := k.hdr.inc, next := if full then some first else none, made := 0, recs := 0, exits := 0, choices := []
    counted := full, gen := full }

/-- The head of a launch queue taken off. -/
def State.popLaunch (s : State) (ctx q : Nat) : State :=
  s.modCtx ctx fun c => { c with launchQs := c.launchQs.modify q fun l => { l with cidx := l.cidx + 1 } }

/-- LAUNCH_DEQUEUE (R119, R138, R141): the head of an open launch queue opens a generator, or is refused. [Assumption 47: DEDUCED.] -/
def execLaunchDequeue (s : State) : Host.Outcome State Fault Refusal :=
  let ctx := s.ev.node
  let q := s.ev.arg
  let c := s.ctx ctx
  let lq := c.launchQs.getD q LaunchQ.reset
  if c.paused || lq.fw || decide (lq.pidx ≤ lq.cidx) then .next s
  else
    let bs := (s.ctxRead ctx (c.launchBase q + 64 * (lq.cidx % 2 ^ c.qcap)) 64).getD (List.replicate 64 0)
    match s.launchRefusal ctx bs with
    | some code =>
      match s.takeSlot ctx 0 0 with
      | none => .next (s.after recheckTicks .launchDequeue s.ev)
      | some (slot, s) =>
        let va := (s.ctx ctx).recVa slot
        .next ((((s.ctxWrite ctx va bs).ringEntry ctx ⟨false, va, 1, code, []⟩).popLaunch ctx q).wakeCtx ctx)
    | none =>
      match c.kernel (bitsAt (wordAt bs 0) 0 16) with
      | none => .next s
      | some k =>
        let l := launchOf ctx k bs
        let (i, s) := s.newId
        let s := ({ s with launches := SMap.set s.launches i l } : State).popLaunch ctx q
        let s := if l.gen then s.modKernel ctx l.kslot fun k =>
            { k with live := k.live + 1, st := match k.st with | .installed => .launched | .launched => .launched | _ => .running }
          else s.checkLaunch i
        .next (s.wakeCtx ctx)

/-! ### Placement (R127, R128) -/

/-- A module cluster as a place of a rule: its die, or itself. -/
def placeIn (cluster : Bool) (k : Nat) : Nat := if cluster then k else k / 4

/-- R127: a rule that cannot be met acts as ANY. -/
def narrow (open_ : List Nat) (test : Nat → Bool) : List Nat := if (open_.filter test).isEmpty then open_ else open_.filter test

/-- R127: the clusters that the choices of the first levels leave open to an identifier. -/
def Launch.openTo (l : Launch) (h : KHeader) (wid : Nat) (all : List Nat) (levels : Nat) : List Nat :=
  (List.range levels).foldl (fun o lv =>
    match l.choices.find? fun c => decide (c.level = lv) && decide (c.key = h.keyOf lv wid) with
    | some c => narrow o fun k => decide (placeIn c.cluster k = c.place)
    | none => o) all

/-- Strands of a launch that run or are to start in the tiles a test marks. -/
def State.launchOn (s : State) (launch : Nat) (test : Nat → Bool) : Nat :=
  (s.tiles.filter fun p => test p.1).foldl (fun n p => n + (p.2.strands.filter fun q => decide (q.2.launch = launch + 1) && (q.2.sent || q.2.st != .free)).length) 0

/-- R127: the place with the fewest records of a launch, counted by the strands that run one or that one has been sent to; of several the first. [Assumption 46: DEDUCED.] -/
def State.fewest (s : State) (launch : Nat) (cluster : Bool) (places : List Nat) : Nat :=
  let load (p : Nat) : Nat := s.launchOn launch fun t => decide (placeIn cluster (clusterOf t) = p)
  places.foldl (fun best p => if load p < load best then p else best) (places.headD 0)

/-- R127: the SPREAD rules' choices for a new identifier: successive groups go to successive places, round robin; below a PACK rule, whose cluster leaves
nothing to spread over, one acts as ANY. [Assumption 46: DEDUCED.] -/
def State.spread (s : State) (id : Nat) (h : KHeader) (wid : Nat) : State :=
  (List.range h.nf).foldl (fun s lv =>
    match s.launch id with
    | none => s
    | some l =>
      let rule := h.place.getD lv 0
      let key := h.keyOf lv wid
      if (rule ≠ 1 ∧ rule ≠ 2) ∨ (h.place.take lv).contains 3 ∨ l.choices.any (fun c => decide (c.level = lv) && decide (c.key = key)) then s
      else
        let cl := decide (rule = 2)
        let places := ((l.openTo h wid (((s.ctx l.ctx).region.map Region.clusters).getD []) lv).map (placeIn cl)).eraseDups
        let before := (l.choices.filter fun c => decide (c.level = lv) && decide (h.parentKey lv c.key = h.parentKey lv wid)).getLast?
        let pick := match before with
          | some c => (places.find? fun p => decide (c.place < p)).getD (places.headD 0)
          | none => s.fewest id cl places
        s.modLaunch id fun l => { l with choices := l.choices ++ [⟨lv, key, cl, pick⟩] }) s

/-- R135: a record outside a gang is placed afresh under a new identifier: the SPREAD rules choose for groups that it is the first of. -/
def State.placeAfresh (s : State) (ctx slot : Nat) : State :=
  let p := (s.ctx ctx).slotInfo slot
  let r := s.record ctx slot
  match (s.ctx ctx).kernel r.kslot with
  | some k => if p.launch = 0 ∨ p.gang ≠ 0 then s else s.spread (p.launch - 1) k.hdr r.wid
  | none => s

/-- R127: the PACK rules' choices when a group's first record is sent to a tile. [Assumption 46: DEDUCED.] -/
def Launch.pack (l : Launch) (h : KHeader) (wid tile : Nat) : Launch :=
  (List.range h.nf).foldl (fun l lv =>
    let key := h.keyOf lv wid
    if h.place.getD lv 0 ≠ 3 ∨ l.choices.any (fun c => decide (c.level = lv) && decide (c.key = key)) then l
    else { l with choices := l.choices ++ [⟨lv, key, true, clusterOf tile⟩] }) l

/-- R117: a tile whose code store holds a kernel's segment. -/
def Tile.holds (y : Tile) (ctx kslot : Nat) : Bool := y.kernel.any fun k => decide (k.1 = ctx) && decide (k.2.kslot = kslot)

/-- Whether a tile holds a kernel's segment or is loading it. -/
def Tile.has (y : Tile) (ctx kslot : Nat) : Bool := y.holds ctx kslot || y.loading.any fun k => decide (k.1 = ctx) && decide (k.2.kslot = kslot)

/-- R117: whether no strand is resident in a tile or on its way to be. -/
def Tile.empty (y : Tile) : Bool := (List.range 8).all fun n => decide ((y.strand n).st = .free) && !(y.strand n).sent

/-- R117, R149: the strand of a tile that may take a record of a kernel: the lowest free one, in a tile that holds the segment or has no
strand resident; a reserved strand belongs to its gang (R130). -/
def Tile.mayTake (y : Tile) (ctx : Nat) (h : KHeader) (gang : Nat) : Option Nat :=
  let idle (n : Nat) : Bool := let x := y.strand n; decide (x.st = .free) && !x.sent
  if y.stopped || !(y.has ctx h.kslot || (List.range 8).all fun n => idle n && (decide ((y.strand n).rsv = 0) || (decide (gang ≠ 0) && decide ((y.strand n).rsv = gang)))) then none
  else (List.range (h.rstr + 1)).find? fun n => idle n && decide ((y.strand n).rsv = 0)

/-- R128: the affinity tile of a record's parent group. [Assumption 46: DEDUCED.] -/
def State.affinityTile (s : State) (die launch : Nat) (h : KHeader) (wid : Nat) : Option Nat :=
  if launch = 0 then none
  else (s.affinity.find? fun a => decide (a.die = die) && decide (a.launch = launch) && decide (a.key = h.parentKey (h.nf - 1) wid)).map fun a => a.tile

/-- R128: the lower, the sooner a tile is preferred. -/
def State.tileRank (s : State) (ctx launch : Nat) (h : KHeader) (wid t : Nat) : Nat :=
  let near := match s.affinityTile (dieOf t) launch h wid with
    | some a => if t = a then 0 else if clusterOf t = clusterOf a then 2 else 4
    | none => 4
  near + (if (s.tile t).holds ctx h.kslot then 0 else 1)

/-- R127: the clusters open to a record; one of no launch may run anywhere in its region. -/
def State.openClusters (s : State) (ctx launch : Nat) (h : KHeader) (wid : Nat) : List Nat :=
  let all := ((s.ctx ctx).region.map Region.clusters).getD []
  match (if launch = 0 then none else s.launch (launch - 1)) with
  | some l => l.openTo h wid all h.nf
  | none => all

/-- R149: the tile and strand a record is given among some tiles, clusters held back apart. -/
def State.chooseTile (s : State) (ctx launch : Nat) (h : KHeader) (wid gang : Nat) (tiles : List Nat) (heldBack : Nat → Bool) : Option (Nat × Nat) :=
  let open_ := (s.openClusters ctx launch h wid).filter fun k => !heldBack k
  let cands := tiles.filterMap fun t => if open_.contains (clusterOf t) then ((s.tile t).mayTake ctx h gang).map fun n => (t, n) else none
  cands.foldl (fun best q => match best with
    | none => some q
    | some b => if s.tileRank ctx launch h wid q.1 < s.tileRank ctx launch h wid b.1 then some q else some b) none

/-- R128: the tile that received a record of its parent group, in the table of 4,096 entries of its die. [Assumption 46: DEDUCED.] -/
def State.touchAffinity (s : State) (launch : Nat) (h : KHeader) (wid tile : Nat) : State :=
  if launch = 0 then s
  else
    let die := dieOf tile
    let key := h.parentKey (h.nf - 1) wid
    let mine := (s.affinity.filter fun a => decide (a.die = die)).filter fun a => !(decide (a.launch = launch) && decide (a.key = key))
    { s with affinity := (⟨die, launch, key, tile⟩ :: mine).take 4096 ++ s.affinity.filter fun a => decide (a.die ≠ die) }

/-! ### Pinning (R151, R410) -/

/-- What pinning a record's extents comes to. [Assumption 45: DEDUCED.] -/
inductive PinPlan where
  | ok (extents : List ExtEntry) (slots : List ExtSlot) (pins : List (Nat × Bool))
  | wait (leaf va size : Nat) (revive : Bool)
  | unreadable (code : Nat)
deriving DecidableEq, Repr

structure PinAcc where
  slots : List ExtSlot
  pins  : List (Nat × Bool)              -- leaf, and whether an entry with write access pins it
deriving DecidableEq, Repr

/-- One more piece of an entry: it lengthens the last slot when it follows on it, or fills a new one. [Assumption 45: DEDUCED.] -/
def PinAcc.add (a : PinAcc) (start : Bool) (x : ExtSlot) (leaf : Nat × Bool) : Option PinAcc :=
  let new : Option PinAcc := if a.slots.length < 8 then some ⟨a.slots ++ [x], a.pins ++ [leaf]⟩ else none
  match a.slots.getLast? with
  | some e =>
    if !start ∧ e.ent = x.ent ∧ e.pb + e.rlen = x.pb ∧ e.comp = x.comp then
      some ⟨a.slots.dropLast ++ [{ e with rlen := e.rlen + x.rlen }], a.pins ++ [leaf]⟩
    else new
  | none => new

def accessOf (acc : BitVec 2) : Access := if acc = 1 then .read else if acc = 2 then .write else .both

/-- R151: an entry's pages from an offset, leaf by leaf; the offset from which the rest is open: that of the first page that has no leaf, no right or no
slot left, is reclaiming, or is full of pins. A page in migration, or one that is discarded, is waited for (R410). [Assumption 45: DEDUCED.] -/
def State.pinEntry (s : State) (ctx die j vb len : Nat) (acc : BitVec 2) : Nat → Nat → Bool → PinAcc → Except PinPlan (Nat × PinAcc)
  | 0, o, _, a => .ok (o, a)
  | fuel + 1, o, start, a =>
    if len ≤ o then .ok (len, a)
    else match s.pageWalk ctx (vb + o) with
      | none => .ok (o, a)
      | some (leaf, w, level) =>
        let size := levelSize level
        let within := (vb + o) % size
        let n := min (size - within) (len - o)
        let pa := leafFrame w * 2 ^ 16 + within + (if leafP w then die * dieSpan else 0)
        let job : Bool := match s.jobOf leaf with | some (_, p) => decide (p.kind = .revive) | none => false
        match checkLeaf w (accessOf acc) none, a.add start ⟨j, o, n, pa, leafC w⟩ (leaf, (accessOf acc).writes) with
        | .fault _, _ => .ok (o, a)
        | _, none => .ok (o, a)
        | _, some next =>
          if leafDS w = 2 ∨ 65535 ≤ SMap.get s.pins 0 leaf + (a.pins.filter fun l => decide (l.1 = leaf)).length ∨ (leafP w ∧ (accessOf acc).writes) then .ok (o, a)
          else if leafMig w ≠ 0 ∨ job then .error (.wait leaf (vb + o - within) size false)
          else if leafDS w = 1 then .error (.wait leaf (vb + o - within) size true)
          else s.pinEntry ctx die j vb len acc fuel (o + n) false next

/-- The eight entries of an extent list; one that is not used has no length (R159). -/
def extentsOf (bs : List Byte) : List ExtEntry :=
  (List.range 8).map fun j =>
    let lo := frameField bs (16 * j) 8
    let hi := frameField bs (16 * j + 8) 8
    let acc := bitsAt hi 40 2
    ⟨bitsAt lo 0 52, if acc = 0 then 0 else bitsAt hi 0 32, BitVec.ofNat 2 acc, 0⟩

/-- R151: a record's extent list, or its kernel's templates, translated for a die. [Assumption 45: DEDUCED.] -/
def State.pinPlan (s : State) (ctx die : Nat) (h : KHeader) (xl : Nat) : PinPlan :=
  let va := if xl = 0 then h.base + 0x80 else xl
  match s.imageRead die ctx va .read 2 128 with
  | .failed code => .unreadable code
  | .ok bs =>
    let step (acc : Except PinPlan (List ExtEntry × PinAcc)) (q : ExtEntry × Nat) : Except PinPlan (List ExtEntry × PinAcc) :=
      match acc with
      | .error e => .error e
      | .ok (es, a) =>
        if q.1.acc = 0 then .ok (es ++ [q.1], a)
        else match s.pinEntry ctx die q.2 q.1.vb q.1.len q.1.acc (q.1.len / 2 ^ 16 + 2) 0 true a with
          | .error e => .error e
          | .ok (o, a) => .ok (es ++ [({ q.1 with opn := o } : ExtEntry)], a)
    match (extentsOf bs).zipIdx.foldl step (.ok ([], (⟨[], []⟩ : PinAcc))) with
    | .error e => e
    | .ok (es, a) => .ok es ((a.slots ++ List.replicate 8 (⟨0, 0, 0, 0, false⟩ : ExtSlot)).take 8) a.pins

/-- R410: the pins counted. -/
def State.countPins (s : State) (leaves : List (Nat × Bool)) : State :=
  { s with pins := leaves.foldl (fun m l => SMap.set m l.1 (SMap.get m 0 l.1 + 1)) s.pins }

/-- R408, R410: the pins counted, and the leaves' A bits set, with D for an entry with write access. -/
def State.pinAll (s : State) (leaves : List (Nat × Bool)) : State :=
  leaves.foldl (fun s l => s.orLeaf l.1 (if l.2 then 2 ^ 9 + 2 ^ 10 else 2 ^ 9)) (s.countPins leaves)

def State.unpinAll (s : State) (leaves : List Nat) : State :=
  { s with pins := leaves.foldl (fun m l => SMap.setD m 0 l (SMap.get m 0 l - 1)) s.pins }

/-- What a choice must wait for is begun; the choice is made again once the page is stable and live (R410, R415). -/
def State.awaitPage (s : State) (ctx leaf va size : Nat) (revive : Bool) (retry : Instr × Operand) : State :=
  let s := if revive then s.reviveLeaf ctx va leaf size else s
  { s with held := (leaf, retry) :: s.held }

/-! ### Sending a record (R117, R149) -/

/-- R119: a kernel runs once a record of a launch of it has been sent, and drains at once when no generator of its launches has more to create. -/
def State.kernelRuns (s : State) (ctx launch kslot : Nat) : State :=
  if launch ≠ 0 ∧ (s.launch (launch - 1)).any (fun l => decide (l.kslot = kslot)) then
    (s.modKernel ctx kslot fun k => if k.st = .launched then { k with st := .running } else k).drainKernel ctx kslot
  else s

/-- Whether some strand of a kernel runs in a cluster or is to start there. -/
def State.kernelIn (s : State) (ctx kslot cluster : Nat) : Bool :=
  s.tiles.any fun p => decide (clusterOf p.1 = cluster)
    && (p.2.strands.any fun q => decide (q.2.ctx = ctx) && decide (q.2.kslot = kslot) && (q.2.sent || q.2.st != .free))

/-- R113, R462: the dispatcher's boost claim for a cluster. -/
def State.boostClaim (s : State) (ctx : Nat) (h : KHeader) (tile : Nat) : State :=
  if h.boost = 2 ∧ !s.kernelIn ctx h.kslot (clusterOf tile) then
    s.sendClaim { Operand.zero with tile := tile, strand := 8, node := clusterOf tile, id := ctx, arg := h.kslot, flag := true }
  else s

/-- R113: the claim of a kernel none of whose strands is left in a tile's cluster is released, whether it is held or still on its way, and whether
or not the kernel is still installed. -/
def State.dropBoost (s : State) (ctx kslot tile : Nat) : State :=
  let k := clusterOf tile
  let held := (s.cluster k).claims.any fun c => decide (c.strand = 8) && decide (c.ctx = ctx) && decide (c.kslot = kslot)
  let sent := s.agenda.any fun e => decide (e.2.2.1 = .boostClaimArrival) && decide (e.2.2.2.node = k) && decide (e.2.2.2.strand = 8)
    && decide (e.2.2.2.id = ctx) && decide (e.2.2.2.arg = kslot)
  if (held || sent) && !s.kernelIn ctx kslot k then
    s.sendClaim { Operand.zero with tile := tile, strand := 8, node := k, id := ctx, arg := kslot, flag := false }
  else s

/-- A chosen record leaves for its strand: its extents are pinned, the strand is taken, and its tile begins to load the kernel where it must;
it goes out at a tick, and the die's next one 4 ticks later (R149). -/
def State.sendRecord (s : State) (ctx slot tile strand : Nat) (h : KHeader) (extents : List ExtEntry) (slots : List ExtSlot) (pins : List (Nat × Bool)) (at_ : Nat) : State :=
  let r := s.record ctx slot
  let p := (s.ctx ctx).slotInfo slot
  let s := (s.pinAll pins).boostClaim ctx h tile
  let s := s.writeRecord ctx slot { r with st := recRunning, link := 0 }
  let s := s.modCtx ctx fun c => { c with pool := SMap.set c.pool slot { p with fresh := 0 } }
  let s := (s.kernelRuns ctx p.launch h.kslot).touchAffinity p.launch h r.wid tile
  let s := if p.launch = 0 then s else s.modLaunch (p.launch - 1) fun l => l.pack h r.wid tile
  let (i, s) := s.newId
  let s := { s with sends := SMap.set s.sends i ⟨ctx, slot, tile, strand, extents, slots, pins.map Prod.fst⟩ }
  let s := s.modStrand tile strand fun x => { x with sent := true, launch := p.launch, ctx := ctx, kslot := h.kslot }
  let s := if (s.tile tile).has ctx h.kslot then s
    else (s.modTile tile fun y => { y with kernel := none, code := [], nbun := 0, loading := some (ctx, h) }).later 32 .codeLoadDone (opTileId tile i)
  let s := { s with dispNext := SMap.set s.dispNext (dieOf tile) (at_ + 4) }
  (s.tallyDie (dieOf tile) 28 1).sendAt at_ vnConfig ctx (edgeTile (dieOf tile)) tile .recordArrival (opTileId tile i)

/-! ### Gangs (R129-R133) -/

/-- The context's registers and kernel header behind a record. -/
def State.headerOf (s : State) (ctx slot : Nat) : Option KHeader := ((s.ctx ctx).kernel (s.record ctx slot).kslot).map fun k => k.hdr

/-- A gang's records given strands so far, on a copy of the machine that keeps the reservations and the PACK choices made. -/
abbrev GangTry : Type := List (Nat × Nat × Nat) × State

/-- One member of a gang given a strand of some tiles, if one may take it. -/
def State.placeMember (g : Gang) (id : Nat) (held : Nat → Bool) (tiles : List Nat) (acc : GangTry) (slot : Nat) : Option GangTry :=
  let s := acc.2
  match s.headerOf g.ctx slot with
  | none => none
  | some h =>
    let wid := (s.record g.ctx slot).wid
    (s.chooseTile g.ctx (g.launch + 1) h wid (id + 1) tiles held).map fun q =>
      (acc.1 ++ [(slot, q.1, q.2)], (s.modStrand q.1 q.2 fun x => { x with rsv := id + 1 }).modLaunch g.launch fun l => l.pack h wid q.1)

/-- R128: the tiles among which a member's first choice is made: its region's, or, where a PACK rule has still to choose a cluster, one cluster's after another,
by the tile in each that would be preferred. -/
def State.memberTiles (s : State) (g : Gang) (id slot : Nat) : List (List Nat) :=
  let tiles := (s.ctx g.ctx).tiles
  match s.headerOf g.ctx slot, s.launch g.launch with
  | some h, some l =>
    let wid := (s.record g.ctx slot).wid
    let free := (List.range h.nf).any fun lv => decide (h.place.getD lv 0 = 3) && !(l.choices.any fun c => decide (c.level = lv) && decide (c.key = h.keyOf lv wid))
    if free then
      let able := tiles.filter fun t => ((s.tile t).mayTake g.ctx h (id + 1)).isSome
      let ks := ((List.range 6).flatMap fun r => (able.filter fun t => decide (s.tileRank g.ctx (g.launch + 1) h wid t = r)).map clusterOf).eraseDups
      ks.map fun k => tiles.filter fun t => decide (clusterOf t = k)
    else [tiles]
  | _, _ => [tiles]

/-- R129: every member of a gang given a strand at once, in walk order, whichever clusters the PACK rules must choose for it. -/
def State.placeAll (g : Gang) (id : Nat) (held : Nat → Bool) : List Nat → GangTry → Option GangTry
  | [], acc => some acc
  | slot :: rest, acc => (acc.2.memberTiles g id slot).findSome? fun tiles => (State.placeMember g id held tiles acc slot).bind fun a => State.placeAll g id held rest a

/-- The members of a gang that have a place, each by itself, while not all have. -/
def State.placeSome (s : State) (g : Gang) (id : Nat) : GangTry :=
  g.recs.foldl (fun acc slot => (State.placeMember g id (fun _ => false) (s.ctx g.ctx).tiles acc slot).getD acc) ([], s)

/-- R129: the clusters that a waiting gang holds back: those whose free strands are enough for its members placed there, by the rules or by preference. -/
def State.gangHolds (s : State) (id : Nat) (g : Gang) (cluster : Nat) : Bool :=
  match State.placeAll g id (fun _ => false) g.recs ([], s) with
  | some a => a.1.any fun q => decide (clusterOf q.2.1 = cluster)
  | none =>
    let a := s.placeSome g id
    (a.1.any fun q => decide (clusterOf q.2.1 = cluster)) && g.recs.all fun slot =>
      (a.1.any fun q => decide (q.1 = slot)) || (match a.2.headerOf g.ctx slot with
        | some h => (a.2.openClusters g.ctx (g.launch + 1) h (a.2.record g.ctx slot).wid).any fun k => k ≠ cluster
        | none => true)

/-- R129: whether a waiting gang holds a cluster back from a record of a priority. [Assumption 46: DEDUCED.] -/
def State.heldBack (s : State) (prio cluster : Nat) : Bool :=
  s.gangs.any fun p => decide (p.2.st = .waiting) && decide (prio ≤ p.2.prio) && !(s.ctx p.2.ctx).paused && s.gangHolds p.1 p.2 cluster

/-- R129: the places of the members of a waiting gang, in walk order, when all have one now in clusters that no gang of a higher priority, or an earlier
one of its own, holds back; nothing otherwise. [Assumption 46: DEDUCED.] -/
def State.gangPlan (s : State) (id : Nat) (g : Gang) : List (Nat × Nat × Nat) :=
  let ahead (p : Nat × Gang) : Bool := decide (p.2.st = .waiting) && (decide (g.prio < p.2.prio) || (decide (g.prio = p.2.prio) && decide (p.1 < id))) && !(s.ctx p.2.ctx).paused
  let held (k : Nat) : Bool := s.gangs.any fun p => ahead p && s.gangHolds p.1 p.2 k
  ((State.placeAll g id held g.recs ([], s)).map Prod.fst).getD []

/-- R133: the lowest free block for a group barrier of a Mordant. -/
def State.freeBarrier (s : State) (die : Nat) : Option Nat :=
  let blocks := (List.range 4096).map fun i => syncBase die + 0x4_0000 + 64 * i
  let more := (List.range 4096).map fun i => syncBase die + 0xF8_0000 + 64 * i
  match blocks.find? fun b => !s.barBusy.contains b with
  | some b => some b
  | none => more.find? fun b => !s.barBusy.contains b

/-- R133: a new group barrier: G members, phase 0, one release phase, 16 ticks. -/
def newBarrier (g scope : Nat) : List Byte :=
  leBytes 8 (2 ^ 30 + scope * 2 ^ 28) ++ leBytes 8 g ++ leBytes 8 0 ++ leBytes 8 (15 * 2 ^ 32) ++ List.replicate 32 0

/-- R130, R131: a member of a gang has ended: its strand is released, and the group retires with its last member. -/
def State.memberEnds (s : State) (id tile strand : Nat) : State :=
  match SMap.lookup s.gangs id with
  | none => s
  | some g =>
    let s := s.modStrand tile strand fun x => if x.rsv = id + 1 then { x with rsv := 0 } else x
    ({ s with gangs := SMap.set s.gangs id { g with left := g.left - 1 } } : State).retireGang id

/-- R131, R372: the drop of a faulted member, made by the dispatcher for its group barrier; it carries that member's arrival record. [Assumption 46: DEDUCED.] -/
def State.memberDrop (s : State) (id tile : Nat) (arrival : Option Arrival) : State :=
  match SMap.lookup s.gangs id with
  | none => s
  | some g =>
    if g.bar = 0 then s
    else
      let carried := match arrival with
        | some a => if a.bar = g.bar ∧ !a.pending then a.phase + 1 else 0
        | none => 0
      let r : Req := { tile := edgeTile (dieOf tile), strand := 8, run := 0, seq := 0, slot := 0, level := 0, lid := none, kind := .drop, ctx := g.ctx
                       handle := pinnedHandle 0 g.bar, opened := false, va := g.bar, pa := g.bar, off := 0, len := 64, comp := false, repl := false
                       data := leBytes 8 carried, cmp := 0, rel := false, scope := 0, stage := 0, spread := 0, own := false, fences := [] }
      (s.addReq r).2

/-- R116, R131: a member of a gang that faults: the drop, the fault ring, and its end. -/
def State.failMember (s : State) (id ctx slot tile strand code : Nat) (arrival : Option Arrival) : State :=
  ((s.memberDrop id tile arrival).setAside ctx slot false code).memberEnds id tile strand

/-- R131: a record that faults while it has no run: as a member of its gang where it belongs to one, with the arrival record of the strand reserved for it. -/
def State.failRecord (s : State) (ctx slot code : Nat) : State :=
  let p := (s.ctx ctx).slotInfo slot
  if p.gang = 0 then s.setAside ctx slot false code
  else s.failMember (p.gang - 1) ctx slot p.tile p.strand code (s.strand p.tile p.strand).arrival

/-- R410: the pins of every member of a plan, each beside those of the members before it, or the page that one must wait for. -/
def State.planPins (s : State) (ctx : Nat) (plan : List (Nat × Nat × Nat)) : Except PinPlan (List PinPlan) :=
  (plan.foldl (fun (acc : Except PinPlan (List PinPlan × State)) q => match acc with
    | .error e => .error e
    | .ok (ps, s) => match s.headerOf ctx q.1 with
      | none => .ok (ps ++ [.unreadable 2], s)
      | some h => match s.pinPlan ctx (dieOf q.2.1) h (s.record ctx q.1).xl with
        | .wait a b c d => .error (.wait a b c d)
        | .ok a b pins => .ok (ps ++ [.ok a b pins], s.countPins pins)
        | p => .ok (ps ++ [p], s)) (.ok ([], s))).map Prod.fst

/-! ### Generating records (R121, R123, R129, R140) -/

/-- R137: a new record in a slot of its own, its launch counting it. -/
def State.newRecord (s : State) (ctx launch gang fresh : Nat) (r : Record) : Option (Nat × State) :=
  (s.takeSlot ctx launch gang).map fun q =>
    let s := q.2.modCtx ctx fun c => { c with pool := SMap.set c.pool q.1 ⟨launch, gang, 0, 0, fresh⟩ }
    let s := s.writeRecord ctx q.1 { r with st := recReady, age := 0, etk := s.etk, link := 0 }
    (q.1, if launch = 0 then s else s.modLaunch (launch - 1) fun l => { l with recs := l.recs + 1 })

/-- The record of a launch at an identifier. -/
def Launch.record (l : Launch) (wid idx : Nat) : Record :=
  ⟨l.ctx, l.prio, recReady, 0, l.nc, 0, 0, idx, wid, 0, l.xl, l.kslot, l.c⟩

/-- Whether a generator's last record has yet to be sent. [Assumption 46: DEDUCED.] -/
def Ctx.ahead (c : Ctx) (gen : Nat) : Bool := c.pool.any fun p => decide (p.2.fresh = gen)

/-- R140: whether a strand may take a record now. -/
def State.strandFor (s : State) (ctx launch : Nat) (h : KHeader) (wid prio : Nat) : Bool :=
  (s.chooseTile ctx launch h wid 0 (s.ctx ctx).tiles (s.heldBack prio)).isSome

/-- R121: the records of a resident launch, RSTR + 1 for every tile, into the tiles' queues; while the pool is full the rest wait (R137). [Assumption 41: DEDUCED.] -/
def State.generateResident (s : State) (id : Nat) (l : Launch) (h : KHeader) : State :=
  let tiles := (s.ctx l.ctx).tiles
  let total := tiles.length * (h.rstr + 1)
  let s := (List.range (total - l.made)).foldl (fun s i =>
    match s.launch id with
    | none => s
    | some now =>
      if now.made ≠ l.made + i then s
      else match s.newRecord l.ctx (id + 1) 0 0 (l.record 0 0) with
        | none => s
        | some (slot, s) => (s.tileAppend l.ctx (tiles.getD (now.made / (h.rstr + 1)) 0) slot).modLaunch id fun l => { l with made := l.made + 1 }) s
  let s := if total ≤ ((s.launch id).map fun l => l.made).getD 0 then s.exhaust id else s.retryGenerate id
  if (s.launch id).any fun now => decide (now.made = l.made) && now.gen then s else s.wakeCtx l.ctx

/-- R129: the records of a launch's next gang; it waits once all are there. -/
def State.generateGang (s : State) (id : Nat) (l : Launch) (h : KHeader) (wid : Nat) : State :=
  let key := h.keyOf h.gang wid
  let cur := s.gangs.find? fun p => decide (p.2.launch = id) && decide (p.2.st ≠ .resident)
  let add (gid : Nat) (g : Gang) (s : State) : State :=
    let s := s.spread id h wid
    match s.newRecord l.ctx (id + 1) (gid + 1) 0 (l.record wid l.entry) with
    | none => s.retryGenerate id
    | some (slot, s) =>
      let next := nextWid l.inc l.last wid
      let more := match next with | some w => decide (h.keyOf h.gang w = key) | none => false
      let g := { g with recs := g.recs ++ [slot], left := g.left + 1, st := if more then .forming else .waiting }
      let s := ({ s with gangs := SMap.set s.gangs gid g } : State).modLaunch id fun l => { l with next := next }
      let s := if more then s else s.once s.tick (dispatchOrder - 1) .gangDispatch (opId gid)
      let s := if next.isNone then s.exhaust id else s
      s.once s.tick (dispatchOrder - 2) .recordGenerate (opId id)
  match cur with
  | some (gid, g) => if g.st = .forming then add gid g s else s
  | none =>
    let (gid, s) := s.newId
    add gid ⟨l.ctx, id, key, l.prio, .forming, [], 0, 0⟩ s

/-- R140: the next record of a launch, when a strand may take it. -/
def State.generateOne (s : State) (id : Nat) (l : Launch) (h : KHeader) (wid : Nat) : State :=
  if (s.ctx l.ctx).ahead id then s
  else
    let s' := s.spread id h wid
    if !s'.strandFor l.ctx (id + 1) h wid l.prio then s
    else match s'.newRecord l.ctx (id + 1) 0 id (l.record wid l.entry) with
      | none => s.retryGenerate id
      | some (slot, s) =>
        let next := nextWid l.inc l.last wid
        let s := s.modLaunch id fun l => { l with next := next }
        let s := if next.isNone then s.exhaust id else s
        (s.readyAppend l.ctx slot).wakeCtx l.ctx

/-- R123, R126: the next record of a spawn entry, when a strand may take it, among the launch's choices by the header of the kernel that it names; one that names
no kernel goes to the fault ring. [Assumption 41: DEDUCED.] [Assumption 46: DEDUCED.] -/
def State.generateSpawn (s : State) (e : Spawn) : State :=
  if (s.ctx e.ctx).paused || (s.ctx e.ctx).ahead e.id then s
  else
    let r : Record := ⟨e.ctx, e.prio, recReady, 0, e.nc, 0, 0, e.entry, e.next, 0, e.xl, e.kslot, e.c⟩
    let took (s : State) : State :=
      if e.left ≤ 1 then { s with spawns := s.spawns.filter fun d => d.id ≠ e.id }
      else { s with spawns := s.spawns.map fun d => if d.id = e.id then { d with next := d.next + d.inc, left := d.left - 1 } else d }
    match (s.ctx e.ctx).kernel e.kslot with
    | none =>
      match s.newRecord e.ctx e.launch 0 0 r with
      | none => s.retryGenerate 0
      | some (slot, s) => ((took s).setAside e.ctx slot false 2).once s.tick (dispatchOrder - 2) .recordGenerate (opId 0)
    | some k =>
      let s' := if e.launch = 0 then s else s.spread (e.launch - 1) k.hdr e.next
      if !s'.strandFor e.ctx e.launch k.hdr e.next e.prio then s
      else match s'.newRecord e.ctx e.launch 0 e.id r with
        | none => s.retryGenerate 0
        | some (slot, s) => ((took s).readyAppend e.ctx slot).wakeCtx e.ctx

/-- RECORD_GENERATE (R121, R123, R129, R140): a launch's generator, or with no launch the spawn queues. -/
def execRecordGenerate (s : State) : Host.Outcome State Fault Refusal :=
  let id := s.ev.id
  if id = 0 then .next (s.spawns.foldl (fun s e => s.generateSpawn e) s)
  else match s.launch id with
    | none => .next s
    | some l =>
      if (s.ctx l.ctx).paused || !l.gen then .next s
      else match (s.ctx l.ctx).kernel l.kslot, l.next with
        | some k, some wid =>
          .next (if k.hdr.res then s.generateResident id l k.hdr
            else if k.hdr.isGang then s.generateGang id l k.hdr wid else s.generateOne id l k.hdr wid)
        | some k, none => .next (if k.hdr.res then s.generateResident id l k.hdr else s)
        | none, _ => .next s

/-! ### The dispatcher's choice (R149) -/

/-- A record that may be sent now, and the place it would go to. -/
structure Cand where
  ctx    : Nat
  slot   : Nat
  queue  : Option Nat                    -- the tile whose queue holds it
  tile   : Nat
  strand : Nat
  hdr    : KHeader
deriving DecidableEq, Repr

/-- R130: whether a member may return to its reserved strand: the strand is free, in a tile that holds its kernel or has no strand resident (R117). -/
def Tile.mayReturn (y : Tile) (ctx strand : Nat) (h : KHeader) : Bool :=
  decide ((y.strand strand).st = .free) && !(y.strand strand).sent && !y.stopped && (y.has ctx h.kslot || y.empty)

/-- R149: what a tile queue offers: any member whose reserved strand is free, and the first other record, unless a gang that waits holds its cluster back
(R129). -/
def State.tileCands (s : State) (ctx tile : Nat) (q : List Nat) : List Cand :=
  let c := s.ctx ctx
  let members := q.filterMap fun i =>
    let p := c.slotInfo i
    match s.headerOf ctx i with
    | some h => if p.gang ≠ 0 ∧ (s.tile tile).mayReturn ctx p.strand h then some ⟨ctx, i, some tile, tile, p.strand, h⟩ else none
    | none => none
  let other := match q.find? fun i => decide ((c.slotInfo i).gang = 0) with
    | some i => match s.headerOf ctx i with
      | some h => match (if s.heldBack (s.record ctx i).prio (clusterOf tile) then none else (s.tile tile).mayTake ctx h 0) with
        | some n => [⟨ctx, i, some tile, tile, n, h⟩]
        | none => []
      | none => []
    | none => []
  members ++ other

/-- The running contexts that a die serves. -/
def State.servedBy (s : State) (die : Nat) : List Nat :=
  (s.ctxs.filter fun p => !p.2.paused && p.2.dies.contains die).map Prod.fst

/-- R149: contexts in round robin after the one served last. -/
def roundRobin (cs : List Nat) (last : Nat) : List Nat := (cs.filter fun c => decide (last < c)) ++ cs.filter fun c => decide (c ≤ last)

/-- R149: what the ready queues of a priority offer a die. -/
def State.readyCands (s : State) (die prio : Nat) : List Cand :=
  (roundRobin (s.servedBy die) (SMap.get s.served 0 (die * 8 + prio))).flatMap fun ctx =>
    let c := s.ctx ctx
    let tiles := c.tiles.filter fun t => decide (dieOf t = die)
    (c.ready.getD prio []).filterMap fun i =>
      match s.headerOf ctx i with
      | some h => (s.chooseTile ctx (c.slotInfo i).launch h (s.record ctx i).wid 0 tiles (s.heldBack prio)).map fun q => ⟨ctx, i, none, q.1, q.2, h⟩
      | none => none

/-- R149: everything a die's dispatcher may send, in the order of its choice. -/
def State.cands (s : State) (die : Nat) : List Cand :=
  ((s.servedBy die).flatMap fun ctx => ((s.ctx ctx).tileQ.filter fun p => decide (dieOf p.1 = die)).flatMap fun p => s.tileCands ctx p.1 p.2)
    ++ (List.range 8).flatMap fun k => s.readyCands die (7 - k)

/-- R149: what the tile queues and the ready queues offer a die above a priority, members of gangs apart. -/
def State.readyAbove (s : State) (die prio : Nat) : List Cand :=
  (((s.servedBy die).flatMap fun ctx => ((s.ctx ctx).tileQ.filter fun p => decide (dieOf p.1 = die)).flatMap fun p => s.tileCands ctx p.1 p.2).filter
    fun d => decide (((s.ctx d.ctx).slotInfo d.slot).gang = 0) && decide (prio < (s.record d.ctx d.slot).prio))
    ++ (List.range (7 - prio)).flatMap fun k => s.readyCands die (7 - k)

/-- Whether a record's pages are stable and live, so that it can be sent now. -/
def State.sendable (s : State) (die : Nat) (d : Cand) : Bool :=
  match s.pinPlan d.ctx die d.hdr (s.record d.ctx d.slot).xl with
  | .wait _ _ _ _ => false
  | _ => true

/-- One member of a resident gang sent; one whose extent list cannot be read ends at once. -/
def State.sendMember (s : State) (id : Nat) (g : Gang) (q : (Nat × Nat × Nat) × PinPlan) : State :=
  let (slot, t, n) := q.1
  match q.2, s.headerOf g.ctx slot with
  | .ok es xs ps, some h =>
    let s := s.modStrand t n fun x => { x with rsv := id + 1, arrival := none }
    let s := s.modCtx g.ctx fun c => { c with pool := SMap.set c.pool slot { c.slotInfo slot with tile := t, strand := n } }
    s.sendRecord g.ctx slot t n h es xs ps (max s.tick (SMap.get s.dispNext 0 (dieOf t)))
  | .unreadable code, _ => s.failMember id g.ctx slot t n code none
  | _, _ => s

/-- GANG_DISPATCH (R129, R131, R133, R149): a waiting gang placed whole: strands reserved, barrier made, every record sent, each at the next tick at which its
die's dispatcher may send; single records of a higher priority that its dies may send go first. [Assumption 46: DEDUCED.] -/
def execGangDispatch (s : State) : Host.Outcome State Fault Refusal :=
  let id := s.ev.id
  match SMap.lookup s.gangs id with
  | none => .next s
  | some g =>
    if g.st ≠ .waiting ∨ (s.ctx g.ctx).paused then .next s
    else match s.gangPlan id g with
      | [] => .next s
      | first :: rest =>
        let dies := ((first :: rest).map fun q => dieOf q.2.1).eraseDups
        let home := dieOf first.2.1
        if dies.any fun d => (s.readyAbove d g.prio).any fun c => s.sendable d c then .next s
        else match s.freeBarrier home, s.planPins g.ctx (first :: rest) with
          | none, _ => .next s
          | some _, .error (.wait leaf va size revive) => .next (s.awaitPage g.ctx leaf va size revive (.gangDispatch, s.ev))
          | some _, .error _ => .next s
          | some bar, .ok pins =>
            let scope := if dies.all fun d => decide (d = home) then 1 else 2
            let s := (s.physWrite bar (newBarrier g.recs.length scope) false).1
            let s := { s with barBusy := bar :: s.barBusy, barMarks := SMap.set s.barMarks bar g.ctx
                              gangs := SMap.set s.gangs id { g with st := .resident, bar := bar } }
            .next ((((first :: rest).zip pins).foldl (fun s q => s.sendMember id g q) s).wakeCtx g.ctx)

/-- The record out of its queue. -/
def State.unqueue (s : State) (d : Cand) : State :=
  match d.queue with
  | some t => s.tileRemove d.ctx t d.slot
  | none => s.readyRemove d.ctx (s.record d.ctx d.slot).prio d.slot

/-- The first record whose pages are stable and live is sent; one whose extent list cannot be read is set aside. [Assumption 45: DEDUCED.] -/
def State.dispatchFrom (s : State) (die : Nat) : List Cand → Bool × State
  | [] => (false, s)
  | d :: rest =>
    let r := s.record d.ctx d.slot
    match s.pinPlan d.ctx die d.hdr r.xl with
    | .wait leaf va size revive => (s.awaitPage d.ctx leaf va size revive (.dispatch, s.ev)).dispatchFrom die rest
    | .unreadable code => (true, (s.unqueue d).failRecord d.ctx d.slot code)
    | .ok es xs ps =>
      let s := if d.queue.isSome then s else { s with served := SMap.set s.served (die * 8 + r.prio) d.ctx }
      (true, (s.unqueue d).sendRecord d.ctx d.slot d.tile d.strand d.hdr es xs ps s.tick)

/-- Records in a die's queues that name no kernel any more go to the fault ring. [Assumption 42: DEDUCED.] -/
def State.orphans (s : State) : List (Nat × Option Nat × Nat) :=
  s.ctxs.flatMap fun p =>
    if p.2.paused then []
    else (p.2.ready.flatMap fun q => q.filterMap fun i => if (s.headerOf p.1 i).isNone then some (p.1, none, i) else none)
      ++ p.2.tileQ.flatMap fun q => q.2.filterMap fun i => if (s.headerOf p.1 i).isNone then some (p.1, some q.1, i) else none

def State.dropOrphans (s : State) : State :=
  s.orphans.foldl (fun s q =>
    let s := match q.2.1 with
      | some t => s.tileRemove q.1 t q.2.2
      | none => s.readyRemove q.1 (s.record q.1 q.2.2).prio q.2.2
    s.failRecord q.1 q.2.2 2) s

/-- DISPATCH (R149): a die's dispatcher sends one record, at most one every 4 ticks. -/
def execDispatch (s : State) : Host.Outcome State Fault Refusal :=
  let die := s.ev.node
  if s.tick < SMap.get s.dispNext 0 die then .next (s.wakeDie die)
  else
    let s := s.dropOrphans
    match s.dispatchFrom die (s.cands die) with
    | (true, s) =>
      .next ((s.servedBy die).foldl (fun s c => s.wakeCtx c) (s.wakeDie die))
    | (false, s) => .next s

end Sys2Proof.Machine
end

