-- ==== Sys2Proof/Machine/Mordant.lean ====
section
/-! DEFINITION. The Mordant: atomics and reductions (R353-R357), future cells, deferral and the fill's walk (R358-R367). -/

namespace Sys2Proof.Machine

/-! ### Atomics (R355) -/

/-- R355: the new value of W, in the order of the ports; nothing when W is not written. -/
def atomicValue (op : Nat) (w v cmp : W64) : Option W64 :=
  match op with
  | 0 => some (w + v)
  | 1 => some (if w.toInt ≤ v.toInt then w else v)
  | 2 => some (if v.toInt ≤ w.toInt then w else v)
  | 3 => some (w &&& v)
  | 4 => some (w ||| v)
  | 5 => some (w ^^^ v)
  | 6 => some v
  | 7 => if w = cmp then some v else none
  | _ =>
    let lane (k : Nat) : Nat := (fp32.add (bitsAt w.toNat (32 * k) 32) (bitsAt v.toNat (32 * k) 32)).1
    some (BitVec.ofNat 64 (lane 0 + lane 1 * 2 ^ 32))

/-- MORDANT_ATOMIC (R353, R355). -/
def execMordantAtomic (s : State) : Host.Outcome State Fault Refusal :=
  let i := s.ev.id
  match SMap.lookup s.reqs i with
  | none => .next s
  | some r => match r.kind with
    | .atomic op =>
      let s := s.tallyMordant r
      match s.physRead r.pa 8 with
      | none => .next (s.reply i r 0 (errorCode r.pa) [])
      | some bs =>
        let s := match atomicValue op (BitVec.ofNat 64 (leNat bs)) (BitVec.ofNat 64 (leNat r.data)) r.cmp with
          | some v => (s.homeWrite r.pa (leBytes 8 v.toNat) r.comp true).1
          | none => s
        .next (s.reply i r 0 0 bs)
    | _ => .next s

/-- An atomic trigger (R352, R355, R356). -/
def State.atomic (s : State) (op : Nat) (t : Trig) : Host.Outcome State Fault Refusal :=
  s.landTrigger 8 (requestNeed true (decide (op = 7)) true true false) t (fun o => low64 o.o2) [0, 1, 2, 3] fun c o p s =>
    let h := low64 o.o0
    match s.synTarget c h 3 8 synHome with
    | .stop s' => some (.error s')
    | .null =>
      if !landRoom (s.core c.tile) then none
      else some (.ok (((s.addFlags c (handleMis 3 h ||| flagNUL)).addLand c p (some 0) 0 false false 0).2))
    | .at_ tg _ _ =>
      if !landRoom (s.core c.tile) then none
      else
        let (i, s) := (s.addFlags c (handleMis 3 h)).addLand c p none 1 false false 0
        some (.ok (s.sendParts c p (some i) (.atomic op) h tg 8 (leBytes 8 (low64 o.t).toNat) (low64 o.o1)))

/-- R355 `aadd`. -/
def execAadd (t : Trig) (s : State) : Host.Outcome State Fault Refusal := s.atomic 0 t

/-- R355 `amin`. -/
def execAmin (t : Trig) (s : State) : Host.Outcome State Fault Refusal := s.atomic 1 t

/-- R355 `amax`. -/
def execAmax (t : Trig) (s : State) : Host.Outcome State Fault Refusal := s.atomic 2 t

/-- R355 `aand`. -/
def execAand (t : Trig) (s : State) : Host.Outcome State Fault Refusal := s.atomic 3 t

/-- R355 `aor`. -/
def execAor (t : Trig) (s : State) : Host.Outcome State Fault Refusal := s.atomic 4 t

/-- R355 `axor`. -/
def execAxor (t : Trig) (s : State) : Host.Outcome State Fault Refusal := s.atomic 5 t

/-- R355 `aswp`. -/
def execAswp (t : Trig) (s : State) : Host.Outcome State Fault Refusal := s.atomic 6 t

/-- R355 `acas`. -/
def execAcas (t : Trig) (s : State) : Host.Outcome State Fault Refusal := s.atomic 7 t

/-- R355 `afadd`. -/
def execAfadd (t : Trig) (s : State) : Host.Outcome State Fault Refusal := s.atomic 8 t

/-! ### Reductions (R357) -/

/-- R357: element width and floating-point format of an `EFMT` code. -/
def redFormat (efmt : Nat) : Nat × Option Fmt :=
  match efmt with
  | 0 => (32, some fp32)
  | 1 => (16, some fp16)
  | 2 => (16, some bf16)
  | _ => (32, none)

/-- R357: one element. -/
def redElem (rop : Nat) (f : Option Fmt) (a b : Nat) : Nat :=
  match f with
  | some g => match rop with
    | 0 => (g.add a b).1
    | 1 => g.minOf a b
    | _ => g.maxOf a b
  | none =>
    let x : BitVec 32 := BitVec.ofNat 32 a
    let y : BitVec 32 := BitVec.ofNat 32 b
    (match rop with
      | 0 => x + y
      | 1 => if x.toInt ≤ y.toInt then x else y
      | 2 => if y.toInt ≤ x.toInt then x else y
      | 3 => x &&& y
      | 4 => x ||| y
      | _ => x ^^^ y).toNat

/-- R357: memory's bytes combined with the vector's. -/
def redBytes (rop efmt : Nat) (m t : List Byte) : List Byte :=
  let f := redFormat efmt
  let b := f.1 / 8
  (List.range (m.length / b)).flatMap fun e => leBytes b (redElem rop f.2 (lineElem m b e) (lineElem t b e))

/-- R357: the fields of a control word that may be used: `ROP`, `EFMT`, `ORD`, `SCOPE`. -/
def redControl (w : W64) : Option (Nat × Nat × Nat × Nat) :=
  let v := w.toNat
  let rop := bitsAt v 4 4
  let efmt := bitsAt v 0 4
  let ord := bitsAt v 16 2
  if 2 ^ 20 ≤ v ∨ bitsAt v 8 8 ≠ 0 ∨ ord % 2 = 1 ∨ 5 < rop ∨ !([0, 1, 2, 6].contains efmt) ∨ (3 ≤ rop ∧ efmt ≠ 6) then none
  else some (rop, efmt, ord, bitsAt v 18 2)

/-- R357 `red`. -/
def execRed (t : Trig) (s : State) : Host.Outcome State Fault Refusal :=
  s.trigger 8 (requestNeed true true false true false) t fun c o s =>
    match redControl (low64 o.o1) with
    | none => some (.error (s.illegalDest c 0))
    | some (rop, efmt, ord, scope) =>
      let h := low64 o.o0
      if !s.releaseReady c (decide (ord = 2)) then none
      else match s.synTarget c h 4 128 synHome with
        | .stop s' => some (.error s')
        | .null => some (.ok (s.addFlags c (handleMis 4 h ||| flagNUL)))
        | .at_ tg _ _ => some (.ok ((s.addFlags c (handleMis 4 h)).sendParts c ⟨ord, scope, 1, 0⟩ none (.red rop efmt) h tg 128 (wideBytes o.t) 0))

/-- R357: the parts of a `red` that crosses a page are performed as one operation, or, where one of them cannot be read, not at all. -/
def State.doRed (s : State) (rop efmt : Nat) (parts : List (Nat × Req)) : State :=
  let s := match parts.head? with | some q => s.tallyMordant { q.2 with len := 128 } | none => s
  match parts.find? fun q => (s.physRead q.2.pa q.2.len).isNone with
  | some q => ({ s with reqs := parts.foldl (fun m p => if p.1 = q.1 then m else SMap.erase m p.1) s.reqs } : State).reply q.1 q.2 6 (errorCode q.2.pa) (leBytes 8 q.2.run)
  | none => parts.foldl (fun s q =>
      { (s.homeWrite q.2.pa (redBytes rop efmt ((s.physRead q.2.pa q.2.len).getD []) q.2.data) q.2.comp true).1 with reqs := SMap.erase s.reqs q.1 }) s

/-- The other part of a `red` that crosses a page: its two parts take their numbers one after the other. [Assumption 23: DEDUCED.] -/
def State.redTwin (s : State) (i : Nat) (r : Req) : Option (Nat × Req) :=
  let j := if r.off = 0 then i + 1 else i - 1
  s.reqs.find? fun q => decide (q.1 = j) && decide (q.2.tile = r.tile) && decide (q.2.strand = r.strand) && decide (q.2.run = r.run)
    && decide (q.2.handle = r.handle) && decide (q.2.kind = r.kind) && decide ((q.2.off = 0) ≠ (r.off = 0))

/-- MORDANT_RED (R353, R357): nothing comes back but an error. The part of one that crosses a page waits at its home for the other (stage 3); when that has been
abandoned it is dropped. [Assumption 23: DEDUCED.] -/
def execMordantRed (s : State) : Host.Outcome State Fault Refusal :=
  let i := s.ev.id
  match SMap.lookup s.reqs i with
  | none => .next s
  | some r => match r.kind with
    | .red rop efmt =>
      if r.len = 128 then .next (s.doRed rop efmt [(i, r)])
      else match s.redTwin i r with
        | none => .next { s with reqs := SMap.erase s.reqs i }
        | some q =>
          if q.2.stage = 3 then .next (s.doRed rop efmt [(i, r), q])
          else .next (({ s with reqs := SMap.set s.reqs i { r with stage := 3 } } : State).after 1 .mordantRed (opId i))
    | _ => .next s

/-! ### Future cells (R359-R364) -/

structure Cell where
  fst  : Nat
  wcnt : Nat
  head : Nat
  val  : Nat
deriving DecidableEq, Repr

def cellEmpty : Nat := 0
def cellWaiting : Nat := 1
def cellFull : Nat := 2

def Cell.ofBytes (bs : List Byte) : Cell :=
  let w := frameField bs 0 8
  ⟨bitsAt w 62 2, bitsAt w 48 14, bitsAt w 6 42 * 64, frameField bs 8 8⟩

/-- R359: the state word as the Mordant writes it. -/
def Cell.word (c : Cell) : Nat := c.fst * 2 ^ 62 + c.wcnt * 2 ^ 48 + c.head
def Cell.bytes (c : Cell) : List Byte := leBytes 8 c.word ++ leBytes 8 c.val

def State.putCell (s : State) (pa : Nat) (c : Cell) (comp : Bool) : State := (s.homeWrite pa c.bytes comp true).1

/-- R361: the walk's next step. -/
def State.walkOn (s : State) (pa ctx : Nat) (comp : Bool) : State :=
  s.later 41 .fillWalkStep { Operand.zero with word := BitVec.ofNat 64 pa, id := ctx, flag := comp }

/-- R360, R363: a fill: the status' `CODE` and `WREL`. -/
def State.fill (s : State) (pa v ctx : Nat) (comp : Bool) (c : Cell) : Nat × Nat × State :=
  if c.fst = cellFull then (2, 0, s)
  else if c.fst = cellWaiting then
    (0, c.wcnt, (s.putCell pa { c with fst := cellFull, val := v } comp).walkOn pa ctx comp)
  else (0, 0, s.putCell pa ⟨cellFull, 0, 0, v⟩ comp)

/-- A SYN operation on a cell (R352, R362-R364). -/
def State.cellTrigger (s : State) (kind : ReqKind) (byO0 : Bool) (ords : List Nat) (nullValue : Wide) (t : Trig) : Host.Outcome State Fault Refusal :=
  s.landTrigger 8 (requestNeed byO0 false true true false) t (fun o => low64 o.o2) ords fun c o p s =>
    let h := if byO0 then low64 o.o0 else low64 o.t
    match s.synTarget c h 4 16 synHome with
    | .stop s' => some (.error s')
    | .null =>
      if !landRoom (s.core c.tile) then none
      else some (.ok (((s.addFlags c (handleMis 4 h ||| flagNUL)).addLand c p (some nullValue) 0 false false 0).2))
    | .at_ tg _ _ =>
      if !landRoom (s.core c.tile) then none
      else
        let (i, s) := (s.addFlags c (handleMis 4 h)).addLand c p none 1 false byO0 0
        some (.ok (s.sendParts c p (some i) kind h tg 16 (leBytes 16 (low64 o.t).toNat) 0))

/-- R362 `frd`. -/
def execFrd (t : Trig) (s : State) : Host.Outcome State Fault Refusal := s.cellTrigger .frd false [0, 1] 0 t

/-- R363 `fwr`: a null handle lands `CODE` 1. -/
def execFwr (t : Trig) (s : State) : Host.Outcome State Fault Refusal := s.cellTrigger .fwr true [0, 2] 1 t

/-- R364 `frst`. -/
def execFrst (t : Trig) (s : State) : Host.Outcome State Fault Refusal := s.cellTrigger .frst false [0, 1, 2, 3] 0 t

/-- A cell operation at its home: refused on a word or line that cannot be read, and on a malformed cell (R358). -/
def State.atCell (s : State) (k : Nat → Req → Cell → List Byte → State) : Host.Outcome State Fault Refusal :=
  let i := s.ev.id
  match SMap.lookup s.reqs i with
  | none => .next s
  | some r =>
    let s := s.tallyMordant r
    match s.physRead r.pa 16 with
    | none => .next (s.reply i r 0 (errorCode r.pa) [])
    | some bs => if (Cell.ofBytes bs).fst = 3 then .next (s.reply i r 0 2 []) else .next (k i r (Cell.ofBytes bs) bs)

/-- FRD_PERFORM (R360, R362). -/
def execFrdPerform (s : State) : Host.Outcome State Fault Refusal := s.atCell fun i r _ bs => s.reply i r 0 0 bs

/-- FWR_PERFORM (R360, R363). -/
def execFwrPerform (s : State) : Host.Outcome State Fault Refusal :=
  s.atCell fun i r c _ =>
    let f := s.fill r.pa (leNat (r.data.take 8)) r.ctx r.comp c
    f.2.2.reply i r 0 0 (leBytes 8 (f.2.1 * 2 ^ 48 + f.1))

/-- FRST_PERFORM (R360, R364): refused while records are listed. -/
def execFrstPerform (s : State) : Host.Outcome State Fault Refusal :=
  s.atCell fun i r c bs =>
    let s :=
      if c.fst = cellEmpty then (s.homeWrite (r.pa + 8) (leBytes 8 0) r.comp true).1
      else if c.fst = cellFull ∧ c.wcnt = 0 then s.putCell r.pa ⟨cellEmpty, 0, 0, 0⟩ r.comp
      else s
    s.reply i r 0 0 (bs.take 8)

/-! ### Deferral and the walk (R361, R365) -/

/-- The pool slot of a context whose record lies at a physical address, if there is one. -/
def State.slotOfPa (s : State) (ctx pa : Nat) : Option Nat :=
  let c := s.ctx ctx
  let pages := (64 * c.poolCount + c.poolBase % 2 ^ 16 + 2 ^ 16 - 1) / 2 ^ 16
  ((List.range pages).findSome? fun k =>
    let va := (c.poolBase / 2 ^ 16 + k) * 2 ^ 16
    match s.ctxPa ctx va with
    | some base =>
      let v := va + (pa - base)
      if base ≤ pa ∧ pa < base + 2 ^ 16 ∧ c.poolBase ≤ v ∧ (v - c.poolBase) % 64 = 0 ∧ (v - c.poolBase) / 64 < c.poolCount then
        some ((v - c.poolBase) / 64)
      else none
    | none => none)

/-- R361: a listed record gets the value and is readied. -/
def State.readyWith (s : State) (ctx slot v : Nat) : State :=
  let r := s.record ctx slot
  (s.writeRecord ctx slot { r with c := r.c.set r.rslot v, st := recReady, etk := s.etk, link := 0 }).makeReady ctx slot

/-- R131, R365: a record that its cell refuses: FAULTED, as a member of its gang where it belongs to one. -/
def State.failDeferred (s : State) (i : Nat) (r : Req) (slot : Nat) : State :=
  ({ s with reqs := SMap.erase s.reqs i } : State).failRecord r.ctx slot 13

/-- FUTURE_DEFERRAL (R360, R365); one that its tile's translation unit has refused does not reach the cell. -/
def execFutureDeferral (s : State) : Host.Outcome State Fault Refusal :=
  let i := s.ev.id
  match SMap.lookup s.reqs i with
  | none => .next s
  | some r => match r.kind with
    | .defer slot =>
      if s.ev.flag then .next (s.failDeferred i r slot)
      else
      let s := s.tallyMordant r
      match s.physRead r.pa 16, s.ctxPa r.ctx ((s.ctx r.ctx).recVa slot) with
      | some bs, some rpa =>
        let c := Cell.ofBytes bs
        let done := { s with reqs := SMap.erase s.reqs i }
        if c.fst = 3 then .next (s.failDeferred i r slot)
        else if c.fst = cellFull then .next (done.readyWith r.ctx slot c.val)
        else if c.fst = cellWaiting ∧ c.wcnt = 16383 then .next (s.failDeferred i r slot)
        else
          let s := done.ctxWrite r.ctx ((s.ctx r.ctx).recVa slot + 16) (leBytes 8 c.head)
          .next (s.putCell r.pa ⟨cellWaiting, if c.fst = cellEmpty then 1 else c.wcnt + 1, rpa, c.val⟩ r.comp)
      | _, _ => .next (s.failDeferred i r slot)
    | _ => .next s

/-- The record listed at a physical address, sound for a fill by a context: its context and slot (R361). -/
def State.listed (s : State) (head ctx : Nat) : Option (Nat × Nat) :=
  match s.physRead head 64 with
  | none => none
  | some bs =>
    let r := Record.ofBytes bs
    match s.slotOfPa r.ctx head with
    | some slot => if r.st = recDeferred ∧ r.ctx = ctx then some (r.ctx, slot) else none
    | none => none

/-- FILL_WALK_STEP (R351, R361); a cell that can no longer be read ends the walk, and its error goes to the status of the context's owner. -/
def execFillWalkStep (s : State) : Host.Outcome State Fault Refusal :=
  let pa := s.ev.word.toNat
  let ctx := s.ev.id
  let comp := s.ev.flag
  match s.physRead pa 16 with
  | none => .next (s.modCtx ctx fun x => { x with lastErr := (pa, errorCode pa) })
  | some bs =>
    let c := Cell.ofBytes bs
    let s := s.markShared ctx ((List.range 4).map fun k => 4 * homeDie pa + k)
    if c.fst ≠ cellFull ∨ c.wcnt = 0 then .next s
    else match s.listed c.head ctx with
      | none => .next ((s.putCell pa { c with wcnt := 0, head := 0 } comp).modCtx ctx fun x => { x with lastErr := (pa, 5) })
      | some (cx, slot) =>
        let link := (s.record cx slot).link
        let s := (s.readyWith cx slot c.val).putCell pa { c with wcnt := c.wcnt - 1, head := link % 2 ^ 48 / 64 * 64 } comp
        .next (if 1 < c.wcnt then s.walkOn pa ctx comp else s)

end Sys2Proof.Machine
end

