-- ==== Sys2Proof/Machine/Work.lean ====
section
/-! DEFINITION. Work: the WRK triggers on identifiers, records and queues (R122, R123, R135, R145), the start and the end of a run (R116-R118, R194,
R204, R205, R222), and the completion of a launch (R119, R120). -/

namespace Sys2Proof.Machine

/-! ### The triggers -/

/-- The launch a strand runs for. -/
def State.launchOfStrand (s : State) (t n : Nat) : Option (Nat × Launch) :=
  let l := (s.strand t n).launch
  if l = 0 then none else (s.launch (l - 1)).map fun x => (l - 1, x)

/-- R121, R122: the next identifier of the strand's launch, or null. -/
def State.takeWid (s : State) (t n : Nat) : W64 × State :=
  let res := ((s.tile t).kernel.map fun k => k.2.res).getD false
  match s.launchOfStrand t n with
  | some (i, l) =>
    match l.next with
    | some wid => if res then (BitVec.ofNat 64 wid, s.modLaunch i fun l => { l with next := nextWid l.inc l.last wid }) else (0xFFFFFFFFFFFFFFFF, s)
    | none => (0xFFFFFFFFFFFFFFFF, s)
  | none => (0xFFFFFFFFFFFFFFFF, s)

/-- R122 `nextw`: whatever the specification says, the identifier lands 12 steps later in the register of the rotation pointer. [Assumption 41: DEDUCED.] -/
def execNextw (t : Trig) (s : State) : Host.Outcome State Fault Refusal :=
  s.landTrigger 9 (requestNeed false false true true true) t (fun o => low64 o.o2) [0, 1] fun c _ p s =>
    if !landRoom (s.core c.tile) then none
    else
      let x := s.strand c.tile c.strand
      let (w, s) := s.takeWid c.tile c.strand
      let s := s.modStrand c.tile c.strand fun x => { x with nw := x.nw + 1 }
      let (i, s) := s.addLand c { p with ofs := 12, lreg := x.nw.toNat } none 1 false false 0
      some (.ok (s.later 33 .landingDataArrival { Operand.zero with tile := c.tile, strand := c.strand, id := i + 1, bytes := leBytes 8 w.toNat }))

/-- The bytes of the scratchpad that a WRK trigger reads from an address, byte by byte modulo 2^64. [Assumption 41: DEDUCED.] -/
def bytePieces (a n : Nat) : List Piece := (List.range n).map fun i => ((a + i) % 2 ^ 64, 1)

/-- R167: the granule of an address. -/
def granuleBase (a : Nat) : Nat := a / 16 * 16

/-- R123: the reserved bits of a `spawn` word. -/
def spawnReserved (v : Nat) : Bool := decide (bitsAt v 48 16 ≠ 0) || decide (bitsAt v 28 4 ≠ 0) || decide (bitsAt v 6 10 ≠ 0) || v.testBit 3

/-- R123 `spawn`. [Assumption 41: DEDUCED.] -/
def execSpawn (t : Trig) (s : State) : Host.Outcome State Fault Refusal :=
  s.trigger 9 (capNeed true true) t fun c o s =>
    let v := (low64 o.t).toNat
    let cnt := bitsAt v 32 16
    let x := s.strand c.tile c.strand
    if spawnReserved v then some (.error (s.illegalDest c 0))
    else if cnt = 0 then some (.ok s)
    else if !s.moduleRelease c ∨ 256 ≤ (s.spawns.filter fun e => decide (e.die = dieOf c.tile)).length then none
    else if !regReady (s.core c.tile) c.strand x codeKsel c.seq c.step then none
    else
      let ps := bytePieces (low64 o.o1).toNat 40
      let bs := s.readPieces c ps
      let f := accessFlags false ps granuleBase
      let widths := if x.visits then ((s.tile c.tile).kernel.map fun k => k.2.widths).getD [] else x.widths
      let inc := 2 ^ (64 - widths.sum)
      let first := (low64 o.o0).toNat / inc * inc
      let room := 2 ^ (widths.getLast?.getD 64) - first / inc % 2 ^ (widths.getLast?.getD 64)
      let nc := bitsAt v 4 2
      let (i, s) := s.newId
      let e : Spawn := { id := i, die := dieOf c.tile, ctx := x.ctx, launch := x.launch, kslot := ((x.regAt codeKsel c.seq).setWidth 16).toNat, prio := bitsAt v 0 3,
                         nc := nc, entry := bitsAt v 16 12, xl := wordAt bs 4 / 2 ^ 16 * 2 ^ 16, c := (List.range 4).map fun j => if j ≤ nc then wordAt bs j else 0,
                         next := first, inc := inc, left := min cnt room }
      let s := s.flagged c (f.1 ||| flagIf (decide (room < cnt)) flagSAT, f.2, ps)
      some (.ok (({ s with spawns := s.spawns ++ [e] } : State).once s.tick (dispatchOrder - 2) .recordGenerate (opId 0)))

/-- R135: whether a `regroup` is refused. -/
def regroupRefused (h : KHeader) (v o0 : Nat) : Bool :=
  let nfld := bitsAt v 0 3
  let top := if h.gang = 7 then h.nf else h.nf - 1 - h.gang
  let wd := (h.widths.drop (h.nf - nfld)).sum
  decide (2 ^ 8 ≤ v) || decide (bitsAt v 3 3 ≠ 0) || decide (nfld = 0) || decide (top < nfld) || h.res || (decide (wd < 64) && decide (o0 / 2 ^ wd ≠ 0))

/-- R135: the new identifier. -/
def regroupWid (h : KHeader) (nfld wid o0 : Nat) : Nat :=
  let wd := (h.widths.drop (h.nf - nfld)).sum
  let p := 64 - h.widths.sum
  putBits wid p wd o0 % 2 ^ 64

/-- R135 `regroup`. [Assumption 41: DEDUCED.] [Assumption 46: DEDUCED.] -/
def execRegroup (t : Trig) (s : State) : Host.Outcome State Fault Refusal :=
  s.trigger 9 { use0 := true, access := true } t fun c o s =>
    let x := s.strand c.tile c.strand
    let v := (low64 o.t).toNat
    let o0 := (low64 o.o0).toNat
    if x.visits then some (.error (s.raiseHere c 14 (BitVec.ofNat 64 x.ccap) 1))
    else match (s.tile c.tile).kernel with
      | none => some (.error (s.illegalDest c 0))
      | some k =>
        let nc := bitsAt v 6 2
        if regroupRefused k.2 v o0 then some (.error (s.illegalDest c 0))
        else if !s.mayEnd c || !s.moduleRelease c || !regReady (s.core c.tile) c.strand x codeKsel c.seq c.step then none
        else match s.carried c nc with
          | none => none
          | some cs =>
            let kslot := ((x.regAt codeKsel c.seq).setWidth 16).toNat
            some (.ok (s.endRun c ⟨.regroup (BitVec.ofNat 64 (regroupWid k.2 (bitsAt v 0 3) x.wid.toNat o0)) kslot, nc, cs, 0, (s.indexHere c + 1) % 4096⟩))

/-- R145: whether a queue handle is refused. -/
def enqRefused (c : Ctx) (v : Nat) : Bool :=
  let kind := bitsAt v 16 4
  let ix := bitsAt v 0 13
  decide (2 ^ 20 ≤ v) || decide (4 < kind) || (decide (kind = 0) && decide (c.launchQs.length ≤ ix)) || (decide (kind ≠ 0 ∧ kind ≠ 2) && decide (ix ≠ 0))
    || (decide (kind ≠ 1) && decide (bitsAt v 13 3 ≠ 0))

/-- R145: an item put into a queue, and whether it was dropped: a ring takes none behind entries that are held for it. [Assumption 47: DEDUCED.] -/
def State.enqueueItem (s : State) (ctx v : Nat) (bs : List Byte) : State × Bool :=
  let kind := bitsAt v 16 4
  if kind = 0 then
    let r := s.enqueueLaunch ctx (bitsAt v 0 13) bs
    (r.1, !r.2)
  else
    let r := { Record.ofBytes bs with ctx := ctx }
    let r := if kind = 1 then { r with prio := bitsAt v 13 3 } else r
    let park := decide (kind = 4)
    match s.newRecord ctx 0 0 0 r with
    | none => (s, true)
    | some (slot, s') =>
      if 3 ≤ kind then
        if s'.ringFull ctx park ∨ (s.ctx ctx).held.any fun h => h.park == park then (s, true)
        else (s'.putEntry ctx ⟨park, (s.ctx ctx).recVa slot, 0, 0xFFFF, []⟩, false)
      else if ((s.ctx ctx).kernel r.kslot).isNone then (s'.setAside ctx slot false 2, false)
      else if kind = 1 then ((s'.readyAppend ctx slot).wakeCtx ctx, false)
      else ((s'.tileAppend ctx (bitsAt v 0 13) slot).wakeCtx ctx, false)

/-- R145 `enq`. -/
def execEnq (t : Trig) (s : State) : Host.Outcome State Fault Refusal :=
  s.trigger 9 (capNeed true false) t fun c o s =>
    let x := s.strand c.tile c.strand
    let v := (low64 o.t).toNat
    if enqRefused (s.ctx x.ctx) v then some (.error (s.illegalDest c 0))
    else if bitsAt v 16 4 = 2 ∧ !(s.ctx x.ctx).holds (bitsAt v 0 13) then some (.error (s.violation c (low64 o.t)))
    else if !s.moduleRelease c then none
    else
      let a := alignTo 6 (low64 o.o0)
      let ps : List Piece := (List.range 4).map fun g => (a.1 + 16 * g, 16)
      let f := accessFlags a.2 ps granuleBase
      let r := s.enqueueItem x.ctx v (s.readPieces c ps)
      some (.ok (r.1.flagged c (f.1 ||| flagIf r.2 flagSAT, f.2, ps)))

/-! ### A run begins (R66, R194, R222) -/

/-- R66: the registers of a run from a dispatched record. -/
def runRegs (r : Record) (kslot : Nat) : SMap Wide :=
  let regs := (List.range 4).foldl (fun m j => if j ≤ r.nc then SMap.setD m 0 (0x080 + j) (BitVec.ofNat 1024 (r.c.getD j 0)) else m) Strand.reset.regs
  SMap.setD regs 0 codeKsel (BitVec.ofNat 1024 kslot)

/-- R134: the group barrier of a record. -/
def State.recordBarrier (s : State) (ctx slot : Nat) : W64 :=
  let g := ((s.ctx ctx).slotInfo slot).gang
  if g = 0 then 0
  else match SMap.lookup s.gangs (g - 1) with
    | some q => if q.bar = 0 then 0 else pinnedHandle 0 q.bar
    | none => 0

/-- R66, R194: a strand made resident with a record. -/
def State.beginRun (s : State) (q : Sent) (h : KHeader) : State :=
  let r := s.record q.ctx q.slot
  let (run, s) := s.newId
  let idx := r.idx
  (s.modStrand q.tile q.strand fun old => { Strand.reset with
    st := .resident, regs := runRegs r r.kslot, wid := BitVec.ofNat 64 r.wid, metaWord := BitVec.ofNat 64 r.head, widths := h.widths
    recAddr := (s.ctx q.ctx).recVa q.slot, run := run, rsv := old.rsv, launch := ((s.ctx q.ctx).slotInfo q.slot).launch, ctx := q.ctx, kslot := r.kslot
    prio := r.prio, gbar := s.recordBarrier q.ctx q.slot, pins := q.pins, extents := q.extents, extSlots := q.slots
    stream := handlerStream 0 idx, ckpt := some (firstCheckpoint (s.core q.tile).stepc idx) }).poke q.tile

/-! ### The code load (R117, R118, R275) -/

/-- R118: the bytes of a slate as words. -/
def slateOf (cid : Nat) (bs : List Byte) : Slate :=
  { Slate.reset with valid := true, cid := cid, words := (List.range 512).foldl (fun m k => SMap.setD m 0 k (wordAt bs k)) [] }

/-- The bundles of a code segment. -/
def bundlesOf (n : Nat) (bs : List Byte) : SMap Bundle :=
  (List.range n).map fun i => (i, BitVec.ofNat 192 (leNat ((bs.drop (24 * i)).take 24)))

/-- R117, R118: a kernel installed in a tile from its image. -/
def State.installTile (s : State) (t ctx : Nat) (h : KHeader) (code ft slates handlers : List Byte) : State :=
  let s := if h.ft then s.setMem (memWrite s.mem (tileBase t) ft) else s
  let kept := (List.range 32).foldl (fun (m : SMap Slate) i =>
    if i < h.nslt then SMap.set m i (slateOf h.cid ((slates.drop (0x1000 * i)).take 0x1000)) else SMap.modify m Slate.reset i fun x => { x with valid := false })
    (s.collar t).slates
  (s.modTile t fun y => { y with
    kernel := some (ctx, h), loading := none, code := bundlesOf h.nbun code, nbun := h.nbun
    core := { y.core with parity := [] }
    handlers := if h.caps then (List.range 256).map fun i => leNat ((handlers.drop (2 * i)).take 2) else [] }).modCollar t fun k => { k with slates := kept }

/-- R117: a code load that failed: the record or the capsule that called for it goes to the fault ring. [Assumption 44: DEDUCED.] -/
def State.failLoad (s : State) (o : Operand) (code capCode : Nat) : State :=
  let t := o.tile
  let s := s.modTile t fun y => { y with kernel := none, loading := none, code := [], nbun := 0 }
  let s := s.atTick s.tick 1 .capsuleVisitStart (opTile t)
  if o.flag then s.refuseCapsule t o.node capCode
  else match SMap.lookup s.sends o.id with
    | none => s
    | some q =>
      let s := ({ s with sends := SMap.erase s.sends o.id }.unpinAll q.pins).modStrand q.tile q.strand fun x => { x with sent := false, launch := 0 }
      let s := s.failRecord q.ctx q.slot code
      (s.dropBoost q.ctx (s.record q.ctx q.slot).kslot t).wakeCtx q.ctx

/-- RECORD_ARRIVAL (R66, R194, R222): a dispatched record makes its strand resident once the tile holds its kernel. [Assumption 44: DEDUCED.] -/
def execRecordArrival (s : State) : Host.Outcome State Fault Refusal :=
  let t := s.ev.tile
  s.unlessStopped t .recordArrival fun s =>
    match SMap.lookup s.sends s.ev.id with
    | none => .next s
    | some q =>
      let y := s.tile t
      match y.kernel, y.loading with
      | some (_, h), _ => .next (({ s with sends := SMap.erase s.sends s.ev.id } : State).beginRun q h)
      | none, some _ => .next (s.after 1 .recordArrival s.ev)
      | none, none => match s.headerOf q.ctx q.slot with
        | some h => .next (((s.modTile t fun y => { y with code := [], nbun := 0, loading := some (q.ctx, h) }).later 32 .codeLoadDone s.ev).after 1 .recordArrival s.ev)
        | none => .next (s.failLoad s.ev 2 4)

/-- CODE_LOAD_DONE (R115, R117, R118, R119, R329): the segment, its slates, its format table and its handlers stand in the tile, as the image now has them under the
header captured at install; a kernel that has left its slot meanwhile is not loaded. [Assumption 44: DEDUCED.] -/
def execCodeLoadDone (s : State) : Host.Outcome State Fault Refusal :=
  let o := s.ev
  let t := o.tile
  s.unlessStopped t .codeLoadDone fun s =>
    match (s.tile t).loading with
    | none => .next s
    | some (ctx, h) =>
      if !((s.ctx ctx).kernel h.kslot).any fun k => decide (k.hdr = h) then .next (s.failLoad o 2 4)
      else match s.imageRead (dieOf t) ctx h.codeAt .code 4 (24 * h.nbun), s.imageRead (dieOf t) ctx h.base .read 4 (0x1000 + 0x1000 * h.nslt) with
      | .ok code, .ok image =>
        let s := s.installTile t ctx h code ((image.drop 0x100).take 0x80) (image.drop 0x1000) ((image.drop 0x180).take 0x200)
        .next ((List.range 2).foldl (fun s i => if ((s.tile t).capSlots.getD i none).any fun x => !x.ready then s.checkArrival t i else s) s)
      | .failed c, _ => .next (s.failLoad o c (0x100 + c))
      | _, .failed c => .next (s.failLoad o c (0x100 + c))

/-! ### A run ends (R116, R147, R194, R204, R205, R315) -/

/-- R315: open streams close, and every key is PLAIN and empty. -/
def State.closeStreams (s : State) (t n : Nat) : State :=
  let sources := (s.strand t n).keys.zipIdx.filterMap fun q => match q.1.st with
    | .ring | .closing => q.1.ring.map fun r => { Operand.zero with tile := t, strand := n, node := q.2, id := r.source }
    | _ => none
  (sources.foldl State.producerStops s).modStrand t n fun x => { x with keys := Strand.reset.keys }

/-- R147: a record as its run leaves it. [Assumption 42: DEDUCED.] -/
def Record.leave (r : Record) (e : Ending) (etk st wid : Nat) : Record :=
  { r with prio := r.prio - r.age, age := 0, etk := etk, idx := e.idx, nc := e.nc, c := e.c.map BitVec.toNat, rslot := e.rslot, st := st, wid := wid, link := 0 }

/-- R116, R147: a faulted record keeps what it carried. [Assumption 42: DEDUCED.] -/
def Record.fail (r : Record) (idx etk : Nat) : Record := { r with prio := r.prio - r.age, age := 0, etk := etk, idx := idx, link := 0 }

/-- R204, R365: a record handed with its handle to the cell's home. -/
def State.deferRecord (s : State) (t n : Nat) (x : Strand) (slot : Nat) (h : W64) : State :=
  let g := ((s.ctx x.ctx).slotInfo slot).gang
  let refused : State := if g = 0 then s.setAside x.ctx slot false 13 else s.failMember (g - 1) x.ctx slot t n 13 x.arrival
  let tg := x.target h 4 16 .both
  let send : State :=
    let at0 := match tg with | .pinned a _ => a | .opened a => a | _ => 0
    let op := match tg with | .opened _ => true | _ => false
    let cp := match tg with | .pinned _ c => c | _ => false
    let r : Req := { tile := t, strand := n, run := x.run, seq := 0, slot := 0, level := 0, lid := none, kind := .defer slot, ctx := x.ctx, handle := h,
                     opened := op, va := at0, pa := at0, off := 0, len := 16, comp := cp, repl := false, data := [], cmp := 0, rel := false, scope := 0, stage := 0, spread := 0, own := false, fences := [] }
    (s.addReq r).2
  match tg with
  | .pinned a _ => if synHome a then send else refused
  | .opened _ => send
  | _ => refused

/-- R147, R148, R204, R205: what becomes of the record of a run that has ended. [Assumption 42: DEDUCED.] -/
def State.endRecord (s : State) (t n : Nat) (x : Strand) (e : Ending) : State :=
  let ctx := x.ctx
  let slot := (x.recAddr - (s.ctx ctx).poolBase) / 64
  let r := s.record ctx slot
  let g := ((s.ctx ctx).slotInfo slot).gang
  match e.kind with
  | .requeue => (s.writeRecord ctx slot (r.leave e s.etk recReady r.wid)).makeReady ctx slot
  | .regroup wid kslot => ((s.writeRecord ctx slot { r.leave e s.etk recReady wid.toNat with kslot := kslot }).placeAfresh ctx slot).makeReady ctx slot
  | .future h => (s.writeRecord ctx slot (r.leave e s.etk recDeferred r.wid)).deferRecord t n x slot h
  | .park => (s.writeRecord ctx slot (r.leave e s.etk recParked r.wid)).setAside ctx slot true 0xFFFE
  | .fault code =>
    let s := s.writeRecord ctx slot (r.fail e.idx s.etk)
    let s := if g = 0 then s else s.memberDrop (g - 1) t x.arrival
    let s := s.setAside ctx slot false code
    if g = 0 then s else s.memberEnds (g - 1) t n
  | _ =>
    let s := s.modCtx ctx fun c => { c with pool := SMap.erase c.pool slot }
    let s := s.leaveLaunch x.launch 1
    if g = 0 then s else s.memberEnds (g - 1) t n

/-- R194, R204, R427, R433: a run that has ended whose landings are resolved and whose accesses are performed, and the reply to whose arrival at its group's barrier
has come, which the dispatcher's drop is judged against (R372, R385). [Assumption 48: DEDUCED.] -/
def State.releasable (s : State) (t n : Nat) : Bool :=
  let x := s.strand t n
  decide (x.st = .suspended) && x.ending.isSome && !((s.core t).lands.any fun a => decide (a.strand = n) && a.frozen.isNone)
    && !(s.reqs.any fun p => decide (p.2.tile = t) && decide (p.2.strand = n) && decide (p.2.run = x.run))
    && !(s.bursts.any fun p => decide (p.2.tile = t) && (decide (p.2.strand = n) || (decide (p.1 < x.endIds) && (decide (p.2.strand = 8) || decide (p.2.strand = 16 + n)))))
    && !s.halfSpread (dieOf t) x.endIds false && decide ((s.core t).issuing ≠ some n)
    && !(decide (x.gbar ≠ 0) && x.arrival.any fun a => a.pending && decide (a.bar = handlePa x.gbar))

/-- STRAND_RELEASE (R116, R130, R147, R151, R194, R344, R410, R462): the gated stores commit, the pins are released, the record is written back or freed, and the
strand is FREE. [Assumption 48: DEDUCED.] -/
def execStrandRelease (s : State) : Host.Outcome State Fault Refusal :=
  let t := s.ev.tile
  let n := s.ev.strand
  if !s.releasable t n then .next s
  else
    let s := s.commitStores t n
    let x := s.strand t n
    let s := ((s.unpinAll x.pins).withdrawClaim t n).closeStreams t n
    let ending := x.ending.getD ⟨.exit, 0, [], 0, 0⟩
    let free (s : State) : State := (s.modStrand t n fun y => { Strand.reset with rsv := y.rsv, sent := y.sent, arrival := y.arrival }).modCore t
      fun co => { co with lands := co.lands.filter fun a => decide (a.strand ≠ n) }
    match x.capVisit with
    | some slot => .next (((free s).leaveVisit t slot x.ctx ending.kind).dropBoost x.ctx x.kslot t)
    | none =>
      let s := s.endRecord t n x ending
      let s := free s
      .next ((s.dropBoost x.ctx x.kslot t).wakeCtx x.ctx)

/-! ### A launch completes (R119, R120) -/

/-- R120: the completion cell filled; a cell that cannot be filled stays as it is, and its context's owner is told (R358, R477). [Assumption 42: DEDUCED.] -/
def State.fillCompletion (s : State) (l : Launch) : State :=
  match l.cell with
  | none => s
  | some pa =>
    if !synHome pa then s
    else match s.physRead pa 16 with
      | none => s.modCtx l.ctx fun c => { c with lastErr := (pa, errorCode pa) }
      | some bs =>
        if (Cell.ofBytes bs).fst = 3 then s.modCtx l.ctx fun c => { c with lastErr := (pa, 2) }
        else (s.fill pa l.exits l.ctx false (Cell.ofBytes bs)).2.2

/-- LAUNCH_COMPLETION (R119, R120): the cell is filled, then the message sent, and the kernel has one live launch less. -/
def execLaunchCompletion (s : State) : Host.Outcome State Fault Refusal :=
  let i := s.ev.id
  match s.launch i with
  | none => .next s
  | some l =>
    if l.gen ∨ l.recs ≠ 0 ∨ (s.spawns.any fun e => decide (e.launch = i + 1)) then .next s
    else
      let s := { s with launches := SMap.erase s.launches i, affinity := s.affinity.filter fun a => a.launch ≠ i + 1 }
      let s := s.fillCompletion l
      let s := s.modCtx l.ctx fun c => { c with done := c.done + 1 }
      match (s.ctx l.ctx).kernel l.kslot with
      | none => .next s
      | some k =>
        let s := if k.hdr.msie then s.sendMsix k.master k.hdr.msiv else s
        if !l.counted then .next s
        else .next (s.modKernel l.ctx l.kslot fun k => { k with live := k.live - 1, st := if k.live ≤ 1 then .installed else k.st })

end Sys2Proof.Machine
end

