-- ==== Sys2Proof/Machine/Image.lean ====
section
/-! DEFINITION. Images of contexts (R395-R399): their layout in memory, the identifiers that a relocation rewrites, and the restored tile. -/

namespace Sys2Proof.Machine

/-! ### Layout (R395, R396) -/

/-- R388: the module cluster at a column and row of the grid, by a tile of it. -/
def gridTile (gx gy : Nat) : Nat := tileAt gx gy

/-- R395: the tile of section k. -/
def Region.section (r : Region) (k : Nat) : Nat :=
  gridTile (16 * (r.ox + k / 256 % r.w) + k % 16) (16 * (r.oy + k / 256 / r.w) + k % 256 / 16)

/-- The tiles of a region in the order of their sections. -/
def Region.sections (r : Region) : List Nat := (List.range (256 * r.w * r.h)).map r.section

def sectionSize : Nat := 0x28_0000
def sectionAt (va k : Nat) : Nat := va + 0x2_0000 + k * sectionSize
def pageBytes : Nat := 0x1_0000

def nodeBytes (nd : Node) : List Byte := (List.range 8192).flatMap fun i => leBytes 4 (SMap.get nd.store 0 i)

/-- R275, R395: a slate as an image holds it: in a word that R271 reserves, whether it is valid (bit 63) and its `CID`. [Assumption 50: DEDUCED.] -/
def slateBytes (x : Slate) : List Byte :=
  (List.range 512).flatMap fun i => leBytes 8 (if i = 1 then (if x.valid then 2 ^ 63 else 0) + x.cid % 256 else SMap.get x.words 0 i)

/-- R395: a page of the state area, whose layout the manual leaves to the image's version. [Assumption 50: DEDUCED.] -/
def statePage (serial k j : Nat) : List Byte := (List.range pageBytes).map fun i => Config.stateByte serial k (pageBytes * j + i)

/-- R395: a tile section, page by page: scratchpad, node stores, slate store, state area. [Assumption 50: DEDUCED.] -/
def State.sectionPages (s : State) (serial k t : Nat) : List (List Byte) :=
  ((List.range 8).map fun j => memRead s.mem (tileBase t + pageBytes * j) pageBytes)
    ++ ((List.range 26).map fun j => nodeBytes (s.node t (2 * j)) ++ nodeBytes (s.node t (2 * j + 1)))
    ++ ((List.range 2).map fun j => (List.range 16).flatMap fun i => slateBytes ((s.collar t).slate (16 * j + i)))
    ++ (List.range 4).map fun j => statePage serial k j

/-- R396: the header, its checksum aside. -/
def imageHeader (ctx : Nat) (r : Region) (ftick : Nat) : List Byte :=
  leBytes 8 (0x5A46 * 2 ^ 48 + 2 ^ 40 + ctx % 4096 * 2 ^ 28 + (r.w - 1) % 8 * 2 ^ 19 + (r.h - 1) % 4 * 2 ^ 17 + r.ox % 8 * 2 ^ 14 + r.oy % 4 * 2 ^ 12)
    ++ leBytes 8 ftick ++ List.replicate (0x1000 - 16) 0

/-- R395: the header and the region area. -/
def headPages (serial : Nat) (header : List Byte) : List (List Byte) :=
  let area := header ++ (List.range 0x1_F000).map fun i => Config.stateByte serial (2 ^ 20) i
  [area.take pageBytes, area.drop pageBytes]

def State.writePages (s : State) (ctx va : Nat) (pages : List (List Byte)) : State :=
  pages.zipIdx.foldl (fun s p => s.ctxWrite ctx (va + pageBytes * p.2) p.1) s

/-- The sum modulo 2^64 of 8-byte words. -/
def wordSum (bs : List Byte) : Nat := (bs.mapIdx fun i b => b.toNat * 256 ^ (i % 8)).foldl (· + ·) 0 % 2 ^ 64

/-- R396: the sum of every word of an image of n tiles but `ESUM`. -/
def State.imageSum (s : State) (ctx va n : Nat) : Nat :=
  let all := (List.range (2 + 40 * n)).foldl (fun sum i => sum + wordSum (s.imageBytes ctx (va + pageBytes * i) pageBytes)) 0
  (all + 2 ^ 64 - leNat (s.imageBytes ctx (va + 0x10) 8)) % 2 ^ 64

/-- R397: the image of a region written. [Assumption 50: DEDUCED.] -/
def State.writeImage (s : State) (ctx va serial : Nat) (r : Region) : State :=
  let s := r.sections.zipIdx.foldl (fun s p => s.writePages ctx (sectionAt va p.2) (s.sectionPages serial p.2 p.1)) s
  let s := s.writePages ctx va (headPages serial (imageHeader ctx r (s.ctx ctx).ftick))
  s.ctxWrite ctx (va + 0x10) (leBytes 8 (s.imageSum ctx va (256 * r.w * r.h)))

/-! ### The checks of a restore (R399) -/

/-- R399: the code with which a bind refuses an image, 0 for none. An image that cannot be read has no mark. [Assumption 51: DEDUCED.] -/
def State.imageRefusal (s : State) (ctx va : Nat) (r : Region) : Nat :=
  match s.ctxRead ctx va 24 with
  | none => 1
  | some hd =>
    let w := wordAt hd 0
    if bitsAt w 40 24 ≠ 0x5A4601 then 1
    else if wordAt hd 2 ≠ s.imageSum ctx va (256 * (bitsAt w 19 3 + 1) * (bitsAt w 17 2 + 1)) then 2
    else if bitsAt w 28 12 ≠ ctx then 3
    else if bitsAt w 19 3 + 1 ≠ r.w ∨ bitsAt w 17 2 + 1 ≠ r.h then 4
    else 0

/-! ### Relocation (R399) -/

/-- Where a tile of one region stands in another of the same shape. -/
def moveTile (a b : Region) (t : Nat) : Nat :=
  if a.holds t then tileAt (tileGx t - 16 * a.ox + 16 * b.ox) (tileGy t - 16 * a.oy + 16 * b.oy) else t

/-- A die number: that of the first cluster of the old region on it. -/
def moveDie (a b : Region) (d : Nat) : Nat :=
  match (List.range 4).find? fun k => a.holds (d * 1024 + k / 2 * 512 + k % 2 * 16) with
  | some k => dieOf (moveTile a b (d * 1024 + k / 2 * 512 + k % 2 * 16))
  | none => d

/-- A producer's name (R301) and a producer identifier (R310). -/
def moveSource (mv : Nat → Nat) (i : Nat) : Nat := if 2 ^ 64 ≤ i then portSource (mv ((i - 2 ^ 64) / 4)) (i % 4) else i
def movePid (mv : Nat → Nat) (p : Nat) : Nat := mv (p / 8) * 8 + p % 8

/-- The stops of a capsule: tiles of VISIT and RETURN, dies of MEET. -/
def moveCapsule (a b : Region) (bs : List Byte) : List Byte :=
  (List.range 12).foldl (fun bs i =>
    let d := stopDest bs i
    let v := match stopKind bs i with
      | 0 => moveTile a b d
      | 3 => moveTile a b d
      | 1 => moveDie a b (d / 1024) * 1024 + d % 1024
      | _ => d
    setHead bs (9 + 2 * i) 45 13 v) bs

/-- The operand of an event that waits. -/
def moveOp (a b : Region) (i : Instr) (o : Operand) : Operand :=
  let mv := moveTile a b
  let word (o : Operand) : Operand := { o with word := BitVec.ofNat 64 (mv o.word.toNat) }
  let o := { o with tile := mv o.tile }
  match i with
  | .freedSlotNotice => if o.arg = 8 then { o with id := moveSource mv o.id } else word { o with id := moveSource mv o.id }
  | .closeAck => { o with id := moveSource mv o.id }
  | .regionLoadRequest => { o with node := mv o.node }
  | .regionLoadReport => word o
  | .streamBurstArrival => word o
  | .slateLoadDone => if o.arg = 0 then o else { o with arg := mv (o.arg - 1) + 1 }
  | .keyCredit => { o with id := movePid mv o.id }
  | .sendDelivery => { o with node := mv o.node }
  | .walkBurst => if (o.arg = 4 ∨ o.arg = 5) ∧ o.asksScratch then { o with word := BitVec.ofNat 64 (mv (o.word.toNat / 2 ^ 20) * 2 ^ 20 + o.word.toNat % 2 ^ 20) } else o
  | .capsuleArrival => { o with bytes := moveCapsule a b o.bytes }
  | .capsuleReturnDelivery => { o with bytes := moveCapsule a b o.bytes }
  | .meetArrival => { o with bytes := moveCapsule a b o.bytes }
  | _ => o

def Key.move (mv : Nat → Nat) (k : Key) : Key :=
  { k with entries := k.entries.map fun e => { e with pid := movePid mv e.pid }
           ring := k.ring.map fun r => { r with source := moveSource mv r.source } }

def Blk.move (mv : Nat → Nat) (b : Blk) : Blk := { b with peer := mv b.peer }

def Node.move (a b : Region) (nd : Node) : Node :=
  { nd with walk := nd.walk.map fun w => { w with blk := w.blk.move (moveTile a b) }
            stopping := nd.stopping.map (moveSource (moveTile a b)) }

def Collar.move (a b : Region) (k : Collar) : Collar :=
  let mv := moveTile a b
  { k with nodes := k.nodes.map fun p => (p.1, p.2.move a b)
           load := k.load.map fun l => if l.coord = 0 then l else { l with coord := mv (l.coord - 1) + 1 }
           regions := k.regions.map fun g => { g with left := g.left.map mv, tiles := g.tiles.map mv }
           queued := k.queued.map fun o => moveOp a b .regionLoadRequest o }

def Packet.move (a b : Region) (p : Packet) : Packet :=
  let mv := moveTile a b
  { p with src := mv p.src, at_ := mv p.at_, dst := mv p.dst, more := p.more.map mv, op := moveOp a b p.act p.op }

/-- R399: every tile identifier and die number that a tile holds, rewritten. -/
def Tile.move (a b : Region) (y : Tile) : Tile :=
  let mv := moveTile a b
  { y with strands := y.strands.map fun p => (p.1, { p.2 with keys := p.2.keys.map (Key.move mv) })
           chan := y.chan.map fun q => (q.1, moveOp a b q.1 q.2)
           collar := y.collar.move a b
           capWait := y.capWait.map fun o => moveOp a b .capsuleArrival o
           capHeld := y.capHeld.map fun p => p.move a b }

def Place.move (mv : Nat → Nat) : Place → Place
  | .scratch t x => .scratch (mv t) x
  | p => p

def Shape.move (mv : Nat → Nat) (h : Shape) : Shape := { h with place := h.place.move mv, tiles := h.tiles.map mv }

def CmdKind.move (mv : Nat → Nat) : CmdKind → CmdKind
  | .copy x y => .copy (x.move mv) (y.move mv)
  | .gather rows y => .gather { rows with src := rows.src.move mv } (y.move mv)
  | .stream x y => .stream (x.move mv) (y.move mv)
  | .send t x dk data => .send (mv t) x dk data

/-- R399: what the hardware holds of a context outside its tiles. -/
def State.moveCtx (s : State) (ctx : Nat) (a b : Region) : State :=
  let mv := moveTile a b
  let mine := (s.launches.filter fun p => decide (p.2.ctx = ctx)).map fun p => p.1 + 1
  let place (h : Choice) : Choice :=
    if h.cluster then { h with place := clusterOf (mv (h.place / 4 * 1024 + h.place / 2 % 2 * 512 + h.place % 2 * 16)) } else { h with place := moveDie a b h.place }
  let s := s.modCtx ctx fun c => { c with
    pool := c.pool.map fun p => (p.1, { p.2 with tile := mv p.2.tile })
    tileQ := c.tileQ.foldl (fun m p => SMap.set m (mv p.1) p.2) []
    held := c.held.map fun e => { e with cap := moveCapsule a b e.cap } }
  { s with
    cmds := s.cmds.map fun p => (p.1, if p.2.ctx = ctx then { p.2 with tile := mv p.2.tile, kind := p.2.kind.move mv } else p.2)
    streams := s.streams.map fun p => (p.1, if p.2.ctx = ctx then { p.2 with tile := mv p.2.tile, blk := p.2.blk.move mv } else p.2)
    reqs := s.reqs.map fun p => (p.1, if p.2.ctx = ctx then { p.2 with tile := mv p.2.tile } else p.2)
    sends := s.sends.map fun p => (p.1, if p.2.ctx = ctx then { p.2 with tile := mv p.2.tile } else p.2)
    waiters := s.waiters.map fun w => if w.ctx = ctx then { w with tile := mv w.tile } else w
    meets := s.meets.map fun m => if m.ctx = ctx then { m with forks := m.forks.map fun f => { f with head := moveCapsule a b f.head } } else m
    spawns := s.spawns.map fun e => if e.ctx = ctx then { e with die := moveDie a b e.die } else e
    launches := s.launches.map fun p => (p.1, if p.2.ctx = ctx then { p.2 with choices := p.2.choices.map place } else p.2)
    affinity := s.affinity.map fun f => if mine.contains f.launch then { f with die := dieOf (mv f.tile), tile := mv f.tile } else f }

/-! ### The restored tile -/

/-- R395: the contents that an edited state area gives a tile: nothing is known of them. -/
opaque editedTile : Nat → Tile → Tile

/-- R395: a key with undefined contents but for the producer that fills its ring. [Assumption 50: DEDUCED.] -/
def Key.edited (own free : Key) : Key := { free with ring := own.ring }

/-- R395: a strand with undefined contents: its registers, keys, arrival record and handler state are free; its record, its run and its context stay. [Assumption 50: DEDUCED.] -/
def Strand.edited (own free : Strand) : Strand :=
  { own with
    regs := free.regs, vers := free.vers, flagBase := free.flagBase, oarBase := free.oarBase, flagEvs := free.flagEvs, alarm := free.alarm, splt := free.splt
    log := free.log, causes := free.causes, nw := free.nw, kflt := free.kflt
    keys := own.keys.zipWith Key.edited free.keys
    arrival := own.arrival.map fun a => { a with phase := ((free.arrival.map Arrival.phase).getD 0), pending := free.arrival.any Arrival.pending } }

/-- R395: a collar with undefined contents: its planes, its status and what its nodes and switch boxes hold are free; node stores, slates, the far ends of its streams and
region-wide loads stay. [Assumption 50: DEDUCED.] -/
def Collar.edited (own free : Collar) : Collar :=
  { free with
    nodes := own.nodes.map fun p => (p.1, { SMap.get free.nodes Node.reset p.1 with store := p.2.store, walk := p.2.walk, stopping := p.2.stopping })
    slates := own.slates, load := own.load, regions := own.regions, queued := own.queued, barred := own.barred }

/-- R395: walk engines with undefined contents: what they promise and which of their commands are left. [Assumption 50: DEDUCED.] -/
def Engines.edited (own free : Engines) : Engines :=
  { free with
    queues := own.queues.zipIdx.map fun q => q.1.filter fun i => (free.queues.getD q.2 []).contains i
    fences := own.fences }

/-- R395: a tile with undefined contents that touch no other context: what ties it to its context, and what others count on from it, stays as it was captured. [Assumption 50: DEDUCED.] -/
def Tile.edited (own free : Tile) : Tile :=
  { own with
    core := { own.core with
      latches := free.core.latches, ports := free.core.ports, trn := free.core.trn, pipe := free.core.pipe
      lands := own.core.lands.map fun a => { a with data := (free.core.lands.find? fun b => decide (b.lid = a.lid)).bind Land.data } }
    strands := own.strands.map fun p => (p.1, p.2.edited (SMap.get free.strands Strand.reset p.1))
    array := free.array
    collar := own.collar.edited free.collar
    engines := own.engines.edited free.engines
    chan := own.chan.filter fun q => free.chan.contains q
    capHeld := own.capHeld.filter fun p => free.capHeld.contains p
    counters := free.counters }

/-- 4-byte words of a node store, and 8-byte words of a slate, that are not zero. -/
def storeOf (bs : List Byte) : SMap Nat :=
  (List.range 8192).filterMap fun i => let v := leNat ((bs.drop (4 * i)).take 4); if v = 0 then none else some (i, v)
def wordsOf (bs : List Byte) : SMap Nat :=
  (List.range 512).filterMap fun i => let v := leNat ((bs.drop (8 * i)).take 8); if v = 0 then none else some (i, v)

/-- R399: node stores and slates as an image's section gives them. -/
def State.restoreStores (s : State) (ctx at_ : Nat) (k : Collar) : Collar :=
  let k := (List.range 52).foldl (fun (k : Collar) n =>
    let m := storeOf (s.imageBytes ctx (at_ + 0x8_0000 + 0x8000 * n) 0x8000)
    if m.isEmpty && (SMap.lookup k.nodes n).isNone then k else k.modNode n fun nd => { nd with store := m }) k
  { k with slates := (List.range 32).foldl (fun m i =>
      let ws := wordsOf (s.imageBytes ctx (at_ + 0x22_0000 + 0x1000 * i) 0x1000)
      let mark := SMap.get ws 0 1
      if ws.isEmpty && (SMap.lookup m i).isNone then m else SMap.set m i ⟨mark.testBit 63, mark % 256, SMap.erase ws 1, []⟩) k.slates }

/-- R117, R399: the code store loaded from the kernel's image. -/
def State.restoreCode (s : State) (die : Nat) (y : Tile) : Tile :=
  match y.kernel with
  | none => y
  | some (c, h) => match s.imageRead die c h.codeAt .code 4 (24 * h.nbun) with
    | .ok bs => { y with code := bundlesOf h.nbun bs, nbun := h.nbun }
    | .failed _ => { y with kernel := none, code := [], nbun := 0 }

/-- Whether the state area of a section stands as an eviction wrote it. [Assumption 50: DEDUCED.] -/
def State.areaStands (s : State) (ctx va serial k : Nat) : Bool :=
  (List.range 4).all fun j => s.ctxRead ctx (sectionAt va k + 0x24_0000 + pageBytes * j) pageBytes == some (statePage serial k j)

/-- The image that memory holds: the newest whose state areas all stand, or else the newest of the context. -/
def State.imageAt (s : State) (ctx va n : Nat) : Option (Nat × Image) :=
  let best := s.images.foldl (fun (best : Option (Nat × Image)) p =>
    if p.2.ctx = ctx ∧ ((List.range n).all fun k => s.areaStands ctx va p.1 k) then some p else best) none
  match best with
  | some p => some p
  | none => s.imageOf ctx

/-- R399: one tile section written into its tile. [Assumption 50: DEDUCED.] -/
def State.restoreTile (s : State) (ctx va serial : Nat) (g : Image) (b : Region) (k : Nat) : State :=
  let t := b.section k
  let own := g.tiles.getD k Tile.reset
  let y := if s.areaStands ctx va serial k then own else own.edited (editedTile s.fresh own)
  let s := { s with fresh := s.fresh + 1 }
  let s := (List.range 8).foldl (fun s j => s.setMem (memWrite s.mem (tileBase t + pageBytes * j) (s.imageBytes ctx (sectionAt va k + pageBytes * j) pageBytes))) s
  let y := y.move g.region b
  let y := s.restoreCode (dieOf t) { y with collar := s.restoreStores ctx (sectionAt va k) y.collar, stopped := true }
  let s := { s with tiles := SMap.set s.tiles t y }
  (List.range 2).foldl (fun s i =>
    if (y.capSlots.getD i none).isSome then s.setMem (memWrite s.mem (tileBase t + arrivalBase i) (moveCapsule g.region b (memRead s.mem (tileBase t + arrivalBase i) headSize))) else s) s

/-- R399: group barriers keep their addresses; with a new home die their scope is the module. -/
def State.widenBarriers (s : State) (ctx : Nat) : State :=
  s.gangs.foldl (fun s p =>
    if p.2.ctx = ctx ∧ p.2.bar ≠ 0 then (s.physWrite p.2.bar (leBytes 8 (putBits (s.physWord p.2.bar 8) 28 2 2)) false).1 else s) s

/-- R399: a restore, after its checks. -/
def State.restore (s : State) (ctx va : Nat) (b : Region) : State :=
  let n := 256 * b.w * b.h
  match s.imageAt ctx va n with
  | none => s
  | some (serial, g) =>
    let a := g.region
    let s := (List.range n).foldl (fun s k => s.restoreTile ctx va serial g b k) s
    let s := s.moveCtx ctx a b
    let s := if a.dies.headD 0 = b.dies.headD 0 then s else s.widenBarriers ctx
    g.pending.foldl (fun s e => s.atTick (max e.1 s.tick) e.2.1 e.2.2.1 (moveOp a b e.2.2.1 e.2.2.2)) s

end Sys2Proof.Machine
end

