-- ==== Sys2Proof/Machine/Context.lean ====
section
/-! DEFINITION. Contexts: regions, freeze waves, thaws, evictions, destruction and energy accounts (R388-R402), and the clearing of meet
entries (R345). -/

namespace Sys2Proof.Machine

/-! ### Energy (R401) -/

/-- A sample of one cluster's counter: the difference from the last goes to the context that has run there, and another may run from here on. [Assumption 54: DESIGN CHOICE.] -/
def State.sampleEnergy (s : State) (ctx k : Nat) : State :=
  let c := s.cluster k
  let now := Config.energyCounter k s.tick % 2 ^ 64
  let a := SMap.get s.energy (0, 0) c.ran
  ({ s with energy := SMap.set s.energy c.ran (a.1 + (now + 2 ^ 64 - c.sample) % 2 ^ 64, a.2 + if c.shared then 1 else 0) } : State).modCluster k fun c =>
    { c with sample := now, ran := ctx, shared := false }

/-- Every cluster of a context's region sampled; `ctx` runs there from here on, or 0 none. -/
def State.sampleRegion (s : State) (r : Region) (ctx : Nat) : State := r.clusters.foldl (fun s k => s.sampleEnergy ctx k) s

/-! ### Freeze waves (R391-R394) -/

def State.waveOf (s : State) (ctx : Nat) : Option Wave := s.waves.find? fun w => decide (w.ctx = ctx)
def State.modWave (s : State) (ctx : Nat) (f : Wave → Wave) : State := { s with waves := s.waves.map fun w => if w.ctx = ctx then f w else w }

/-- R391: the pre-emption notice on every strand resident in a region. -/
def State.notifyRegion (s : State) (ctx at_ : Nat) : State :=
  s.tiles.foldl (fun s p =>
    if (s.ctx ctx).holds p.1 then
      ((List.range 8).foldl (fun s n => if (s.strand p.1 n).st = .free then s else s.raiseAsync p.1 n ⟨7, BitVec.ofNat 64 at_, 0, 0⟩) s).poke p.1
    else s) s

/-- A freeze wave to begin at a tick. -/
def State.armWave (s : State) (ctx at_ : Nat) (destroy : Bool) : State :=
  ({ s with waves := s.waves ++ [⟨ctx, at_, false, [], destroy⟩] } : State).atTick at_ 0 .freezeStart (opId ctx)

/-- CTX_FREEZE (R390, R391): the wave begins at F; a second freeze before F raises a second notice, and F stands. -/
def execCtxFreeze (s : State) : Host.Outcome State Fault Refusal :=
  s.command .ctxFreeze true [mask64, mask64] fun c s =>
    let n := c.arg 1
    let lead := c.arg 2
    if !ctxNumber n ∨ 2 ^ 24 < lead then s.finish 4 0 []
    else if (s.ctx n).st ≠ .running then s.finish 3 0 []
    else match s.waveOf n with
      | none =>
        let s := s.armWave n (s.tick + lead) false
        (if lead = 0 then s else s.notifyRegion n (s.tick + lead)).keepBusy
      | some w => (if w.begun then s else s.notifyRegion n w.at_).keepBusy

/-- FREEZE_START (R392): dispatch to the region stops, and a marker goes to each of its tiles. [Assumption 52: DEDUCED.] -/
def execFreezeStart (s : State) : Host.Outcome State Fault Refusal :=
  let n := s.ev.id
  match s.waveOf n with
  | none => .next s
  | some w =>
    if w.begun then .next s
    else
      let c := s.ctx n
      let s := (s.modCtx n fun c => { c with waving := true }).modWave n fun w => { w with begun := true, left := c.tiles }
      .next (c.tiles.foldl (fun s t => s.send vnConfig n (edgeTile c.home) t .freezeMarker (opTileId t n)) s)

/-- Timers taken out of the agenda. -/
def State.cancelTimer (s : State) (test : Nat × Nat × Instr × Operand → Bool) : State := { s with agenda := s.agenda.filter fun e => !test e }

/-- R392, R393: a tile stops at its step boundary; capsules of its context in its router are channel state, and so is what is left of the timer of
one that waits for a slot. -/
def State.stopTile (s : State) (t ctx : Nat) : State :=
  if (s.tile t).stopped then s
  else
    let mine (p : Packet) : Bool := decide (p.at_ = t) && decide (p.vn = vnCapsule) && !p.carrier && p.queued && decide (p.sent = 0) && decide (p.ctx = ctx)
    let timer (e : Nat × Nat × Instr × Operand) : Bool := decide (e.2.2.1 = .capsuleParkTimeout) && decide (e.2.2.2.arg = 3) && decide (e.2.2.2.tile = t)
    let caps := s.pkts.filter fun p => mine p.2
    let left := (s.agenda.filter timer).map fun e => (e.2.2.1, ({ e.2.2.2 with word := BitVec.ofNat 64 (e.1 - s.tick) } : Operand))
    ((caps.foldl (fun s p => (s.dropPacket p.1 p.2).burstDropped p.2) s).cancelTimer timer).modTile t fun y =>
      { y with stopped := true, stoppedAt := s.tick, capHeld := y.capHeld ++ caps.map fun p => { p.2 with burst := none }, chan := y.chan ++ left }

/-- FREEZE_MARKER (R392). [Assumption 52: DEDUCED.] -/
def execFreezeMarker (s : State) : Host.Outcome State Fault Refusal :=
  let t := s.ev.tile
  let n := s.ev.id
  let s := (s.stopTile t n).modWave n fun w => { w with left := w.left.filter fun u => u ≠ t }
  .next (if (s.waveOf n).any fun w => w.begun && w.left.isEmpty then s.once s.tick 0 .freezeComplete (opId n) else s)

/-- R394: whether a burst or a packet of a context is still on its way in a die's mesh; a request counts until its reply is delivered. [Assumption 52: DEDUCED.] -/
def State.underWay (s : State) (ctx : Nat) : Bool :=
  (s.bursts.any fun b => !b.2.done && !b.2.zport && (s.ctx ctx).holds b.2.tile) || (s.pkts.any fun p => decide (p.2.ctx = ctx) || (decide (p.2.ctx = 0) && (s.ctx ctx).holds p.2.dst)) || s.reqs.any fun p => decide (p.2.ctx = ctx) && decide (p.2.stage ≠ 0)

/-- R462: every claim of a context's clusters withdrawn; the dispatcher's own that are on their way to the arbiter count no more. -/
def State.withdrawAll (s : State) (ctx : Nat) (r : Region) : State :=
  let s := s.cancel fun i o => decide (i = .boostClaimArrival) && o.flag && decide (o.id = ctx)
  let s := r.clusters.foldl (fun s k =>
    let gone := (s.cluster k).claims.filter fun q => decide (q.ctx = ctx)
    let s := gone.foldl (fun s q => s.sendClaim
      { Operand.zero with tile := q.tile, strand := q.strand, node := k, id := q.ctx, arg := q.kslot, flag := false }) s
    s.modCluster k fun c => { c with claims := c.claims.filter fun q => q.ctx ≠ ctx }) s
  { s with tiles := s.tiles.map fun p =>
      (p.1, if r.holds p.1 then { p.2 with strands := p.2.strands.map fun q => (q.1, { q.2 with claims := false }) } else p.2) }

/-! ### What a context leaves behind (R390, R397, R402) -/

/-- The events that act within one tile, and so belong to the context that runs there. -/
def tileEvents : List Instr :=
  [.bundleReloadDone, .cabortComplete, .capsuleArrival, .capsuleReturnDelivery, .capsuleVisitStart, .codeLoadDone, .parityRepairDone, .slateLoadDone,
   .walkCommandStart, .walkBurst, .orderingToken, .doneToken, .streamBurstArrival, .copyDelivery, .sendDelivery, .keyCredit, .freedSlotNotice, .closeAck,
   .promiseWatchExpiry, .landingDataArrival, .regionLoadRequest, .regionLoadReport, .regionCommit, .regionWithhold, .barrierWake, .recordArrival,
   .pageFaultReport]

def Region.owns (r : Region) (i : Instr) (o : Operand) : Bool := tileEvents.contains i && r.holds o.tile

/-- The events on their way to a region's tiles, wherever they wait: in the agenda, for a page walk, or for a page. [Assumption 52: DEDUCED.] -/
def State.pendingOf (s : State) (r : Region) : List (Nat × Nat × Instr × Operand) :=
  (s.agenda.filter fun e => r.owns e.2.2.1 e.2.2.2)
    ++ (s.walks.flatMap fun p => p.2.waiters.filter fun q => r.owns q.1 q.2).map (fun q => (s.tick, 0, q.1, q.2))
    ++ (s.held.filter fun q => r.owns q.2.1 q.2.2).map fun q => (s.tick, 0, q.2.1, q.2.2)

def State.dropPending (s : State) (r : Region) : State :=
  { s with agenda := s.agenda.filter fun e => !r.owns e.2.2.1 e.2.2.2
           walks := s.walks.map fun p => (p.1, { p.2 with waiters := p.2.waiters.filter fun q => !r.owns q.1 q.2 })
           held := s.held.filter fun q => !r.owns q.2.1 q.2.2 }

/-- A tile whose cluster has been released: nothing of a context runs in it; stores, weights and slates keep their bits. [Assumption 53: DEDUCED.] -/
def Tile.released (y : Tile) : Tile :=
  { Tile.reset with
    core := { Core.reset with stepc := y.core.stepc, trn := y.core.trn, parity := y.core.parity }
    gated := y.gated, gatedAt := y.gatedAt, quiet := y.quiet, wakeAt := y.wakeAt, counters := y.counters
    array := { y.array with inside := [], swaps := [], lastIn := none, credits := Arr.reset.credits }
    collar := { Collar.reset with
      slates := y.collar.slates, nodes := y.collar.nodes.map fun p => (p.1, { Node.reset with store := p.2.store }) }
    capCount := y.capCount, capSeq := y.capSeq }

/-- R390: the clusters of a region released. [Assumption 53: DEDUCED.] -/
def State.releaseRegion (s : State) (r : Region) : State :=
  { s with tiles := s.tiles.map fun p => (p.1, if r.holds p.1 then p.2.released else p.2) }

/-- Every pin that a context's tiles and its records on their way hold. -/
def State.pinsOf (s : State) (ctx : Nat) (tiles : List Tile) : List Nat :=
  (tiles.flatMap fun y => y.strands.flatMap fun p => p.2.pins) ++ (s.sends.filter fun p => decide (p.2.ctx = ctx)).flatMap fun p => p.2.pins

/-- R119, R138, R333, R402: a context destroyed. [Assumption 53: DEDUCED.] -/
def State.destroy (s : State) (ctx : Nat) : State :=
  let c := s.ctx ctx
  let image := (s.imageOf ctx).map Prod.snd
  let tiles := match c.region with
    | some r => (s.tiles.filter fun p => r.holds p.1).map Prod.snd
    | none => (image.map fun g => g.tiles).getD []
  let s := s.unpinAll (s.pinsOf ctx tiles)
  let s := match c.region with
    | some r => ((s.sampleRegion r 0).dropPending r).releaseRegion r
    | none => s
  let gone := (s.launches.filter fun p => decide (p.2.ctx = ctx)).map fun p => p.1 + 1
  let bars := (s.gangs.filter fun p => decide (p.2.ctx = ctx)).map fun p => p.2.bar
  let s := (s.pkts.filter fun p => decide (p.2.ctx = ctx) && decide (p.2.vn = vnCapsule)).foldl (fun s p => (s.dropPacket p.1 p.2).burstDropped p.2) s
  let s := s.cancel fun i o => decide (i = .fillWalkStep) && decide (o.id = ctx)
  let s := s.modCtx ctx fun c => { c with
    st := .destroyed, region := none, waving := false, held := [], pool := [], ready := List.replicate 8 [], tileQ := [], kernels := []
    launchQs := c.launchQs.map fun q => { q with cidx := q.pidx } }
  State.wakeGangs { s with
    launches := s.launches.filter fun p => p.2.ctx ≠ ctx
    gangs := s.gangs.filter fun p => p.2.ctx ≠ ctx
    barBusy := s.barBusy.filter fun b => !bars.contains b
    barMarks := s.barMarks.filter fun p => !bars.contains p.1
    spawns := s.spawns.filter fun e => e.ctx ≠ ctx
    sends := s.sends.filter fun p => p.2.ctx ≠ ctx
    affinity := s.affinity.filter fun a => !gone.contains a.launch
    cmds := s.cmds.filter fun p => p.2.ctx ≠ ctx
    streams := s.streams.filter fun p => p.2.ctx ≠ ctx
    reqs := s.reqs.filter fun p => p.2.ctx ≠ ctx
    meets := s.meets.filter fun m => m.ctx ≠ ctx
    waiters := s.waiters.filter fun w => w.ctx ≠ ctx
    images := s.images.filter fun p => p.2.ctx ≠ ctx
    waves := s.waves.filter fun w => w.ctx ≠ ctx }

/-- FREEZE_COMPLETE (R394, R401, R462): every tile has stopped and no packet of the context is under way; the context is FROZEN, or destroyed by the
command that waits for that (R402). [Assumption 52: DEDUCED.] -/
def execFreezeComplete (s : State) : Host.Outcome State Fault Refusal :=
  let n := s.ev.id
  match s.waveOf n, (s.ctx n).region with
  | some w, some r =>
    if !w.begun || !w.left.isEmpty then .next s
    else if s.underWay n then .next (s.after 1 .freezeComplete (opId n))
    else
      let s := (s.withdrawAll n r).sampleRegion r 0
      let s := s.modCtx n fun c => { c with st := .frozen, waving := false, ftick := s.tick }
      let s := { s with waves := s.waves.filter fun w => w.ctx ≠ n }
      let s := s.finishWaiting (fun c => decide (c.opcode = 0x0012) && decide (c.arg 1 = n)) 0 0 []
      .next (if w.destroy then (s.destroy n).finishHeld (fun c => decide (c.opcode = 0x0015) && decide (c.arg 1 = n)) 0 0 [] else s)
  | _, _ => .next s

/-! ### Thaw (R398) -/

/-- R398: a captured capsule back in its router, its timer at the count at which it stopped; it leaves in captured order, before any packet that enters the router later. [Assumption 38: DEDUCED.] -/
def State.releaseCapsule (s : State) (d : Nat) (p : Packet) : State :=
  let (i, s) := s.newId
  let head := p.headAt.map (· + d)
  let (b, s) := if p.act = .capsuleReturnDelivery ∧ dieOf p.at_ ≠ dieOf p.dst then
      let r := s.newBurst (dieOf p.at_) (dieOf p.dst) p.src .other 0 p.act p.op
      (some r.1, r.2)
    else (none, s)
  let s := ({ s with pkts := SMap.set s.pkts i { p with burst := b, ready := s.tick, since := p.since + d, headAt := head, kept := some i } } : State).atTick s.tick 0 .routerForward (opId i)
  match head with
  | some h => s.atTick (h + 65536) 0 .capsuleParkTimeout { opId i with arg := 1, word := BitVec.ofNat 64 h }
  | none => s.markHead p.buffer

/-- Ticks from which a timer counts, moved by the length of the freeze. [Assumption 38: DEDUCED.] -/
def Tile.resume (y : Tile) (d : Nat) : Tile :=
  { y with
    stopped := false, chan := [], capHeld := [], poked := true
    core := { y.core with frozenAt := y.core.frozenAt.map (· + d), lands := y.core.lands.map fun a => if a.lateAt = 0 then a else { a with lateAt := a.lateAt + d } }
    strands := y.strands.map fun p => (p.1, { p.2 with timeoutAt := p.2.timeoutAt.map fun q => (q.1, q.2 + d) }) }

/-- R398: a tile restarts at the step at which it stopped: channel state first, in captured order. -/
def State.thawTile (s : State) (t : Nat) : State :=
  let y := s.tile t
  if !y.stopped then s
  else
    let d := s.tick - y.stoppedAt
    let s := y.chan.foldl (fun s q =>
      if q.1 = .capsuleParkTimeout then s.atTick (s.tick + q.2.word.toNat) 0 q.1 { q.2 with word := 0 } else s.atTick s.tick 0 q.1 q.2) s
    let s := y.capHeld.foldl (fun s p => s.releaseCapsule d p) s
    s.modTile t fun y => y.resume d

/-- Every tile of the region restarts, and the queues open. [Assumption 47: DEDUCED.] -/
def State.thawRegion (s : State) (n : Nat) (r : Region) : State :=
  let s := (s.sampleRegion r n).modCtx n fun x => { x with st := .running }
  ((r.tiles.foldl (fun s t => s.thawTile t) s).armReady n).wakeCtx n

/-- CTX_THAW (R387, R390, R398, R401); by the first at the latest the control blocks of the rings are as R387 has them at reset. -/
def execCtxThaw (s : State) : Host.Outcome State Fault Refusal :=
  s.command .ctxThaw true [mask64] fun c s =>
    let n := c.arg 1
    if !ctxNumber n then s.finish 4 0 []
    else match (s.ctx n).st, (s.ctx n).region with
      | .bound, some r =>
        ((s.resetRings n).thawRegion n r).finish 0 0 []
      | .frozen, some r => (s.thawRegion n r).finish 0 0 []
      | _, _ => s.finish 3 0 []

/-! ### Bind and evict (R388, R397, R399) -/

/-- R388: whether a cluster of a region belongs to another bound region. [Assumption 51: DEDUCED.] -/
def State.regionTaken (s : State) (r : Region) : Bool := s.ctxs.any fun p => p.2.region.any fun q => r.clusters.any fun k => q.clusters.contains k

/-- CTX_BIND (R388, R390, R399). [Assumption 51: DEDUCED.] -/
def execCtxBind (s : State) : Host.Outcome State Fault Refusal :=
  s.command .ctxBind true [mask64, 0x3737, mask64] fun c s =>
    let n := c.arg 1
    let a := c.arg 2
    let va := c.arg 3
    let r : Region := ⟨bitsAt a 0 3, bitsAt a 4 2, bitsAt a 8 3 + 1, bitsAt a 12 2 + 1⟩
    if !ctxNumber n ∨ 8 < r.ox + r.w ∨ 4 < r.oy + r.h ∨ va % pageBytes ≠ 0 ∨ 2 ^ 52 ≤ va then s.finish 4 0 []
    else
      let bind (s : State) : State := s.modCtx n fun x => { x with st := .bound, region := some r, epoch := (x.epoch + 1) % 2 ^ 16 }
      match (s.ctx n).st with
      | .created =>
        if va ≠ 0 then s.finish 3 0 []
        else if s.regionTaken r then s.finish 7 5 []
        else (bind s).finish 0 0 []
      | .evicted =>
        if va = 0 then s.finish 3 0 []
        else
          let code := s.imageRefusal n va r
          if code ≠ 0 then s.finish 7 code []
          else if s.regionTaken r then s.finish 7 5 []
          else (bind (s.restore n va r)).finish 0 0 []
      | _ => s.finish 3 0 []

/-- CTX_EVICT (R390, R397): the writing of the image begins. [Assumption 52: DEDUCED.] -/
def execCtxEvict (s : State) : Host.Outcome State Fault Refusal :=
  s.command .ctxEvict true [mask64, mask64] fun c s =>
    let n := c.arg 1
    let va := c.arg 2
    if !ctxNumber n ∨ va % pageBytes ≠ 0 ∨ va = 0 ∨ 2 ^ 52 ≤ va then s.finish 4 0 []
    else if (s.ctx n).st ≠ .frozen then s.finish 3 0 []
    else s.later 82 .evictDone { opId n with word := BitVec.ofNat 64 va }

/-- EVICT_DONE (R390, R397, R401): the image stands in memory, and the context is EVICTED with its clusters released. -/
def execEvictDone (s : State) : Host.Outcome State Fault Refusal :=
  let n := s.ev.id
  match (s.ctx n).st, (s.ctx n).region with
  | .frozen, some r =>
    let (serial, s) := s.newId
    let g : Image := ⟨n, r, r.sections.map fun t => s.tile t, s.pendingOf r⟩
    let s := s.writeImage n s.ev.word.toNat serial r
    let s := { s with images := SMap.set s.images serial g }
    let s := ((s.sampleRegion r 0).dropPending r).releaseRegion r
    .next ((s.modCtx n fun c => { c with st := .evicted, region := none }).finish 0 0 [])
  | _, _ => .next s

/-! ### Destroy (R402) -/

/-- CTX_DESTROY (R390, R402): a running context freezes first; one that is DESTROYED already stays so. [Assumption 52: DEDUCED.] -/
def execCtxDestroy (s : State) : Host.Outcome State Fault Refusal :=
  s.command .ctxDestroy true [mask64] fun c s =>
    let n := c.arg 1
    if !ctxNumber n then s.finish 4 0 []
    else if (s.ctx n).st = .destroyed then s.finish 0 0 []
    else if !s.liveCtx n then s.finish 3 0 []
    else if (s.ctx n).st ≠ .running then (s.destroy n).finish 0 0 []
    else match s.waveOf n with
      | none => s.armWave n s.tick true
      | some w =>
        let s := s.modWave n fun w => { w with destroy := true }
        if w.begun then s else s.atTick s.tick 0 .freezeStart (opId n)

/-- MEET_ENTRY_CLEAR (R345): the owner clears the waiting entry of a context and tag in a die's Mordant. [Assumption 51: DEDUCED.] -/
def execMeetEntryClear (s : State) : Host.Outcome State Fault Refusal :=
  let o := s.ev
  if s.phase ≠ 5 ∨ !s.isOwner o.strand then .next s
  else .next { s with meets := s.meets.filter fun m => !(decide (m.die = o.node) && decide (m.ctx = o.id) && decide (m.mtag = o.arg)) }

end Sys2Proof.Machine
end

