-- ==== Sys2Proof/Machine/Int.lean ====
section
/-! DEFINITION. INA and INB (R153, R154) and IMD (R155, R156). -/

namespace Sys2Proof.Machine

/-! ### INA and INB -/

/-- The unit of an integer operation (R90). -/
def intUnit (inb : Bool) : Nat := if inb then 3 else 2

/-- R90, R153: an operation of o0 and the trigger value, latency 1, no flag. -/
def State.int2 (s : State) (inb : Bool) (t : Trig) (f : W64 → W64 → W64) : Host.Outcome State Fault Refusal :=
  s.compute (intUnit inb) 1 { use0 := true } t fun o => (widen (f (low64 o.o0) (low64 o.t)), 0)

/-- R90, R153: an operation of the trigger value alone. -/
def State.int1 (s : State) (inb : Bool) (t : Trig) (f : W64 → W64) : Host.Outcome State Fault Refusal :=
  s.compute (intUnit inb) 1 {} t fun o => (widen (f (low64 o.t)), 0)

/-- R90, R153: an operation of o0, o1 and the trigger value. -/
def State.int3 (s : State) (inb : Bool) (t : Trig) (f : W64 → W64 → W64 → W64) : Host.Outcome State Fault Refusal :=
  s.compute (intUnit inb) 1 { use0 := true, use1 := true } t fun o =>
    (widen (f (low64 o.o0) (low64 o.o1) (low64 o.t)), 0)

def truth (b : Bool) : W64 := if b then 1 else 0

/-- Leading zeros, 64 for zero. -/
def leadingZeros (x : W64) : Nat := if x = 0 then 64 else 63 - x.toNat.log2

/-- One bits. -/
def onesCount (x : W64) : Nat := ((List.range 64).filter fun i => x.getLsbD i).length

/-- R154: the width n of a field, which never extends past bit 63. -/
def fieldWidth (spec : W64) : Nat := min (min (spec.extractLsb' 6 7).toNat 64) (64 - (spec.extractLsb' 0 6).toNat)

/-- R154: the mask of a field of n bits. -/
def fieldMask (n : Nat) : W64 := BitVec.ofNat 64 (2 ^ n - 1)

/-- R154 `bfx`. -/
def fieldExtract (a spec : W64) : W64 :=
  let n := fieldWidth spec
  let m := fieldMask n
  let r := (a >>> (spec.extractLsb' 0 6).toNat) &&& m
  if spec.getLsbD 13 && decide (0 < n) && decide (n < 64) && r.getLsbD (n - 1) then r ||| ~~~m else r

/-- R154 `bfi`. -/
def fieldInsert (a c spec : W64) : W64 :=
  let p := (spec.extractLsb' 0 6).toNat
  let m := fieldMask (fieldWidth spec)
  (a &&& ~~~(m <<< p)) ||| ((c &&& m) <<< p)

/-- R153 `add`. -/
def execAdd (t : Trig) (inb : Bool) (s : State) : Host.Outcome State Fault Refusal :=
  s.int2 inb t fun a t => a + t

/-- R153 `sub`. -/
def execSub (t : Trig) (inb : Bool) (s : State) : Host.Outcome State Fault Refusal :=
  s.int2 inb t fun a t => a - t

/-- R153 `and`. -/
def execAnd (t : Trig) (inb : Bool) (s : State) : Host.Outcome State Fault Refusal :=
  s.int2 inb t fun a t => a &&& t

/-- R153 `or`. -/
def execOr (t : Trig) (inb : Bool) (s : State) : Host.Outcome State Fault Refusal :=
  s.int2 inb t fun a t => a ||| t

/-- R153 `xor`. -/
def execXor (t : Trig) (inb : Bool) (s : State) : Host.Outcome State Fault Refusal :=
  s.int2 inb t fun a t => a ^^^ t

/-- R153 `andn`. -/
def execAndn (t : Trig) (inb : Bool) (s : State) : Host.Outcome State Fault Refusal :=
  s.int2 inb t fun a t => a &&& ~~~t

/-- R153 `shl`. -/
def execShl (t : Trig) (inb : Bool) (s : State) : Host.Outcome State Fault Refusal :=
  s.int2 inb t fun a t => a <<< (t &&& 63).toNat

/-- R153 `shr`. -/
def execShr (t : Trig) (inb : Bool) (s : State) : Host.Outcome State Fault Refusal :=
  s.int2 inb t fun a t => a >>> (t &&& 63).toNat

/-- R153 `sar`. -/
def execSar (t : Trig) (inb : Bool) (s : State) : Host.Outcome State Fault Refusal :=
  s.int2 inb t fun a t => a.sshiftRight (t &&& 63).toNat

/-- R153 `rol`. -/
def execRol (t : Trig) (inb : Bool) (s : State) : Host.Outcome State Fault Refusal :=
  s.int2 inb t fun a t => a.rotateLeft (t &&& 63).toNat

/-- R153 `min`, signed. -/
def execMin (t : Trig) (inb : Bool) (s : State) : Host.Outcome State Fault Refusal :=
  s.int2 inb t fun a t => if a.slt t then a else t

/-- R153 `max`, signed. -/
def execMax (t : Trig) (inb : Bool) (s : State) : Host.Outcome State Fault Refusal :=
  s.int2 inb t fun a t => if a.slt t then t else a

/-- R153 `minu`. -/
def execMinu (t : Trig) (inb : Bool) (s : State) : Host.Outcome State Fault Refusal :=
  s.int2 inb t fun a t => if a < t then a else t

/-- R153 `maxu`. -/
def execMaxu (t : Trig) (inb : Bool) (s : State) : Host.Outcome State Fault Refusal :=
  s.int2 inb t fun a t => if a < t then t else a

/-- R153 `ceq`. -/
def execCeq (t : Trig) (inb : Bool) (s : State) : Host.Outcome State Fault Refusal :=
  s.int2 inb t fun a t => truth (a == t)

/-- R153 `cne`. -/
def execCne (t : Trig) (inb : Bool) (s : State) : Host.Outcome State Fault Refusal :=
  s.int2 inb t fun a t => truth (a != t)

/-- R153 `clt`, signed. -/
def execClt (t : Trig) (inb : Bool) (s : State) : Host.Outcome State Fault Refusal :=
  s.int2 inb t fun a t => truth (a.slt t)

/-- R153 `cltu`. -/
def execCltu (t : Trig) (inb : Bool) (s : State) : Host.Outcome State Fault Refusal :=
  s.int2 inb t fun a t => truth (a.ult t)

/-- R153 `cle`, signed. -/
def execCle (t : Trig) (inb : Bool) (s : State) : Host.Outcome State Fault Refusal :=
  s.int2 inb t fun a t => truth (a.sle t)

/-- R153 `cleu`. -/
def execCleu (t : Trig) (inb : Bool) (s : State) : Host.Outcome State Fault Refusal :=
  s.int2 inb t fun a t => truth (a.ule t)

/-- R153 `sel`: all 64 bits of a are tested. -/
def execSel (t : Trig) (inb : Bool) (s : State) : Host.Outcome State Fault Refusal :=
  s.int3 inb t fun a c t => if a ≠ 0 then c else t

/-- R153 `mov`. -/
def execMov (t : Trig) (inb : Bool) (s : State) : Host.Outcome State Fault Refusal :=
  s.int1 inb t fun t => t

/-- R153 `clz`. -/
def execClz (t : Trig) (inb : Bool) (s : State) : Host.Outcome State Fault Refusal :=
  s.int1 inb t fun t => BitVec.ofNat 64 (leadingZeros t)

/-- R153 `popc`. -/
def execPopc (t : Trig) (inb : Bool) (s : State) : Host.Outcome State Fault Refusal :=
  s.int1 inb t fun t => BitVec.ofNat 64 (onesCount t)

/-- R153 `addw`. -/
def execAddw (t : Trig) (inb : Bool) (s : State) : Host.Outcome State Fault Refusal :=
  s.int2 inb t fun a t => ((a.setWidth 32 + t.setWidth 32 : BitVec 32)).signExtend 64

/-- R153 `subw`. -/
def execSubw (t : Trig) (inb : Bool) (s : State) : Host.Outcome State Fault Refusal :=
  s.int2 inb t fun a t => ((a.setWidth 32 - t.setWidth 32 : BitVec 32)).signExtend 64

/-- R154 `bfx`. -/
def execBfx (t : Trig) (inb : Bool) (s : State) : Host.Outcome State Fault Refusal :=
  s.int2 inb t fun a t => fieldExtract a t

/-- R154 `bfi`: c is the inserted value. -/
def execBfi (t : Trig) (inb : Bool) (s : State) : Host.Outcome State Fault Refusal :=
  s.int3 inb t fun a c t => fieldInsert a c t

/-! ### IMD -/

/-- R91, R155: an IMD operation of o0 and the trigger value. -/
def State.imd2 (s : State) (lat : Nat) (t : Trig) (f : W64 → W64 → W64 × BitVec 10) : Host.Outcome State Fault Refusal :=
  s.compute 4 lat { use0 := true } t fun o =>
    (widen (f (low64 o.o0) (low64 o.t)).1, (f (low64 o.o0) (low64 o.t)).2)

/-- R155 `mul`. -/
def execMul (t : Trig) (s : State) : Host.Outcome State Fault Refusal := s.imd2 3 t fun a t => (a * t, 0)

/-- R155 `mulh`: the high half of the signed product. -/
def execMulh (t : Trig) (s : State) : Host.Outcome State Fault Refusal :=
  s.imd2 3 t fun a t => (BitVec.ofInt 64 (a.toInt * t.toInt / 2 ^ 64), 0)

/-- R155 `mulhu`. -/
def execMulhu (t : Trig) (s : State) : Host.Outcome State Fault Refusal :=
  s.imd2 3 t fun a t => (BitVec.ofNat 64 (a.toNat * t.toNat / 2 ^ 64), 0)

/-- R155 `mulw`: the exact signed product of the low words. -/
def execMulw (t : Trig) (s : State) : Host.Outcome State Fault Refusal :=
  s.imd2 3 t fun a t => (BitVec.ofInt 64 ((a.setWidth 32).toInt * (t.setWidth 32).toInt), 0)

/-- R155, R156: signed division truncated toward zero; by zero, all ones and `DZ`. -/
def signedDiv (a t : W64) : W64 × BitVec 10 := if t = 0 then (-1, flagDZ) else (BitVec.ofInt 64 (a.toInt.tdiv t.toInt), 0)

/-- R155, R156: the signed remainder; by zero, a and `DZ`. -/
def signedRem (a t : W64) : W64 × BitVec 10 := if t = 0 then (a, flagDZ) else (BitVec.ofInt 64 (a.toInt.tmod t.toInt), 0)

def unsignedDiv (a t : W64) : W64 × BitVec 10 := if t = 0 then (-1, flagDZ) else (BitVec.ofNat 64 (a.toNat / t.toNat), 0)

def unsignedRem (a t : W64) : W64 × BitVec 10 := if t = 0 then (a, flagDZ) else (BitVec.ofNat 64 (a.toNat % t.toNat), 0)

/-- R155, R156 `div`. -/
def execDiv (t : Trig) (s : State) : Host.Outcome State Fault Refusal := s.imd2 20 t signedDiv

/-- R155, R156 `divu`. -/
def execDivu (t : Trig) (s : State) : Host.Outcome State Fault Refusal := s.imd2 20 t unsignedDiv

/-- R155, R156 `rem`. -/
def execRem (t : Trig) (s : State) : Host.Outcome State Fault Refusal := s.imd2 20 t signedRem

/-- R155, R156 `remu`. -/
def execRemu (t : Trig) (s : State) : Host.Outcome State Fault Refusal := s.imd2 20 t unsignedRem

/-- R155 `mad`. -/
def execMad (t : Trig) (s : State) : Host.Outcome State Fault Refusal :=
  s.compute 4 3 { use0 := true, use1 := true } t fun o => (widen (low64 o.o0 * low64 o.o1 + low64 o.t), 0)

end Sys2Proof.Machine
end

