-- ==== Sys2Proof/Machine/Sys.lean ====
section
/-! DEFINITION. The SYS unit (R206-R213, R389, R458, R462, R463, R466) and the reload of a bundle (R23). -/

namespace Sys2Proof.Machine

/-! ### Fences (R206, R431) -/

/-- R206 `fence`: with gated stores in the buffer one that releases commits the checkpoint (R431). [Assumption 63: DEDUCED.] -/
def execFence (t : Trig) (s : State) : Host.Outcome State Fault Refusal :=
  s.trigger 1 {} t fun c o s =>
    let v := (low64 o.t).toNat
    let x := s.strand c.tile c.strand
    let gated := v.testBit 1 && decide (x.depth = 0) && x.stores.any fun g => !g.done && decide (g.level = 0)
    if v % 4 = 0 ∨ 16 ≤ v then some (.error (s.illegalDest c 0))
    else if gated && openOutstanding (s.core c.tile) c.strand x then none
    else
      let s := s.modStrand c.tile c.strand fun x => { x with orders := x.orders ++ [⟨c.seq, v.testBit 0, v.testBit 1, bitsAt v 2 2, none, s.ids⟩] }
      some (.ok (s.commitMark c { commit := gated }))

/-! ### System registers (R207-R209) -/

/-- R389. -/
def State.rgnr (s : State) (ctx : Nat) : Nat :=
  let c := s.ctx ctx
  match c.region with
  | some r => c.epoch % 2 ^ 16 * 2 ^ 48 + ctx * 2 ^ 16 + r.ox * 2 ^ 10 + r.oy * 2 ^ 8 + (r.w - 1) * 4 + (r.h - 1)
  | none => c.epoch % 2 ^ 16 * 2 ^ 48 + ctx * 2 ^ 16

/-- R208, R209, R134, R251, R306, R389, R458, R463: the system register of a number; an unassigned one reads 0. -/
def State.sysReg (s : State) (c : Issuer) (n : Nat) : W64 :=
  let x := s.strand c.tile c.strand
  if n = 0 then BitVec.ofNat 64 (x.depth + (if 0 < x.depth then 8 else 0))
  else if n = 1 then BitVec.ofNat 64 (0x70000 + c.strand * 0x1000)
  else if n = 2 then BitVec.ofNat 64 x.recAddr
  else if n = 3 then low64 (x.regAt codeFmtb c.seq)
  else if n = 4 then x.alarm
  else if n = 8 then BitVec.ofNat 64 (s.bgnt c.tile c.strand)
  else if n = 9 then (x.splt &&& 0xFF) ||| BitVec.ofNat 64 ((s.cluster (clusterOf c.tile)).level * 2 ^ 8)
  else if n = 0x10 then x.gbar
  else if n = 0x11 then BitVec.ofNat 64 (s.rgnr x.ctx)
  else if 0x20 ≤ n ∧ n < 0x28 then x.kflt.getD (n - 0x20) 0
  else if 0x100 ≤ n ∧ n < 0x134 then (s.node c.tile (n - 0x100)).ns
  else 0

/-- R207 `rdsr`. -/
def execRdsr (t : Trig) (s : State) : Host.Outcome State Fault Refusal :=
  s.trigger 1 { result := some 1 } t fun c o s =>
    some (.ok (s.result c 1 2 t.w (widen (s.sysReg c (low64 o.t).toNat)) 0 0))

/-- The bits of a byte that are set. -/
def ones8 (v : W64) : Nat := ((List.range 8).filter fun i => v.getLsbD i).length

/-- R207, R458 `wrsr`: only `SPLT` can be written, with exactly four ones. -/
def execWrsr (t : Trig) (s : State) : Host.Outcome State Fault Refusal :=
  s.trigger 1 { use0 := true, commit := true } t fun c o s =>
    let v := low64 o.o0
    if low64 o.t = 9 ∧ ones8 v = 4 then some (.ok (s.modStrand c.tile c.strand fun x => { x with splt := v &&& 0xFF }))
    else some (.ok s)

/-! ### Clearing the scratchpad (R210) -/

/-- The parts of the scratchpad within k granules from an aligned address, which may pass 2^64. [Assumption 29: DEDUCED.] -/
def clearParts (a k : Nat) : List Piece :=
  let first := if a < scratchSize then [((a, min (16 * k) (scratchSize - a)) : Piece)] else []
  let wrapped := a + 16 * k - 2 ^ 64
  if 2 ^ 64 < a + 16 * k then first ++ [((0, min wrapped scratchSize) : Piece)] else first

/-- The first granule of the range that lies beyond the scratchpad. [Assumption 29: DEDUCED.] -/
def clearOut (a k : Nat) : Option Nat :=
  if scratchSize ≤ a then some a else if scratchSize < a + 16 * k then some scratchSize else none

/-- R210 `sclr`. [Assumption 28: DEDUCED.] [Assumption 29: DEDUCED.] -/
def execSclr (t : Trig) (s : State) : Host.Outcome State Fault Refusal :=
  s.trigger 1 { use0 := true, commit := true, access := true } t fun c o s =>
    let k := (bitsAt (low64 o.o0).toNat 0 20 + 15) / 16
    let a := alignTo 4 (low64 o.t)
    if k = 0 then some (.ok s)
    else
      let out := clearOut a.1 k
      let s := s.storePieces c false ((clearParts a.1 k).map fun p => (p, List.replicate p.2 0))
      let s := s.modStrand c.tile c.strand fun x =>
        x.addFlags c (c.seq + 1) (flagIf a.2 flagMIS ||| flagIf out.isSome flagOOR) 0 (BitVec.ofNat 64 (out.getD 0))
      some (.ok (s.modCore c.tile fun co => { co with busySlot := co.busySlot ++ [(c.slot, c.step + k + 1, a.1 + 16 * k)] }))

/-- R211 `fmtb`. -/
def execFmtb (t : Trig) (s : State) : Host.Outcome State Fault Refusal :=
  s.trigger 1 { commit := true } t fun c o s =>
    some (.ok (s.writeReg c codeFmtb (c.seq + 1) (o.t &&& 0x7FF80)))

/-! ### Boost (R212, R462) -/

/-- R462 `bclaim`. -/
def execBclaim (t : Trig) (s : State) : Host.Outcome State Fault Refusal :=
  s.trigger 1 { commit := true } t fun c o s =>
    let x := s.strand c.tile c.strand
    let k := s.cluster (clusterOf c.tile)
    if low64 o.t ≠ 0 then some (.error (s.illegalDest c 0))
    else if (s.tile c.tile).boostClass = 0 ∨ x.claims ∨ k.balance = 0 ∨ k.forced then some (.ok s)
    else
      let s := s.modCluster (clusterOf c.tile) fun k => { k with claims := k.claims ++ [⟨c.tile, c.strand, x.ctx, x.kslot⟩] }
      some (.ok ((s.modStrand c.tile c.strand fun x => { x with claims := true }).claimMessage c.tile c.strand true))

/-- R462 `brel`. -/
def execBrel (t : Trig) (s : State) : Host.Outcome State Fault Refusal :=
  s.trigger 1 { commit := true } t fun c o s =>
    if low64 o.t ≠ 0 then some (.error (s.illegalDest c 0))
    else if (s.tile c.tile).boostClass = 0 then some (.ok s)
    else some (.ok (s.withdrawClaim c.tile c.strand))

/-! ### Event counters (R213, R466) -/

/-- R213 `evsel`. -/
def execEvsel (t : Trig) (s : State) : Host.Outcome State Fault Refusal :=
  s.trigger 1 { use0 := true, commit := true } t fun c o s =>
    let n := (low64 o.t).toNat
    let e : EvCounter := ⟨bitsAt (low64 o.o0).toNat 0 5, 0, s.tick + 1⟩
    let die := dieOf c.tile
    if n < 4 then some (.ok (s.modTile c.tile fun y => { y with counters := y.counters.set n e }))
    else if 16 ≤ n ∧ n < 32 then some (.ok { s with dieCount := SMap.set s.dieCount die ((s.dieCounters die).set (n - 16) e) })
    else some (.ok s)

/-- R213: counter n. -/
def State.evCounter (s : State) (t n : Nat) : Nat :=
  if n < 4 then (((s.tile t).counters[n]?).map EvCounter.val).getD 0
  else if 16 ≤ n ∧ n < 32 then (((s.dieCounters (dieOf t))[n - 16]?).map EvCounter.val).getD 0
  else 0

/-- R213 `evrd`. -/
def execEvrd (t : Trig) (s : State) : Host.Outcome State Fault Refusal :=
  s.trigger 1 { result := some 1 } t fun c o s =>
    some (.ok (s.result c 1 2 t.w (widen (BitVec.ofNat 64 (s.evCounter c.tile (low64 o.t).toNat))) 0 0))

/-! ### The code store (R23) -/

/-- BUNDLE_RELOAD_DONE (R23): the bundle from the kernel image, with cause 17 as a report; an uncorrectable line ends the run. [Assumption 8: DESIGN CHOICE.] [Assumption 63: DEDUCED.] -/
def execBundleReloadDone (s : State) : Host.Outcome State Fault Refusal :=
  let t := s.ev.tile
  let p := s.ev.id
  s.unlessStopped t .bundleReloadDone fun s =>
    let y := s.tile t
    if y.core.reload ≠ some p then .next s
    else
      let s := s.modCore t fun co => { co with reload := none }
      let image := match y.kernel with
        | some k => s.imageRead (dieOf t) k.1 (k.2.codeAt + 24 * p) .code 2 24
        | none => .failed 13
      match image, y.core.issuing with
      | .ok bs, n =>
        let s := s.modTile t fun y => { y with code := SMap.set y.code p (BitVec.ofNat 192 (leNat bs)), core := { y.core with parity := y.core.parity.filter fun j => j ≠ p } }
        .next (match n with
          | some n => s.raise t n ⟨17, BitVec.ofNat 64 p, 0, 0⟩
          | none => s)
      | .failed _, some n => .next (s.modStrand t n fun x => { x.endFaulted 13 with endIds := s.ids })
      | .failed _, none => .next s

end Sys2Proof.Machine
end

