-- ==== Sys2Proof/Machine/TrnOps.lean ====
section
/-! DEFINITION. TRN (R190-R193): the block transposer. A write triggered at step u is seen by a `trout` of step u + 2. -/

namespace Sys2Proof.Machine

/-- R101, R193: the block as it stands at the start of a step: the writes that have taken effect by the end of the step before. -/
def Trn.atStep (x : Trn) (step : Nat) : Trn :=
  (x.pending.filter fun p => decide (p.1 < step)).foldl (fun x p =>
    match p.2.1 with
    | some r => { x with rows := SMap.setD x.rows 0 r.1 r.2 }
    | none => { x with rows := [], es := p.2.2.1, n := p.2.2.2 }) { x with pending := x.pending.filter fun p => !decide (p.1 < step) }

/-- R191 `trset`: n is bits 12-8 plus one, as the table of R191 has it, against the example after R193. [Assumption 67: DEDUCED.] -/
def execTrset (t : Trig) (s : State) : Host.Outcome State Fault Refusal :=
  s.trigger 13 {} t fun c o s =>
    let x := low64 o.t
    let es := (x.extractLsb' 0 2).toNat
    if x.extractLsb' 13 51 ≠ 0 ∨ x.extractLsb' 2 6 ≠ 0 ∨ es = 3 then some (.error (s.illegalDest c 0))
    else some (.ok (s.modCore c.tile fun co =>
      let y := co.trn.atStep c.step
      { co with trn := { y with pending := y.pending ++ [(c.step + 1, none, 32 / 2 ^ es, (x.extractLsb' 8 5).toNat + 1)] } }))

/-- R192 `trin`: the low 32 elements of T under the shape that stands when the row is written. -/
def execTrin (t : Trig) (s : State) : Host.Outcome State Fault Refusal :=
  s.trigger 13 { use0 := true } t fun c o s =>
    some (.ok (s.modCore c.tile fun co =>
      let y := co.trn.atStep c.step
      { co with trn := { y with pending := y.pending ++ [(c.step + 1, some ((o.o0.setWidth 5).toNat, o.t), 0, 0)] } }))

/-- R193: column c of the block: element c of each of the n rows. A row holds 32 elements of es bits. -/
def Trn.column (x : Trn) (col : Nat) : Wide :=
  if x.n ≤ col then 0
  else ofElems x.es x.n fun i => if col < 32 then elem x.es (SMap.get x.rows 0 i) col else 0

/-- R193 `trout`. -/
def execTrout (t : Trig) (s : State) : Host.Outcome State Fault Refusal :=
  s.trigger 13 { result := some 13 } t fun c o s =>
    some (.ok (s.result c 13 3 t.w (((s.core c.tile).trn.atStep c.step).column (low64 o.t).toNat) 0 0))

end Sys2Proof.Machine
end

