-- ==== Sys2Proof/Machine/Vax.lean ====
section
/-! DEFINITION. VAX (R185-R189): special functions and their pool, permutes, sparse compression. -/

namespace Sys2Proof.Machine

/-! ### Special functions (R100, R185, R186) -/

/-- R100, R185: a special function: it waits while the pool is held and then holds it for 8 steps. -/
def State.special (s : State) (t : Trig) (f : Num → Num × BitVec 10) : Host.Outcome State Fault Refusal :=
  s.trigger 12 { result := some 12 } t fun c o s =>
    if c.step < (s.core c.tile).poolTill then none
    else
      let r := ofElemsFlags 32 32 fun i => specialLane f (elemNat 32 o.t i)
      some (.ok ((s.result c 12 14 t.w r.1 r.2 0).modCore c.tile fun co => { co with poolTill := c.step + 8 }))

/-- R185 `rsq`. -/
def execRsq (t : Trig) (s : State) : Host.Outcome State Fault Refusal := s.special t numRsq

/-- R185 `rcp`. -/
def execRcp (t : Trig) (s : State) : Host.Outcome State Fault Refusal := s.special t numRcp

/-- R185 `exp2`. -/
def execExp2 (t : Trig) (s : State) : Host.Outcome State Fault Refusal := s.special t numExp2

/-- R185 `log2`. -/
def execLog2 (t : Trig) (s : State) : Host.Outcome State Fault Refusal := s.special t numLog2

/-- R185 `tanh`. -/
def execTanh (t : Trig) (s : State) : Host.Outcome State Fault Refusal := s.special t numTanh

/-- R185 `sigm`. -/
def execSigm (t : Trig) (s : State) : Host.Outcome State Fault Refusal := s.special t numSigm

/-! ### Permutes (R187) -/

/-- R187 `perm`. -/
def execPerm (t : Trig) (s : State) : Host.Outcome State Fault Refusal :=
  s.compute 12 3 { use0 := true } t fun o =>
    (ofElems 32 32 fun i =>
      let x := elem 32 o.t i
      if x.getLsbD 31 then 0 else elem 32 o.o0 (x &&& 31).toNat, 0)

/-- R187 `rot`: every lane moves. [Assumption 22: DEDUCED.] -/
def execRot (t : Trig) (s : State) : Host.Outcome State Fault Refusal :=
  s.compute 12 3 { use0 := true } t fun o =>
    (ofElems 32 32 fun i => elem 32 o.o0 ((i + (o.t.setWidth 5).toNat) % 32), 0)

/-! ### Sparse compression (R47, R188, R189) -/

/-- R188: the rank of a magnitude: NaN above every number. -/
def magnitudeRank (x : Nat) : Nat := if (fp16.decode x).isNan then 2 ^ 15 else x % 2 ^ 15

/-- R188: whether element v of a group is kept: fewer than `keep` elements rank before it. -/
def keptIn (xs : List Nat) (keep v : Nat) : Bool :=
  decide (((List.range xs.length).filter fun u =>
    decide (magnitudeRank (xs.getD v 0) < magnitudeRank (xs.getD u 0))
      || (decide (magnitudeRank (xs.getD u 0) = magnitudeRank (xs.getD v 0)) && decide (u < v))).length < keep)

/-- R188: the kept indices of group g in ascending order. -/
def keptIndices (x : Wide) (G keep g : Nat) : List Nat :=
  let xs := (List.range G).map fun v => elemNat 16 x (G * g + v)
  (List.range G).filter fun v => keptIn xs keep v

/-- R47, R188: 64 FP16 elements compressed in groups of G with ib index bits. -/
def compress (G ib : Nat) (x : Wide) : Wide :=
  let keep := G / 2
  let kept := (List.range (64 / G)).map (keptIndices x G keep)
  let at' := fun q => (kept.getD (q / keep) []).getD (q % keep) 0
  let vals := ofElems 16 32 fun q => elem 16 x (G * (q / keep) + at' q)
  (List.range 32).foldl (fun acc q => acc ||| (BitVec.ofNat 1024 (at' q) <<< (512 + ib * q))) vals

/-- R188 `cmp24`. -/
def execCmp24 (t : Trig) (s : State) : Host.Outcome State Fault Refusal :=
  s.compute 12 4 {} t fun o => (compress 4 2 o.t, 0)

/-- R188 `cmp48`. -/
def execCmp48 (t : Trig) (s : State) : Host.Outcome State Fault Refusal :=
  s.compute 12 4 {} t fun o => (compress 8 3 o.t, 0)

/-- R189: kept values put back; a later duplicate stands. -/
def expand (G ib : Nat) (a : Wide) : Wide :=
  let keep := G / 2
  let pos := fun q => G * (q / keep) + (a.extractLsb' (512 + ib * q) ib).toNat
  ofElems 16 64 fun e =>
    (List.range 32).foldl (fun v q => if pos q = e then elem 16 a q else v) 0

/-- R189 `expd`. -/
def execExpd (t : Trig) (s : State) : Host.Outcome State Fault Refusal :=
  s.compute 12 4 { use0 := true } t fun o =>
    (if o.t.getLsbD 0 then expand 8 3 o.o0 else expand 4 2 o.o0, 0)

end Sys2Proof.Machine
end

