-- ==== Sys2Proof/Machine/Vcv.lean ====
section
/-! DEFINITION. VCV (R180-R184): compares, conversions under `vrc`, reductions and lane moves. -/

namespace Sys2Proof.Machine

/-! ### Compares (R180) -/

def maskLane (b : Bool) : BitVec 32 := if b then 0xFFFFFFFF else 0

/-- R180: a compare of o0 and T by lanes. -/
def State.compare (s : State) (t : Trig) (f : BitVec 32 → BitVec 32 → Bool) : Host.Outcome State Fault Refusal :=
  s.compute 11 2 { use0 := true } t (laneMap2 fun a b => maskLane (f a b))

def fpCompare (f : Num → Num → Bool) (a b : BitVec 32) : Bool := f (fp32.decode a.toNat) (fp32.decode b.toNat)

/-- R180 `cmpeq.f32`. -/
def execCmpeqF32 (t : Trig) (s : State) : Host.Outcome State Fault Refusal := s.compare t (fpCompare numEq)

/-- R180 `cmplt.f32`. -/
def execCmpltF32 (t : Trig) (s : State) : Host.Outcome State Fault Refusal := s.compare t (fpCompare numLess)

/-- R180 `cmple.f32`. -/
def execCmpleF32 (t : Trig) (s : State) : Host.Outcome State Fault Refusal :=
  s.compare t (fpCompare fun x y => numLess x y || numEq x y)

/-- R180 `cmpeq.i32`. -/
def execCmpeqI32 (t : Trig) (s : State) : Host.Outcome State Fault Refusal := s.compare t fun a b => a == b

/-- R180 `cmplt.i32`. -/
def execCmpltI32 (t : Trig) (s : State) : Host.Outcome State Fault Refusal := s.compare t fun a b => a.slt b

/-! ### Conversions (R181, R182) -/

/-- R44: the rounding mode that `vrc` holds; 0b11 is never stored. -/
def vrcMode (v : W64) : Round :=
  match (v.extractLsb' 0 2).toNat with
  | 1 => .rtz
  | 2 => .sr16
  | _ => .rne

/-- R44: the generator state that `vrc` holds. -/
def vrcState (v : W64) : BitVec 32 := v.extractLsb' 32 32

/-- The generator after i + 1 advances. -/
def generatorAt (st : BitVec 32) : Nat → BitVec 32
  | 0 => xorshift st
  | i + 1 => xorshift (generatorAt st i)

/-- R42, R182: the random word of lane i. -/
def laneRandom (v : W64) (i : Nat) : Nat := randomWord (generatorAt (vrcState v) i)

/-- R182: `vrc` after a conversion: advanced 32 times under SR16. -/
def vrcAfter (v : W64) : W64 :=
  if vrcMode v = .sr16 then generatorAt (vrcState v) 31 ++ v.extractLsb' 0 32 else v

/-- R181: an exact widening of elements of T. -/
def State.widenLanes (s : State) (t : Trig) (f : Wide → Nat → Nat) : Host.Outcome State Fault Refusal :=
  s.compute 11 3 {} t fun o => (ofElems 32 32 fun i => BitVec.ofNat 32 (f o.t i), 0)

/-- R182: a conversion under `vrc`: 32 lanes into elements of w bits, `vrc` read as a register of the bundle and its advance written
as one. A move of the same bundle to `vrc` stands over the advance. -/
def State.convert (s : State) (w : Nat) (t : Trig) (f : Round → Nat → BitVec 32 → Nat × BitVec 10) :
    Host.Outcome State Fault Refusal :=
  s.trigger 11 { result := some 11 } t fun c o s =>
    let x := s.strand c.tile c.strand
    if !regReady (s.core c.tile) c.strand x codeVrc c.seq c.step then none
    else if vrcMode (low64 (x.regAt codeVrc c.seq)) = .sr16 ∧ !logRoom (s.core c.tile) x codeVrc then
      some (.error (s.stallFull c))
    else
      let v := low64 (x.regAt codeVrc c.seq)
      let r := ofElemsFlags w 32 fun i => f (vrcMode v) (laneRandom v i) (elem 32 o.t i)
      let s := s.result c 11 3 t.w r.1 r.2 0
      some (.ok (if vrcMode v = .sr16 then
        s.modStrand c.tile c.strand fun x => x.writeRank c 0 codeVrc (c.seq + 1) (widen (vrcAfter v))
      else s))

/-- R181 `cvtl.f32.h`. -/
def execCvtlF32H (t : Trig) (s : State) : Host.Outcome State Fault Refusal :=
  s.widenLanes t fun x i => (fp32.rne (fp16.decode (elemNat 16 x i))).1

/-- R181 `cvth.f32.h`. -/
def execCvthF32H (t : Trig) (s : State) : Host.Outcome State Fault Refusal :=
  s.widenLanes t fun x i => (fp32.rne (fp16.decode (elemNat 16 x (32 + i)))).1

/-- R181 `cvt.f32.e4`. -/
def execCvtF32E4 (t : Trig) (s : State) : Host.Outcome State Fault Refusal :=
  s.widenLanes t fun x i => (fp32.rne (e4m3.decode (elemNat 8 x i))).1

/-- R181 `cvt.h.f32`. -/
def execCvtHF32 (t : Trig) (s : State) : Host.Outcome State Fault Refusal :=
  s.convert 16 t fun m r x => fp16.narrow m false r (fp32.decode x.toNat)

/-- R181 `cvt.b.f32`. -/
def execCvtBF32 (t : Trig) (s : State) : Host.Outcome State Fault Refusal :=
  s.convert 16 t fun m r x => bf16.narrow m false r (fp32.decode x.toNat)

/-- R181 `cvt.e4.f32`: always saturating. -/
def execCvtE4F32 (t : Trig) (s : State) : Host.Outcome State Fault Refusal :=
  s.convert 8 t fun m r x => e4m3.narrow m true r (fp32.decode x.toNat)

/-- R181 `cvt.i32.f32`. -/
def execCvtI32F32 (t : Trig) (s : State) : Host.Outcome State Fault Refusal :=
  s.convert 32 t fun m r x =>
    let v := numToInt 32 m r (fp32.decode x.toNat)
    ((BitVec.ofInt 32 v.1).toNat, v.2)

/-- R181 `cvt.f32.i32`. -/
def execCvtF32I32 (t : Trig) (s : State) : Host.Outcome State Fault Refusal :=
  s.convert 32 t fun m r x => fp32.narrow m false r (intNum x.toInt)

/-! ### Reductions (R183) -/

/-- One level of the pairwise tree: neighbours joined, flags collected. -/
def pairLevel (f : Nat → Nat → Nat × BitVec 10) : List Nat → List Nat × BitVec 10
  | a :: b :: r =>
    let p := f a b
    let q := pairLevel f r
    (p.1 :: q.1, p.2 ||| q.2)
  | r => (r, 0)

/-- R183: the tree of five levels over 32 lanes. -/
def treeReduce (f : Nat → Nat → Nat × BitVec 10) : Nat → List Nat → List Nat × BitVec 10
  | 0, l => (l, 0)
  | n + 1, l =>
    let p := pairLevel f l
    let q := treeReduce f n p.1
    (q.1, p.2 ||| q.2)

def lanes32 (x : Wide) : List Nat := (List.range 32).map (elemNat 32 x)

/-- R98: a scalar in lane 0, the other lanes 0. -/
def laneZero (v : Nat) : Wide := (BitVec.ofNat 32 v).setWidth 1024

/-- R183 `rsum.f32`. -/
def execRsumF32 (t : Trig) (s : State) : Host.Outcome State Fault Refusal :=
  s.compute 11 6 {} t fun o =>
    let r := treeReduce fp32.add 5 (lanes32 o.t)
    (laneZero (r.1.headD 0), r.2)

/-- R183 `rmax.f32`: under the rule of R179, so a NaN lane gives NaN. -/
def execRmaxF32 (t : Trig) (s : State) : Host.Outcome State Fault Refusal :=
  s.compute 11 5 {} t fun o =>
    (laneZero ((lanes32 o.t).tail.foldl fp32.maxOf (fp32.maxOf ((lanes32 o.t).headD 0) ((lanes32 o.t).headD 0))), 0)

/-- R183 `rsum.i32`. -/
def execRsumI32 (t : Trig) (s : State) : Host.Outcome State Fault Refusal :=
  s.compute 11 4 {} t fun o => (laneZero ((lanes32 o.t).sum % 2 ^ 32), 0)

/-! ### Lane moves (R184) -/

/-- R184 `bcast`. -/
def execBcast (t : Trig) (s : State) : Host.Outcome State Fault Refusal :=
  s.compute 11 2 {} t fun o => (ofElems 32 32 fun _ => o.t.setWidth 32, 0)

/-- R184 `ins`: the lane number is B mod 32. -/
def execIns (t : Trig) (s : State) : Host.Outcome State Fault Refusal :=
  s.compute 11 2 { use0 := true, use1 := true } t fun o =>
    (ofElems 32 32 fun i => if i = (o.o1.setWidth 5).toNat then o.t.setWidth 32 else elem 32 o.o0 i, 0)

/-- R184 `ext`. -/
def execExt (t : Trig) (s : State) : Host.Outcome State Fault Refusal :=
  s.compute 11 2 { use0 := true } t fun o => ((elem 32 o.o0 (o.t.setWidth 5).toNat).setWidth 1024, 0)

/-- R184 `iota`. -/
def execIota (t : Trig) (s : State) : Host.Outcome State Fault Refusal :=
  s.compute 11 2 {} t fun o => (ofElems 32 32 fun i => o.t.setWidth 32 + BitVec.ofNat 32 i, 0)

/-- R184 `msk`: the count is an unsigned 64-bit value. -/
def execMsk (t : Trig) (s : State) : Host.Outcome State Fault Refusal :=
  s.compute 11 2 {} t fun o => (ofElems 32 32 fun i => maskLane (decide (i < (low64 o.t).toNat)), 0)

end Sys2Proof.Machine
end

