-- ==== Sys2Proof/Machine/Dispatch.lean ====
section
/-! DEFINITION. The dispatcher: one arm for each instruction of the opcode table. -/

namespace Sys2Proof.Machine

def exec (i : Instr) (s : State) : Host.Outcome State Fault Refusal :=
  match i with
  | .move sync src dst => Sys2Proof.Machine.execMove sync src dst s
  | .operandPortWrite sync src unit port => Sys2Proof.Machine.execOperandPortWrite sync src unit port s
  | .loopCounterWrite sync src second => Sys2Proof.Machine.execLoopCounterWrite sync src second s
  | .lkWrite sync src => Sys2Proof.Machine.execLkWrite sync src s
  | .flagsWrite sync src => Sys2Proof.Machine.execFlagsWrite sync src s
  | .vrcWrite sync src => Sys2Proof.Machine.execVrcWrite sync src s
  | .alarmWrite sync src => Sys2Proof.Machine.execAlarmWrite sync src s
  | .kselWrite sync src => Sys2Proof.Machine.execKselWrite sync src s
  | .longImmediatePrefix payload => Sys2Proof.Machine.execLongImmediatePrefix payload s
  | .nop sync => Sys2Proof.Machine.execNop sync s
  | .yield sync => Sys2Proof.Machine.execYield sync s
  | .suspendR sync n => Sys2Proof.Machine.execSuspendR sync n s
  | .suspendF sync n k => Sys2Proof.Machine.execSuspendF sync n k s
  | .suspendP sync n => Sys2Proof.Machine.execSuspendP sync n s
  | .exit sync => Sys2Proof.Machine.execExit sync s
  | .mark sync => Sys2Proof.Machine.execMark sync s
  | .waitk sync mask => Sys2Proof.Machine.execWaitk sync mask s
  | .br t => Sys2Proof.Machine.execBr t s
  | .brz t => Sys2Proof.Machine.execBrz t s
  | .brnz t => Sys2Proof.Machine.execBrnz t s
  | .brn t => Sys2Proof.Machine.execBrn t s
  | .brnn t => Sys2Proof.Machine.execBrnn t s
  | .jmp t => Sys2Proof.Machine.execJmp t s
  | .call t => Sys2Proof.Machine.execCall t s
  | .ret t => Sys2Proof.Machine.execRet t s
  | .loop0 t => Sys2Proof.Machine.execLoop0 t s
  | .loop1 t => Sys2Proof.Machine.execLoop1 t s
  | .lexit t => Sys2Proof.Machine.execLexit t s
  | .trap t => Sys2Proof.Machine.execTrap t s
  | .brk t => Sys2Proof.Machine.execBrk t s
  | .sleep t => Sys2Proof.Machine.execSleep t s
  | .waitl t => Sys2Proof.Machine.execWaitl t s
  | .fence t => Sys2Proof.Machine.execFence t s
  | .rdsr t => Sys2Proof.Machine.execRdsr t s
  | .wrsr t => Sys2Proof.Machine.execWrsr t s
  | .rft t => Sys2Proof.Machine.execRft t s
  | .sclr t => Sys2Proof.Machine.execSclr t s
  | .fmtb t => Sys2Proof.Machine.execFmtb t s
  | .bclaim t => Sys2Proof.Machine.execBclaim t s
  | .brel t => Sys2Proof.Machine.execBrel t s
  | .evsel t => Sys2Proof.Machine.execEvsel t s
  | .evrd t => Sys2Proof.Machine.execEvrd t s
  | .add t inb => Sys2Proof.Machine.execAdd t inb s
  | .sub t inb => Sys2Proof.Machine.execSub t inb s
  | .and t inb => Sys2Proof.Machine.execAnd t inb s
  | .or t inb => Sys2Proof.Machine.execOr t inb s
  | .xor t inb => Sys2Proof.Machine.execXor t inb s
  | .andn t inb => Sys2Proof.Machine.execAndn t inb s
  | .shl t inb => Sys2Proof.Machine.execShl t inb s
  | .shr t inb => Sys2Proof.Machine.execShr t inb s
  | .sar t inb => Sys2Proof.Machine.execSar t inb s
  | .rol t inb => Sys2Proof.Machine.execRol t inb s
  | .min t inb => Sys2Proof.Machine.execMin t inb s
  | .max t inb => Sys2Proof.Machine.execMax t inb s
  | .minu t inb => Sys2Proof.Machine.execMinu t inb s
  | .maxu t inb => Sys2Proof.Machine.execMaxu t inb s
  | .ceq t inb => Sys2Proof.Machine.execCeq t inb s
  | .cne t inb => Sys2Proof.Machine.execCne t inb s
  | .clt t inb => Sys2Proof.Machine.execClt t inb s
  | .cltu t inb => Sys2Proof.Machine.execCltu t inb s
  | .cle t inb => Sys2Proof.Machine.execCle t inb s
  | .cleu t inb => Sys2Proof.Machine.execCleu t inb s
  | .sel t inb => Sys2Proof.Machine.execSel t inb s
  | .mov t inb => Sys2Proof.Machine.execMov t inb s
  | .clz t inb => Sys2Proof.Machine.execClz t inb s
  | .popc t inb => Sys2Proof.Machine.execPopc t inb s
  | .addw t inb => Sys2Proof.Machine.execAddw t inb s
  | .subw t inb => Sys2Proof.Machine.execSubw t inb s
  | .bfx t inb => Sys2Proof.Machine.execBfx t inb s
  | .bfi t inb => Sys2Proof.Machine.execBfi t inb s
  | .mul t => Sys2Proof.Machine.execMul t s
  | .mulh t => Sys2Proof.Machine.execMulh t s
  | .mulhu t => Sys2Proof.Machine.execMulhu t s
  | .mulw t => Sys2Proof.Machine.execMulw t s
  | .div t => Sys2Proof.Machine.execDiv t s
  | .divu t => Sys2Proof.Machine.execDivu t s
  | .rem t => Sys2Proof.Machine.execRem t s
  | .remu t => Sys2Proof.Machine.execRemu t s
  | .mad t => Sys2Proof.Machine.execMad t s
  | .xa t => Sys2Proof.Machine.execXa t s
  | .xab t => Sys2Proof.Machine.execXab t s
  | .xlen t => Sys2Proof.Machine.execXlen t s
  | .idx t => Sys2Proof.Machine.execIdx t s
  | .openx t => Sys2Proof.Machine.execOpenx t s
  | .hdl t => Sys2Proof.Machine.execHdl t s
  | .ldb t => Sys2Proof.Machine.execLdb t s
  | .ldbs t => Sys2Proof.Machine.execLdbs t s
  | .ldh t => Sys2Proof.Machine.execLdh t s
  | .ldhs t => Sys2Proof.Machine.execLdhs t s
  | .ldw t => Sys2Proof.Machine.execLdw t s
  | .ldws t => Sys2Proof.Machine.execLdws t s
  | .ldd t => Sys2Proof.Machine.execLdd t s
  | .ldv t => Sys2Proof.Machine.execLdv t s
  | .ldvs t => Sys2Proof.Machine.execLdvs t s
  | .ldvg t => Sys2Proof.Machine.execLdvg t s
  | .stb t => Sys2Proof.Machine.execStb t s
  | .sth t => Sys2Proof.Machine.execSth t s
  | .stw t => Sys2Proof.Machine.execStw t s
  | .std t => Sys2Proof.Machine.execStd t s
  | .stv t => Sys2Proof.Machine.execStv t s
  | .stvm t => Sys2Proof.Machine.execStvm t s
  | .stvs t => Sys2Proof.Machine.execStvs t s
  | .stvx t => Sys2Proof.Machine.execStvx t s
  | .ldx t => Sys2Proof.Machine.execLdx t s
  | .ldxv t => Sys2Proof.Machine.execLdxv t s
  | .stx t => Sys2Proof.Machine.execStx t s
  | .stxv t => Sys2Proof.Machine.execStxv t s
  | .ltag t => Sys2Proof.Machine.execLtag t s
  | .send t => Sys2Proof.Machine.execSend t s
  | .copy t => Sys2Proof.Machine.execCopy t s
  | .stream t => Sys2Proof.Machine.execStream t s
  | .free t => Sys2Proof.Machine.execFree t s
  | .close t => Sys2Proof.Machine.execClose t s
  | .gathr t => Sys2Proof.Machine.execGathr t s
  | .kexp t => Sys2Proof.Machine.execKexp t s
  | .kclr t => Sys2Proof.Machine.execKclr t s
  | .krd t => Sys2Proof.Machine.execKrd t s
  | .qfence t => Sys2Proof.Machine.execQfence t s
  | .promise t => Sys2Proof.Machine.execPromise t s
  | .aadd t => Sys2Proof.Machine.execAadd t s
  | .amin t => Sys2Proof.Machine.execAmin t s
  | .amax t => Sys2Proof.Machine.execAmax t s
  | .aand t => Sys2Proof.Machine.execAand t s
  | .aor t => Sys2Proof.Machine.execAor t s
  | .axor t => Sys2Proof.Machine.execAxor t s
  | .aswp t => Sys2Proof.Machine.execAswp t s
  | .acas t => Sys2Proof.Machine.execAcas t s
  | .afadd t => Sys2Proof.Machine.execAfadd t s
  | .red t => Sys2Proof.Machine.execRed t s
  | .frd t => Sys2Proof.Machine.execFrd t s
  | .fwr t => Sys2Proof.Machine.execFwr t s
  | .frst t => Sys2Proof.Machine.execFrst t s
  | .barr t => Sys2Proof.Machine.execBarr t s
  | .barw t => Sys2Proof.Machine.execBarw t s
  | .bard t => Sys2Proof.Machine.execBard t s
  | .bartw t => Sys2Proof.Machine.execBartw t s
  | .barq t => Sys2Proof.Machine.execBarq t s
  | .capnew t => Sys2Proof.Machine.execCapnew t s
  | .capsend t => Sys2Proof.Machine.execCapsend t s
  | .capins t => Sys2Proof.Machine.execCapins t s
  | .capdel t => Sys2Proof.Machine.execCapdel t s
  | .capset t => Sys2Proof.Machine.execCapset t s
  | .capfork t => Sys2Proof.Machine.execCapfork t s
  | .capnxt t => Sys2Proof.Machine.execCapnxt t s
  | .capfin t => Sys2Proof.Machine.execCapfin t s
  | .caprd t => Sys2Proof.Machine.execCaprd t s
  | .nextw t => Sys2Proof.Machine.execNextw t s
  | .spawn t => Sys2Proof.Machine.execSpawn t s
  | .regroup t => Sys2Proof.Machine.execRegroup t s
  | .enq t => Sys2Proof.Machine.execEnq t s
  | .addF32 t => Sys2Proof.Machine.execAddF32 t s
  | .subF32 t => Sys2Proof.Machine.execSubF32 t s
  | .mulF32 t => Sys2Proof.Machine.execMulF32 t s
  | .fmaF32 t => Sys2Proof.Machine.execFmaF32 t s
  | .minF32 t => Sys2Proof.Machine.execMinF32 t s
  | .maxF32 t => Sys2Proof.Machine.execMaxF32 t s
  | .absF32 t => Sys2Proof.Machine.execAbsF32 t s
  | .addH t => Sys2Proof.Machine.execAddH t s
  | .mulH t => Sys2Proof.Machine.execMulH t s
  | .fmaH t => Sys2Proof.Machine.execFmaH t s
  | .mulwlH t => Sys2Proof.Machine.execMulwlH t s
  | .mulwhH t => Sys2Proof.Machine.execMulwhH t s
  | .addB t => Sys2Proof.Machine.execAddB t s
  | .fmaB t => Sys2Proof.Machine.execFmaB t s
  | .addI32 t => Sys2Proof.Machine.execAddI32 t s
  | .subI32 t => Sys2Proof.Machine.execSubI32 t s
  | .mulI32 t => Sys2Proof.Machine.execMulI32 t s
  | .dot4I8 t => Sys2Proof.Machine.execDot4I8 t s
  | .addsI8 t => Sys2Proof.Machine.execAddsI8 t s
  | .vecAnd t => Sys2Proof.Machine.execVecAnd t s
  | .vecOr t => Sys2Proof.Machine.execVecOr t s
  | .vecXor t => Sys2Proof.Machine.execVecXor t s
  | .vecShl t => Sys2Proof.Machine.execVecShl t s
  | .vecShr t => Sys2Proof.Machine.execVecShr t s
  | .vecSar t => Sys2Proof.Machine.execVecSar t s
  | .vecSel t => Sys2Proof.Machine.execVecSel t s
  | .cmpeqF32 t => Sys2Proof.Machine.execCmpeqF32 t s
  | .cmpltF32 t => Sys2Proof.Machine.execCmpltF32 t s
  | .cmpleF32 t => Sys2Proof.Machine.execCmpleF32 t s
  | .cmpeqI32 t => Sys2Proof.Machine.execCmpeqI32 t s
  | .cmpltI32 t => Sys2Proof.Machine.execCmpltI32 t s
  | .cvtlF32H t => Sys2Proof.Machine.execCvtlF32H t s
  | .cvthF32H t => Sys2Proof.Machine.execCvthF32H t s
  | .cvtHF32 t => Sys2Proof.Machine.execCvtHF32 t s
  | .cvtBF32 t => Sys2Proof.Machine.execCvtBF32 t s
  | .cvtE4F32 t => Sys2Proof.Machine.execCvtE4F32 t s
  | .cvtF32E4 t => Sys2Proof.Machine.execCvtF32E4 t s
  | .cvtI32F32 t => Sys2Proof.Machine.execCvtI32F32 t s
  | .cvtF32I32 t => Sys2Proof.Machine.execCvtF32I32 t s
  | .rsumF32 t => Sys2Proof.Machine.execRsumF32 t s
  | .rmaxF32 t => Sys2Proof.Machine.execRmaxF32 t s
  | .rsumI32 t => Sys2Proof.Machine.execRsumI32 t s
  | .bcast t => Sys2Proof.Machine.execBcast t s
  | .ins t => Sys2Proof.Machine.execIns t s
  | .ext t => Sys2Proof.Machine.execExt t s
  | .iota t => Sys2Proof.Machine.execIota t s
  | .msk t => Sys2Proof.Machine.execMsk t s
  | .rsq t => Sys2Proof.Machine.execRsq t s
  | .rcp t => Sys2Proof.Machine.execRcp t s
  | .exp2 t => Sys2Proof.Machine.execExp2 t s
  | .log2 t => Sys2Proof.Machine.execLog2 t s
  | .tanh t => Sys2Proof.Machine.execTanh t s
  | .sigm t => Sys2Proof.Machine.execSigm t s
  | .perm t => Sys2Proof.Machine.execPerm t s
  | .rot t => Sys2Proof.Machine.execRot t s
  | .cmp24 t => Sys2Proof.Machine.execCmp24 t s
  | .cmp48 t => Sys2Proof.Machine.execCmp48 t s
  | .expd t => Sys2Proof.Machine.execExpd t s
  | .trset t => Sys2Proof.Machine.execTrset t s
  | .trin t => Sys2Proof.Machine.execTrin t s
  | .trout t => Sys2Proof.Machine.execTrout t s
  | .push t => Sys2Proof.Machine.execPush t s
  | .pusha t => Sys2Proof.Machine.execPusha t s
  | .shift t => Sys2Proof.Machine.execShift t s
  | .loadw t => Sys2Proof.Machine.execLoadw t s
  | .loadm t => Sys2Proof.Machine.execLoadm t s
  | .swap t => Sys2Proof.Machine.execSwap t s
  | .drain t => Sys2Proof.Machine.execDrain t s
  | .aclr t => Sys2Proof.Machine.execAclr t s
  | .amode t => Sys2Proof.Machine.execAmode t s
  | .scala t => Sys2Proof.Machine.execScala t s
  | .scalw t => Sys2Proof.Machine.execScalw t s
  | .sload t => Sys2Proof.Machine.execSload t s
  | .spart t => Sys2Proof.Machine.execSpart t s
  | .fire t => Sys2Proof.Machine.execFire t s
  | .swtok t => Sys2Proof.Machine.execSwtok t s
  | .cdrain t => Sys2Proof.Machine.execCdrain t s
  | .ctrap t => Sys2Proof.Machine.execCtrap t s
  | .cres t => Sys2Proof.Machine.execCres t s
  | .cabort t => Sys2Proof.Machine.execCabort t s
  | .cstat t => Sys2Proof.Machine.execCstat t s
  | .npar t => Sys2Proof.Machine.execNpar t s
  | .bundleDecode => Sys2Proof.Machine.execBundleDecode s
  | .bundleReloadDone => Sys2Proof.Machine.execBundleReloadDone s
  | .resultEmerge => Sys2Proof.Machine.execResultEmerge s
  | .landing => Sys2Proof.Machine.execLanding s
  | .landingDataArrival => Sys2Proof.Machine.execLandingDataArrival s
  | .landingTimeout => Sys2Proof.Machine.execLandingTimeout s
  | .trapEntry => Sys2Proof.Machine.execTrapEntry s
  | .pageFaultReport => Sys2Proof.Machine.execPageFaultReport s
  | .alarmExpiry => Sys2Proof.Machine.execAlarmExpiry s
  | .sleepWake => Sys2Proof.Machine.execSleepWake s
  | .strandSwitch => Sys2Proof.Machine.execStrandSwitch s
  | .implicitMark => Sys2Proof.Machine.execImplicitMark s
  | .recordArrival => Sys2Proof.Machine.execRecordArrival s
  | .strandRelease => Sys2Proof.Machine.execStrandRelease s
  | .pageWalkComplete => Sys2Proof.Machine.execPageWalkComplete s
  | .hostEnqueue => Sys2Proof.Machine.execHostEnqueue s
  | .qstatWrite => Sys2Proof.Machine.execQstatWrite s
  | .launchDequeue => Sys2Proof.Machine.execLaunchDequeue s
  | .recordGenerate => Sys2Proof.Machine.execRecordGenerate s
  | .dispatch => Sys2Proof.Machine.execDispatch s
  | .gangDispatch => Sys2Proof.Machine.execGangDispatch s
  | .agingPromotion => Sys2Proof.Machine.execAgingPromotion s
  | .codeLoadDone => Sys2Proof.Machine.execCodeLoadDone s
  | .launchCompletion => Sys2Proof.Machine.execLaunchCompletion s
  | .faultRingRecheck => Sys2Proof.Machine.execFaultRingRecheck s
  | .switchTokenTake => Sys2Proof.Machine.execSwitchTokenTake s
  | .decodeToken => Sys2Proof.Machine.execDecodeToken s
  | .parityRepairDone => Sys2Proof.Machine.execParityRepairDone s
  | .normRow => Sys2Proof.Machine.execNormRow s
  | .gateToken => Sys2Proof.Machine.execGateToken s
  | .promoteEntry => Sys2Proof.Machine.execPromoteEntry s
  | .drainAtPromote => Sys2Proof.Machine.execDrainAtPromote s
  | .aclrAtPromote => Sys2Proof.Machine.execAclrAtPromote s
  | .swapAtPe => Sys2Proof.Machine.execSwapAtPe s
  | .affineToken => Sys2Proof.Machine.execAffineToken s
  | .activateToken => Sys2Proof.Machine.execActivateToken s
  | .convertToken => Sys2Proof.Machine.execConvertToken s
  | .cornerBlock => Sys2Proof.Machine.execCornerBlock s
  | .reduceToken => Sys2Proof.Machine.execReduceToken s
  | .smaxBurst => Sys2Proof.Machine.execSmaxBurst s
  | .joinToken => Sys2Proof.Machine.execJoinToken s
  | .portScratchpadRead => Sys2Proof.Machine.execPortScratchpadRead s
  | .portScratchpadWrite => Sys2Proof.Machine.execPortScratchpadWrite s
  | .portNetworkIn => Sys2Proof.Machine.execPortNetworkIn s
  | .portNetworkOut => Sys2Proof.Machine.execPortNetworkOut s
  | .doneToken => Sys2Proof.Machine.execDoneToken s
  | .orderingToken => Sys2Proof.Machine.execOrderingToken s
  | .slateLoadDone => Sys2Proof.Machine.execSlateLoadDone s
  | .regionLoadRequest => Sys2Proof.Machine.execRegionLoadRequest s
  | .regionLoadReport => Sys2Proof.Machine.execRegionLoadReport s
  | .regionCommit => Sys2Proof.Machine.execRegionCommit s
  | .regionWithhold => Sys2Proof.Machine.execRegionWithhold s
  | .cabortComplete => Sys2Proof.Machine.execCabortComplete s
  | .walkCommandStart => Sys2Proof.Machine.execWalkCommandStart s
  | .walkBurst => Sys2Proof.Machine.execWalkBurst s
  | .freedSlotNotice => Sys2Proof.Machine.execFreedSlotNotice s
  | .streamBurstArrival => Sys2Proof.Machine.execStreamBurstArrival s
  | .copyDelivery => Sys2Proof.Machine.execCopyDelivery s
  | .sendDelivery => Sys2Proof.Machine.execSendDelivery s
  | .keyCredit => Sys2Proof.Machine.execKeyCredit s
  | .closeAck => Sys2Proof.Machine.execCloseAck s
  | .promiseWatchExpiry => Sys2Proof.Machine.execPromiseWatchExpiry s
  | .routerForward => Sys2Proof.Machine.execRouterForward s
  | .capsuleParkTimeout => Sys2Proof.Machine.execCapsuleParkTimeout s
  | .capsuleArrival => Sys2Proof.Machine.execCapsuleArrival s
  | .capsuleVisitStart => Sys2Proof.Machine.execCapsuleVisitStart s
  | .meetArrival => Sys2Proof.Machine.execMeetArrival s
  | .capsuleReturnDelivery => Sys2Proof.Machine.execCapsuleReturnDelivery s
  | .remoteAccessPerform => Sys2Proof.Machine.execRemoteAccessPerform s
  | .mordantAtomic => Sys2Proof.Machine.execMordantAtomic s
  | .mordantRed => Sys2Proof.Machine.execMordantRed s
  | .frdPerform => Sys2Proof.Machine.execFrdPerform s
  | .fwrPerform => Sys2Proof.Machine.execFwrPerform s
  | .frstPerform => Sys2Proof.Machine.execFrstPerform s
  | .futureDeferral => Sys2Proof.Machine.execFutureDeferral s
  | .fillWalkStep => Sys2Proof.Machine.execFillWalkStep s
  | .barrierArrival => Sys2Proof.Machine.execBarrierArrival s
  | .barqPerform => Sys2Proof.Machine.execBarqPerform s
  | .timedWaiterDeadline => Sys2Proof.Machine.execTimedWaiterDeadline s
  | .ridgeRelease => Sys2Proof.Machine.execRidgeRelease s
  | .releaseNoticeEmit => Sys2Proof.Machine.execReleaseNoticeEmit s
  | .releaseWindowEnd => Sys2Proof.Machine.execReleaseWindowEnd s
  | .barrierWake => Sys2Proof.Machine.execBarrierWake s
  | .hbmRead => Sys2Proof.Machine.execHbmRead s
  | .hbmWrite => Sys2Proof.Machine.execHbmWrite s
  | .revivalDone => Sys2Proof.Machine.execRevivalDone s
  | .reclaimDone => Sys2Proof.Machine.execReclaimDone s
  | .migrationCopyStart => Sys2Proof.Machine.execMigrationCopyStart s
  | .migrationCopyDone => Sys2Proof.Machine.execMigrationCopyDone s
  | .shootdownComplete => Sys2Proof.Machine.execShootdownComplete s
  | .burstApply => Sys2Proof.Machine.execBurstApply s
  | .appliedNotice => Sys2Proof.Machine.execAppliedNotice s
  | .zportBurstSend => Sys2Proof.Machine.execZportBurstSend s
  | .freezeStart => Sys2Proof.Machine.execFreezeStart s
  | .freezeMarker => Sys2Proof.Machine.execFreezeMarker s
  | .freezeComplete => Sys2Proof.Machine.execFreezeComplete s
  | .evictDone => Sys2Proof.Machine.execEvictDone s
  | .flitReceive => Sys2Proof.Machine.execFlitReceive s
  | .replayRequestReceive => Sys2Proof.Machine.execReplayRequestReceive s
  | .laneFailing => Sys2Proof.Machine.execLaneFailing s
  | .replayThresholdFence => Sys2Proof.Machine.execReplayThresholdFence s
  | .linkTrainingDone => Sys2Proof.Machine.execLinkTrainingDone s
  | .linkDrainAcknowledged => Sys2Proof.Machine.execLinkDrainAcknowledged s
  | .clockGate => Sys2Proof.Machine.execClockGate s
  | .wakeRequest => Sys2Proof.Machine.execWakeRequest s
  | .inrushAdmit => Sys2Proof.Machine.execInrushAdmit s
  | .currentSample => Sys2Proof.Machine.execCurrentSample s
  | .boostClaimArrival => Sys2Proof.Machine.execBoostClaimArrival s
  | .boostBoundary => Sys2Proof.Machine.execBoostBoundary s
  | .railSettled => Sys2Proof.Machine.execRailSettled s
  | .sensorSample => Sys2Proof.Machine.execSensorSample s
  | .moduleReset => Sys2Proof.Machine.execModuleReset s
  | .portBReset => Sys2Proof.Machine.execPortBReset s
  | .bringupStepDone => Sys2Proof.Machine.execBringupStepDone s
  | .electionWindowEnd => Sys2Proof.Machine.execElectionWindowEnd s
  | .ownerLost => Sys2Proof.Machine.execOwnerLost s
  | .hostMemoryRead => Sys2Proof.Machine.execHostMemoryRead s
  | .hostMemoryWrite => Sys2Proof.Machine.execHostMemoryWrite s
  | .registerWrite => Sys2Proof.Machine.execRegisterWrite s
  | .claim => Sys2Proof.Machine.execClaim s
  | .handover => Sys2Proof.Machine.execHandover s
  | .reset => Sys2Proof.Machine.execReset s
  | .status => Sys2Proof.Machine.execStatus s
  | .ctxCreate => Sys2Proof.Machine.execCtxCreate s
  | .ctxBind => Sys2Proof.Machine.execCtxBind s
  | .ctxFreeze => Sys2Proof.Machine.execCtxFreeze s
  | .ctxThaw => Sys2Proof.Machine.execCtxThaw s
  | .ctxEvict => Sys2Proof.Machine.execCtxEvict s
  | .ctxDestroy => Sys2Proof.Machine.execCtxDestroy s
  | .queuePause => Sys2Proof.Machine.execQueuePause s
  | .queueResume => Sys2Proof.Machine.execQueueResume s
  | .kernelInstall => Sys2Proof.Machine.execKernelInstall s
  | .kernelRemove => Sys2Proof.Machine.execKernelRemove s
  | .ptRoot => Sys2Proof.Machine.execPtRoot s
  | .tlbShootdown => Sys2Proof.Machine.execTlbShootdown s
  | .pageMigrate => Sys2Proof.Machine.execPageMigrate s
  | .pageReclaim => Sys2Proof.Machine.execPageReclaim s
  | .rawRead => Sys2Proof.Machine.execRawRead s
  | .sensorRead => Sys2Proof.Machine.execSensorRead s
  | .counterRead => Sys2Proof.Machine.execCounterRead s
  | .eventRead => Sys2Proof.Machine.execEventRead s
  | .linkTrain => Sys2Proof.Machine.execLinkTrain s
  | .linkRetrain => Sys2Proof.Machine.execLinkRetrain s
  | .linkRetrainLaneReset => Sys2Proof.Machine.execLinkRetrainLaneReset s
  | .linkDrain => Sys2Proof.Machine.execLinkDrain s
  | .linkSetRwinRthr => Sys2Proof.Machine.execLinkSetRwinRthr s
  | .linkEventMsixEnable => Sys2Proof.Machine.execLinkEventMsixEnable s
  | .attest => Sys2Proof.Machine.execAttest s
  | .identityCert => Sys2Proof.Machine.execIdentityCert s
  | .outputRead => Sys2Proof.Machine.execOutputRead s
  | .mbgoWrite => Sys2Proof.Machine.execMbgoWrite s
  | .hostLinkDown => Sys2Proof.Machine.execHostLinkDown s
  | .hostLinkUp => Sys2Proof.Machine.execHostLinkUp s
  | .meetEntryClear => Sys2Proof.Machine.execMeetEntryClear s

end Sys2Proof.Machine
end

