-- ==== Sys2Proof/Machine/Seq.lean ====
section
/-! DEFINITION. The order in which the module performs its instructions: due events of the agenda first, then the tiles of the tick one after
another, each core's step in its phases (R4, R20, R26, R50-R53, R64, R68-R72, R76, R104, R152, R195, R215, R222, R224). -/

namespace Sys2Proof.Machine

/-- What the machine does next: an instruction to perform with its operand, or a passage that no instruction of the table names. -/
inductive Act where
  | perform (i : Instr) (o : Operand) (s : State)
  | pass (s : State)
deriving DecidableEq, Repr

/-! ### Issue -/

/-- The word that slot k of the issuing strand comes to, when its bundle is decoded and sound. -/
def State.wordOf (s : State) (t n k : Nat) : Option MoveWord :=
  let st := (s.strand t n).stream
  match st.bundle (st.slotSeq.getD k 0) with
  | some b => if b.bad.isSome then none else some (bundleMove (b.bits.getD k 0) k)
  | none => none

/-- One slot's move performed, its outcome's state. -/
def State.issueSlot (s : State) (t n k : Nat) : State :=
  let s := s.modCore t fun co => { co with slot := k }
  match s.wordOf t n k with
  | none => s.modCore t fun co => { co with stalled := k :: co.stalled }
  | some w =>
    match decodeMove w with
    | .error _ => s.modCore t fun co => { co with stalled := k :: co.stalled }
    | .ok i => match exec i s with
      | .next s' => s'
      | _ => s

/-- Whether slot k comes to a trigger. [Assumption 9: DEDUCED.] -/
def State.slotTriggers (s : State) (t n k : Nat) : Bool := ((s.wordOf t n k).map isTriggerWord).getD false

/-- R72, R87: whether every slot stands at one full sync bundle. -/
def State.atFullSync (s : State) (t n : Nat) : Bool :=
  let st := (s.strand t n).stream
  let q := st.minSeq
  st.slotSeq.all (fun p => p == q) &&
    (match st.bundle q with
     | some b => b.bad.isNone && isFullSync (b.bits.headD 0) && b.idx.all fun i => i == b.idx.headD 0
     | none => false)

/-- The slots in the order in which they issue within a step: those that come to plain moves, then those that come to triggers. -/
def State.slotOrder (s : State) (t n : Nat) : List Nat :=
  ((List.range 8).filter fun k => !s.slotTriggers t n k) ++ ((List.range 8).filter fun k => s.slotTriggers t n k).reverse

/-- The state with its strand's moves as far as another state has issued them: what a move of the same bundle then reads. -/
def State.movesOf (s r : State) (t n : Nat) : State :=
  (s.modCore t fun co => { co with ports := (r.core t).ports, latches := (r.core t).latches, issued := (r.core t).issued }).modStrand t n fun x =>
    { x with vers := (r.strand t n).vers, stream := (r.strand t n).stream }

/-- Slot k in the trial of a full sync bundle: the trial goes on, and beside it the state that stays if the bundle does not issue keeps
what holds the slot. -/
def State.trySlot (t n : Nat) (p : State × State) (k : Nat) : State × State :=
  let held := (p.1.movesOf p.2 t n).issueSlot t n k
  (if (held.core t).issued.contains k then p.1 else held.movesOf p.1 t n, p.2.issueSlot t n k)

/-- R72, R104: a full sync bundle issues in all slots or in none. Of one that does not, each slot that is held by itself waits on as in any
other bundle: its walk, its bank conflict or the cause that its move raises stands. -/
def State.holdFullSync (s : State) (t n : Nat) : Option State :=
  let p := (s.slotOrder t n).foldl (State.trySlot t n) (s, s)
  if (List.range 8).all fun k => (p.2.core t).issued.contains k then none
  else some (p.1.modCore t fun co => { co with stalled := List.range 8, fullLog := (p.2.core t).fullLog })

/-- R64: the decode trap of the bundle that every slot has come to. -/
def Strand.decodeTrap (x : Strand) : Option CauseRec :=
  let q := x.stream.minSeq
  match x.stream.bundle q with
  | some b => match b.bad with
    | some (slot, cause, detail) =>
      if x.stream.slotSeq.all fun p => p == q then
        some ⟨cause, BitVec.ofNat 64 (b.idx.getD slot 0), BitVec.ofNat 16 detail, slot⟩
      else none
    | none => none
  | none => none

/-! ### The end of a step -/

/-- Whether the newest versions up to a sequence number may be folded into the store: nothing on its way can still stand under
them. -/
def foldable (co : Core) (n : Nat) (reg : Nat) : Bool :=
  !(co.pipe.any fun f => decide (reg = codeL f.unit)) && !(co.lands.any fun a => decide (a.strand = n) && decide (reg = codeW a.reg))

/-- R70: versions that every later read sees folded into their stores. -/
def foldVers (co : Core) (n low : Nat) (ports : Bool) (base : SMap Wide) (vs : List Ver) : SMap Wide × List Ver :=
  let old := vs.filter fun v => decide (v.vis ≤ low) && decide (isPortReg v.reg = ports) && foldable co n v.reg
  (old.foldl (fun b v => SMap.setD b 0 v.reg (readAt base vs v.reg low)) base,
   vs.filter fun v => !(decide (v.vis ≤ low) && decide (isPortReg v.reg = ports) && foldable co n v.reg))

/-- R220: the entries on which a slot of the strand stalls, with the tick at which it began. -/
def Strand.lateWaits (x : Strand) (co : Core) (n tick : Nat) : List (Nat × Nat) :=
  (co.lands.filter fun a => decide (a.strand = n) && a.late && a.data.isNone && a.frozen.isNone &&
      (List.range 8).any fun k => co.stalled.contains k &&
        (match x.stream.bundle (x.stream.slotSeq.getD k 0) with
         | some b =>
           let w := bundleMove (b.bits.getD k 0) k
           decide (w.extractLsb' 22 2 = 0) && decide ((w.extractLsb' 11 10).toNat = codeW a.reg) && decide (a.vis ≤ b.seq)
         | none => false)).map fun a =>
    match x.timeoutAt.find? fun p => decide (p.1 = a.lid) with
    | some p => p
    | none => (a.lid, tick)

/-- R425: where in its sequence a strand has remote accesses under way that may be to its own tile's scratchpad: handler depth and sequence number. -/
def State.ownAt (s : State) (t n : Nat) : List (Nat × Nat) :=
  (s.reqs.filter fun p => decide (p.2.tile = t) && decide (p.2.strand = n) && (p.2.own || (p.2.opened && decide (p.2.stage = 0)))).map fun p => (p.2.level, p.2.seq)

/-- What no later bundle of the strand needs, nor a remote access under way to its own tile's scratchpad, is dropped. -/
def Tile.tidy (y : Tile) (tick n : Nat) (live : Order → Bool) (ownAt : List (Nat × Nat)) : Tile :=
  let x := y.strand n
  let low := x.stream.minSeq
  let regs := foldVers y.core n low false x.regs x.vers
  let ports := foldVers y.core n low true y.core.ports regs.2
  let evs := if y.core.pipe.isEmpty then x.flagEvs.filter fun e => decide (e.vis ≤ low) else []
  let f := evs.foldl (fun f e => e.apply f) (x.flagBase, x.oarBase)
  let x := { x with
    regs := regs.1, vers := ports.2, flagBase := f.1, oarBase := f.2, flagEvs := x.flagEvs.drop evs.length
    stores := x.stores.filter fun g => !g.done || decide (g.level < x.depth) || decide (low ≤ g.seq) || x.stores.any (fun h => !h.done && decide (h.level = g.level) && h.before g)
      || ownAt.any fun q => decide (q.1 = g.level) && decide (q.2 ≤ g.seq)
    orders := x.orders.filter live
    timeoutAt := x.lateWaits y.core n tick
    stream := { x.stream with window := x.stream.window.filter fun b => decide (low ≤ b.seq) } }
  { y with core := { y.core with ports := ports.1 } }.setStrand n x

/-- R67, R190: no result is in flight and every write of the transposer has taken effect. -/
def Core.settled (co : Core) : Bool := co.pipe.isEmpty && co.trn.pending.all fun p => decide (p.1 ≤ co.stepc)

/-- R67, R194, R204, R205: a bundle that yields or ends the run completes once no result is in flight. [Assumption 17: DEDUCED.] -/
def State.finishYield (s : State) (t n : Nat) : State :=
  let x := s.strand t n
  if !(s.core t).settled then s
  else if x.st = .suspended then s.modCore t fun co => { co with issuing := none }
  else if x.afterYield then
    let up := s.awake t n || !x.takeable.isEmpty
    (s.modStrand t n fun x => { x with afterYield := false, st := if up then .yielded else .sleeping, wake := if up then .none else x.wake }).modCore
      t fun co => { co with issuing := none }
  else s

/-- R467: what a step counts. [Assumption 62: DEDUCED.] -/
def State.countStep (s : State) (t : Nat) : State :=
  let co := s.core t
  let s := s.tally t 2 1
  let level := co.level
  let s := if level = 1 then s.tally t 8 1 else if level = 2 then s.tally t 9 1 else s
  let s := if co.stalled.isEmpty then s else s.tally t 4 1
  let s := match co.gather with | some g => if co.stepc < g.2 then s.tally t 14 1 else s | none => s
  match co.issuing with
  | some n =>
    let k := (s.strand t n).stream.minSeq - co.floor
    let pool := co.stalled.contains (unitSlot 12) && decide (co.stepc < co.poolTill)
      && (s.wordOf t n (unitSlot 12)).any fun w => isTriggerWord w && decide (wordUnit w = 12 ∧ 4 ≤ wordPort w ∧ wordPort w ≤ 9)
    let s := if k = 0 then s else s.tally t 3 k
    if pool then s.tally t 13 1 else s
  | none => s

/-- The end of a step: commit, yield, tidying, and the next step's number. [Assumption 18: DEDUCED.] -/
def State.endStep (s : State) (t : Nat) : State :=
  let s := s.countStep t
  let co := s.core t
  let s := match co.issuing with
    | some n =>
      let s := match co.markReq with
        | some i => s.commit t n i
        | none => s
      (s.modTile t fun y => y.tidy s.tick n (s.orderLive t n) (s.ownAt t n)).finishYield t n
    | none => s
  s.modCore t fun co => { co with
    markReq := none, trapNow := false, phase := .rest, stepc := co.stepc + 1, credit := co.credit - s.stepCost t
    level := (s.cluster (clusterOf t)).level
    banks := []
    owed := co.leftOwed
    busySlot := co.busySlot.filter fun b => decide (co.stepc + 1 < b.2.1)
    gather := match co.gather, co.issuing with
      | some g, some n => if g.1 < (s.strand t n).stream.slotSeq.getD (unitSlot 6) 0 then none else some g
      | _, _ => none }

/-! ### The phases of a step -/

def State.toPhase (s : State) (t : Nat) (p : Phase) : State := s.modCore t fun co => { co with phase := p }

/-- The tick has been spent on this tile. -/
def State.leaveTile (s : State) (t : Nat) : State := { s.toPhase t .rest with cur := none, turn := t + 1 }

/-- R201: the tick at which an entry first was late. -/
def markLate (tick step : Nat) (ls : List Land) : List Land :=
  ls.map fun a => if a.due ≤ step ∧ a.data.isNone ∧ a.lateAt = 0 ∧ a.frozen.isNone then { a with lateAt := tick } else a

def State.actStart (s : State) (t : Nat) : Act :=
  let co := s.core t
  match co.todo with
  | (i, o) :: rest => .perform i o (s.modCore t fun co => { co with todo := rest })
  | [] =>
    if (dueFlight co).isSome then .perform .resultEmerge (opTile t) s
    else
      let s := s.modCore t fun co => { co with lands := markLate s.tick co.stepc co.lands }
      if (s.landNow t).isSome then .perform .landing (opTile t) s
      else match s.landExpired t with
        | some a => .perform .landingTimeout (opTileId t a.lid) s
        | none =>
          if (s.landLate t).isSome then
            if co.frozenAt.isNone then .perform .landing (opTile t) s else .pass (s.leaveTile t)
          else match (List.range 8).find? fun n => s.alarmDue t n with
            | some n => .perform .alarmExpiry (opStrand t n) s
            | none => match (List.range 8).find? fun n => s.sleepDue t n with
              | some n => .perform .sleepWake (opStrand t n) s
              | none => match (List.range 8).find? fun n => s.releasable t n with
                | some n => .perform .strandRelease (opStrand t n) s
                | none => .pass (s.toPhase t .causes)

/-- A step in which no strand issues: no slot stalls in it (R467). -/
def State.idleStep (s : State) (t : Nat) : State :=
  s.modCore t fun co => { co with
    phase := .beat, issued := [], stalled := [], fullLog := false
    floor := match co.issuing with | some n => (s.strand t n).stream.minSeq | none => co.floor }

def State.actCauses (s : State) (t : Nat) : Act :=
  let co := s.core t
  match co.ckptReq with
  | some (n, i) => .pass ((s.checkpoint t n i).modCore t fun co => { co with ckptReq := none })
  | none =>
    match co.issuing with
    | none => if (s.tile t).readyStrand.isSome then .perform .strandSwitch (opTile t) s else .pass (s.idleStep t)
    | some n =>
      let x := s.strand t n
      if co.trapNow ∨ x.afterYield ∨ x.st = .suspended then .pass (s.idleStep t)
      else if x.nextCause.isSome then .perform .trapEntry (opTile t) s
      else .pass ((s.modStrand t n fun x => { x with st := .issuing }).modCore t fun co =>
        { co with phase := .issue 0 0, floor := x.stream.minSeq, issued := [], stalled := [], fullLog := false })

/-- The phase after slot k of a pass. -/
def nextIssue (pass k : Nat) : Phase :=
  if pass = 1 then (if 7 ≤ k then .issue 2 7 else .issue 1 (k + 1))
  else if k = 0 then .beat else .issue 2 (k - 1)

def State.actIssue (s : State) (t n pass k : Nat) : Act :=
  let x := s.strand t n
  if pass = 0 then
    if x.stream.wants && decide (Strand.fetchWait (s.core t) x = .ready) then .perform .bundleDecode (opTile t) s
    else match x.decodeTrap with
      | some r => .pass (((s.raise t n r).modCore t fun co => { co with stalled := List.range 8 }).toPhase t .beat)
      | none =>
        let s := if x.stream.wants && decide (Strand.fetchWait (s.core t) x = .full) then s.modCore t fun co => { co with fullLog := true } else s
        if s.atFullSync t n then
          match s.holdFullSync t n with
          | some s' => .pass (s'.toPhase t .beat)
          | none => .pass (s.toPhase t (.issue 1 0))
        else .pass (s.toPhase t (.issue 1 0))
  else
    let s' := s.modCore t fun co => { co with slot := k, phase := nextIssue pass k }
    match s.wordOf t n k with
    | none => .pass (if pass = 1 then s'.modCore t fun co => { co with stalled := k :: co.stalled } else s')
    | some w =>
      if isTriggerWord w = decide (pass = 2) ∧ !(s.core t).issued.contains k then
        match decodeMove w with
        | .ok i => .perform i (opStrand t n) s'
        | .error _ => .pass s'
      else .pass s'

/-- What a node does in this step: its tokens, a PROMOTE's oldest entry, a PORT's accesses to the banks granted, and a switch token at an
input. -/
def nodeEvents (t : Nat) (grants : List (Nat × Bool × Nat × Bool)) (q : Nat × Node) : List (Instr × Operand) :=
  let n := q.1
  let nd := q.2
  let one (i : Instr) (arg : Nat) : List (Instr × Operand) := [(i, { opNode t n with arg := arg })]
  let isKind (k : Nat) (l : List Tok) : Bool := (l.head?.map fun x => decide (x.kind = k)).getD false
  let data := nd.ins.any (isKind 0)
  let work := if nd.st ≠ .active ∧ nd.st ≠ .aligning then [] else match nodeKind n with
    | .decode => if data then one .decodeToken 0 else []
    | .norm => if data || nd.rowWhole then one .normRow 0 else []
    | .gate => if data then one .gateToken 0 else []
    | .promote => []
    | .affine => if data then one .affineToken 0 else []
    | .activate => if data then one .activateToken 0 else []
    | .convert => if data then one .convertToken 0 else []
    | .corner => if data || decide (nd.row.length = cornerTokens nd.active) then one .cornerBlock 0 else []
    | .reduce => if data then one .reduceToken 0 else []
    | .smax => if data then one .smaxBurst 0 else []
    | .join => if data then one .joinToken 0 else []
    | .port => match nd.walk with
      | none => []
      | some w => match grants.find? fun g => decide (g.1 = n - 48) with
        | some g => [(if g.2.1 then .portScratchpadWrite else .portScratchpadRead, { opNode t n with arg := g.2.2.1, flag := g.2.2.2 })]
        | none =>
          if nd.active.dir = 2 ∧ data ∧ w.blk.tokens ≤ w.tok then one .portScratchpadWrite 0
          else if (nd.active.dir = 3 ∨ nd.active.dir = 6) ∧ nd.out.isEmpty ∧ (!w.buf.isEmpty ∨ w.sent ≠ 0) then one .portNetworkIn 0
          else if nd.active.dir = 4 ∧ (data ∨ (!w.buf.isEmpty ∧ nd.ins.any (isKind 1))) then one .portNetworkOut 0
          else []
  let entry := match nd.entries with
    | [] => []
    | e :: _ => match e.kind with
      | .push => one .promoteEntry 0
      | .pusha => one .promoteEntry 0
      | .drain => one .drainAtPromote 0
      | .aclr => one .aclrAtPromote 0
      | .marker => one .switchTokenTake 1
  work ++ entry ++ (if nd.ins.any (isKind 1) then one .switchTokenTake 0 else [])

/-- The array's and the collar's part of a step. -/
def State.beatEvents (s : State) (t : Nat) : List (Instr × Operand) :=
  let k := s.collar t
  ((s.arr t).swapPes (s.core t).stepc).map (fun q => (.swapAtPe, { opNode t q.1 with arg := q.2 }))
    ++ (if k.nodes.isEmpty then [] else
      let grants := s.portGrants t
      k.nodes.flatMap fun q => nodeEvents t grants q)
    ++ ((k.offers.map Prod.fst).eraseDups.map fun n => (.switchTokenTake, { opNode t n with arg := 2 }))

def State.actFinish (s : State) (t : Nat) : Act :=
  let co := s.core t
  match co.todo with
  | (i, o) :: rest => .perform i o (s.modCore t fun co => { co with todo := rest })
  | [] =>
    match co.issuing with
    | some n =>
      if co.markReq.isNone && co.issued.isEmpty && co.fullLog && !openOutstanding co n (s.strand t n) then .perform .implicitMark (opTile t) s
      else .pass (s.endStep t)
    | none => .pass (s.endStep t)

/-- One act of a tile's core. -/
def State.actTile (s : State) (t : Nat) : Act :=
  match (s.core t).phase with
  | .rest =>
    if s.stepCost t ≤ (s.core t).credit then .pass ((if (s.core t).frozenAt.isSome then s else s.collarStart t).toPhase t .start)
    else .pass (s.leaveTile t)
  | .start => s.actStart t
  | .causes => s.actCauses t
  | .issue pass k =>
    match (s.core t).issuing with
    | some n => s.actIssue t n pass k
    | none => .pass (s.toPhase t .beat)
  | .beat => .pass ((s.modCore t fun co => { co with todo := s.beatEvents t }).toPhase t .finish)
  | .finish => s.actFinish t

/-! ### Tiles in turn -/

/-- R454: what keeps a tile's core domain from gating. -/
def State.isQuiet (s : State) (t : Nat) : Bool :=
  let y := s.tile t
  let k := y.collar
  (y.strands.all fun q => decide (q.2.st = .free) || decide (q.2.st = .sleeping) || decide (q.2.st = .suspended)) && y.core.pipe.isEmpty && y.core.lands.isEmpty
    && y.array.inside.isEmpty && decide (k.sst ≠ .loading) && decide (k.sst ≠ .prepared) && k.lanes.all List.isEmpty && k.wport.isEmpty
    && k.inject.isEmpty && k.offers.isEmpty
    && k.nodes.all fun q => q.2.out.isEmpty && q.2.entries.isEmpty && (q.2.ins.all List.isEmpty) && q.2.row.isEmpty && q.2.elems.isEmpty
        && (q.2.walk.all fun w => w.buf.isEmpty) && (q.2.walk.all fun w => w.closed || decide (w.blk.tokens ≤ w.tok) || decide (w.blk.tokens ≤ w.got))

/-- R455: a deadline of a resident strand has fallen due: an alarm's, a sleep's, or that of a `bartw`. -/
def State.deadlineDue (s : State) (t : Nat) : Bool :=
  (List.range 8).any fun n =>
    let x := s.strand t n
    s.alarmDue t n || s.sleepDue t n || decide (x.st = .yielded)
      || (decide (x.st = .sleeping) && (x.waitHere.any fun w => w.timed && decide (w.deadline ≤ s.tick)))

/-- R467: what the tiles of a die that are not listed, gated since reset, count in a tick. -/
def State.countRest (s : State) : State :=
  s.dieCount.foldl (fun s p =>
    let d := p.1
    let rest (k : Nat) : Nat := 256 - (s.tiles.filter fun q => decide (clusterOf q.1 = k)).length
    let ks := (List.range 4).map fun i => 4 * d + i
    let all := (ks.map rest).sum
    let fast := ((ks.filter fun k => decide ((s.cluster k).freq = 2)).map rest).sum
    ((s.tallyDie d 1 all).tallyDie d 6 all).tallyDie d 10 fast) s

/-- R467: what a tick counts. [Assumption 62: DEDUCED.] -/
def State.countTick (s : State) (t : Nat) : State :=
  let s := s.tally t 1 1
  let s := if (s.core t).frozenAt.isSome then s.tally t 5 1 else s
  let s := if (s.tile t).gated then s.tally t 6 1 else s
  if (s.cluster (clusterOf t)).freq = 2 then s.tally t 10 1 else s

/-- A tile's core at its turn. -/
def State.enterTile (s : State) (t : Nat) : State :=
  ({ s with cur := some t } : State).modCore t fun co =>
    { co with credit := if co.frozenAt.isSome then max co.credit (s.stepCost t) else co.credit + s.stepRate t }

/-- A tile at its turn in the tick: a stopped tile is passed over, a gated one sleeps on unless it is woken (R454, R455). -/
def State.turnOf (s : State) (t : Nat) : Act :=
  let y := s.tile t
  let onward (s : State) : State := { s with turn := t + 1 }
  if y.stopped then .pass (onward s)
  else match (if y.gated then (List.range 8).find? fun n => s.releasable t n else none) with
  | some n => .perform .strandRelease (opStrand t n) s
  | none =>
    let s := s.countTick t
    if y.gated then
      match y.wakeAt with
      | some w =>
        if w ≤ s.tick then .pass ((((s.modTile t fun y => { y with gated := false, wakeAt := none, quiet := 0, poked := false }).modCore t fun co => { co with level := (s.cluster (clusterOf t)).level }).tally t 7 1).enterTile t)
        else .pass (onward s)
      | none => if y.poked || s.deadlineDue t then .perform .wakeRequest (opTile t) (onward s) else .pass (onward s)
    else if y.poked || s.deadlineDue t then .pass ((s.modTile t fun y => { y with poked := false, quiet := 0 }).enterTile t)
    else if !s.isQuiet t then .pass ((s.modTile t fun y => { y with quiet := 0 }).enterTile t)
    else if 63 ≤ y.quiet then .perform .clockGate (opTile t) (onward (s.modTile t fun y => { y with quiet := y.quiet + 1 }))
    else .pass ((s.modTile t fun y => { y with quiet := y.quiet + 1 }).enterTile t)

/-- The next tile of the tick, or the next tick. [Assumption 9: DEDUCED.] -/
def State.actTick (s : State) : Act :=
  match SMap.nextKey s.tiles s.turn with
  | some t => s.turnOf t
  | none => .pass { s.countRest with tick := s.tick + 1, turn := 0 }

/-- What the module does next. -/
def State.act (s : State) : Act :=
  match s.cur with
  | some t => s.actTile t
  | none =>
    match s.agenda with
    | (tick, _, i, o) :: rest => if tick ≤ s.tick then .perform i o { s with agenda := rest } else s.actTick
    | [] => s.actTick

end Sys2Proof.Machine
end

