-- ==== Sys2Proof/Machine/Step.lean ====
section
/-! DEFINITION. One step of the machine, and where its next instruction stands. -/

namespace Sys2Proof.Machine

/-- One step: the instruction that comes next is performed with its operand, or time passes. [Assumption 1: DESIGN CHOICE.] [Assumption 9: DEDUCED.] -/
def step (s : State) : Host.Outcome State Fault Refusal :=
  match s.act with
  | .perform i o s' => exec i { s' with ev := o }
  | .pass s' => .next s'

/-- The word of a `nop` (R62). -/
def nopWord : MoveWord := 0x800000

/-- The slot that may hold a word (R51, R62). [Assumption 4: DEDUCED.] -/
def placeOf (w : MoveWord) : Nat := if isTriggerWord w then unitSlot (wordUnit w) else 0

/-- The bundle of a word in its slot, with `nop` elsewhere. [Assumption 4: DEDUCED.] -/
def bundleOf (w : MoveWord) : Bundle :=
  packBundle ((List.range 8).map fun k => if k = placeOf w then w else nopWord)

/-- The machine with a move as the next thing that its core of tile 0 performs: strand 0 issuing, the bundle of the move
decoded at index 0, and every slot before its own done with. [Assumption 4: DEDUCED.] -/
def State.withFetchWord (s : State) (_nbits w : Nat) : State :=
  let x := BitVec.ofNat 24 w
  let k := placeOf x
  let b := bundleOf x
  let y := s.strand 0 0
  let st : Stream := ⟨List.replicate 8 0, [⟨0, List.replicate 8 0, List.replicate 8 b, none⟩], 1, List.replicate 8 1, 0, false,
    none, none, .off, .off, false⟩
  { s.modTile 0 fun t =>
      { (t.setStrand 0 { y with st := .issuing, stream := st }) with
        code := SMap.set t.code 0 b, nbun := max t.nbun 1, gated := false
        core := { t.core with phase := .issue (if isTriggerWord x then 2 else 1) k, issuing := some 0, floor := 0, issued := [], stalled := [] } } with
    cur := some 0 }

end Sys2Proof.Machine
end

