-- ==== Sys2Proof/Safety.lean ====
section
/-! DEFINITION. The terms that claims are stated in: when a slot issues its move, when a run is safe, and what the state must keep. -/

namespace Sys2Proof.Machine

/-! ### When a slot issues (R69-R72, R206, R222-R224) -/

/-- The issuing slot issues its trigger in this step: nothing holds it, its operands can be read, and there is room for what it makes. -/
structure State.Issues (s : State) (c : Issuer) (u : Nat) (n : Need) (t : Trig) (o : Opnds) : Prop where
  issuer   : s.issuer = some c
  free     : s.triggerFree c n t.sync = true
  operands : s.operands c u n.use0 n.use1 n.use2 t.src = some o
  room     : s.roomFor c n t.w = true

/-- The issuing slot issues its plain move: nothing holds it, its source can be read, and the register has, or needs, no new log entry. -/
structure State.Moves (s : State) (c : Issuer) (sync : Bool) (src : Src) (reg : Option Nat) (v : Wide) : Prop where
  issuer : s.issuer = some c
  free   : s.slotFree c sync = true
  source : s.srcValue c src = some v
  room   : ∀ r, reg = some r → logRoom (s.core c.tile) (s.strand c.tile c.strand) r = true

/-- The issuing slot issues its control item. -/
structure State.Controls (s : State) (c : Issuer) (sync : Bool) : Prop where
  issuer : s.issuer = some c
  free   : s.slotFree c sync = true

/-- A trigger that reads nothing but its source and writes a result in `l` of its unit. -/
abbrev needResult (u : Nat) (use0 use1 : Bool) : Need := { use0 := use0, use1 := use1, result := some u }

/-- The state after a trigger whose only effect is a unit result (R53, R68): the result is on its way, and the slot has issued. -/
def State.resulted (s : State) (c : Issuer) (u lat : Nat) (t : Trig) (v : Wide) (f : BitVec 10) : State :=
  (s.result c u lat t.w v f 0).advance c

/-- The next sequence number of a slot. -/
def State.seqOf (s : State) (c : Issuer) : Nat := (s.strand c.tile c.strand).stream.slotSeq.getD c.slot 0

/-! ### Requests -/

/-- Where a target's address stands. -/
def Target.address : Target → Nat
  | .pinned a _ => a
  | .opened a => a
  | _ => 0

/-- The request of part k of an access stands among the requests under the next free number but k, not yet on its way. -/
structure State.AsksPart (s s' : State) (c : Issuer) (p : LandSpec) (kind : ReqKind) (h : W64) (tg : Target) (data : List Byte) (cmp : W64) (k : Nat)
    (part : Nat × Nat) (r : Req) : Prop where
  stands : SMap.lookup s'.reqs (s.ids + k) = some r
  who    : r.tile = c.tile ∧ r.strand = c.strand ∧ r.run = (s.strand c.tile c.strand).run ∧ r.seq = c.seq ∧ r.level = (s.strand c.tile c.strand).depth
  what   : r.kind = kind ∧ r.handle = h ∧ r.ctx = (s.strand c.tile c.strand).ctx ∧ r.data = (data.drop part.1).take part.2 ∧ r.cmp = cmp
  where_ : r.pa = tg.address + part.1 ∧ r.va = tg.address + part.1 ∧ r.off = part.1 ∧ r.len = part.2 ∧ r.opened = (match tg with | .opened _ => true | _ => false)
  how    : r.rel = p.release ∧ r.scope = p.scope ∧ r.stage = 0

/-- An access has been put on its way: a request for each of its parts, its landing entry when it lands (R75, R76), the hold of an acquire on later
accesses (R173), and the flags of its handle; memory is as it was. -/
structure State.Requested (s s' : State) (c : Issuer) (p : LandSpec) (lands : Bool) (kind : ReqKind) (h : W64) (tg : Target) (size : Nat) (data : List Byte)
    (cmp : W64) (f : BitVec 10) : Prop where
  asks   : ∀ k part, (pageParts tg size)[k]? = some part → ∃ r, s.AsksPart s' c p kind h tg data cmp k part r
  others : ∀ i, i < s.ids → SMap.lookup s'.reqs i = SMap.lookup s.reqs i
  land   : if lands then ∃ a, (s'.core c.tile).lands = (s.core c.tile).lands ++ [a] ∧ a.strand = c.strand ∧ a.reg = p.lreg ∧ a.due = c.step + p.ofs ∧ a.vis = c.seq + p.ofs ∧
      a.seq = c.seq ∧ a.slot = c.slot ∧ a.data = none ∧ a.parts = (pageParts tg size).length
    else (s'.core c.tile).lands = (s.core c.tile).lands
  holds  : (s'.strand c.tile c.strand).orders = (s.strand c.tile c.strand).orders ++
      (if p.acquire then (List.range (pageParts tg size).length).map fun k => ⟨c.seq, true, false, p.scope, some (s.ids + k), 0⟩ else [])
  flags  : (s'.strand c.tile c.strand).flagEvs = ((s.strand c.tile c.strand).addFlags c (c.seq + 1) f 0 0).flagEvs
  mem    : s'.mem = s.mem

/-- A request through a null handle lands a value at once with `NUL` (R164). -/
structure State.LandsNull (s s' : State) (c : Issuer) (p : LandSpec) (v : Wide) : Prop where
  land  : ∃ a, (s'.core c.tile).lands = (s.core c.tile).lands ++ [a] ∧ a.strand = c.strand ∧ a.reg = p.lreg ∧ a.due = c.step + p.ofs ∧ a.data = some v
  flag  : ((s'.strand c.tile c.strand).flagEvs.any fun e => decide (e.set &&& flagNUL ≠ 0) && decide (e.vis = c.seq + 1)) = true
  reqs  : s'.reqs = s.reqs
  mem   : s'.mem = s.mem

/-! ### Events and packets on their way -/

/-- An event stands in the agenda for a tick. -/
def State.Due (s : State) (tick : Nat) (i : Instr) (o : Operand) : Prop := ∃ order, (tick, order, i, o) ∈ s.agenda

/-- An event stands in the agenda for some tick after a given one. -/
def State.DueAfter (s : State) (tick : Nat) (i : Instr) (o : Operand) : Prop := ∃ d, tick < d ∧ s.Due d i o

/-- A packet of a network that brings an event stands at its source's router. -/
def State.Sends (s : State) (vn src dst : Nat) (i : Instr) (o : Operand) : Prop :=
  ∃ n p, SMap.lookup s.pkts n = some p ∧ p.vn = vn ∧ p.src = src ∧ p.at_ = src ∧ p.dst = dst ∧ p.act = i ∧ p.op = o

/-- A request is done with, and its reply is on its way to its requester. -/
def State.Replies (s : State) (n : Nat) (r : Req) (kind code : Nat) (bs : List Byte) : Prop :=
  SMap.lookup s.reqs n = none ∧ s.Sends vnMessage r.homeTile r.tile .landingDataArrival
    { tile := r.tile, strand := r.strand, node := kind, id := (r.lid.map (· + 1)).getD 0, arg := code, word := r.handle, bytes := bs, flag := false }

/-! ### Moves and events -/

/-- An instruction that a slot issues, as against an event or a command of the host. -/
def isMove (i : Instr) : Bool := (encode i).isSome

/-! ### Commands of the host -/

/-- The mailbox carries out a command (R476): it runs, its reserved bits are clear, the module is READY, and its master owns the module where it must. -/
structure State.Commands (s : State) (c : Command) (i : Instr) (own : Bool) (masks : List Nat) : Prop where
  runs  : s.mcp = some c
  named : commandOf c = some i
  clean : c.clean masks = true
  ready : s.phase = 5
  owner : own = true → s.owner = .owned c.master

/-! ### Safe runs -/

/-- A run of any length neither faults nor is refused. -/
def State.Safe (s : State) : Prop := ∀ k, ∃ t, Host.Core.run Sys2Proof.core k s = Host.Outcome.next t

/-! ### What every step keeps -/

/-- Memory is in its canonical form. -/
abbrev State.MemOk (s : State) : Prop := Memory.wf s.mem

end Sys2Proof.Machine
end

