-- ==== Sys2Proof/Certificates/Slice0/Obligations.lean ====
section
/-! DEFINITION. The statements of the model, for the provers. -/

open Sys2Proof Sys2Proof.Machine

/-- For every state in which a trigger of INA or INB issues, with operands a (o0), c (o1) and the trigger value x, exec answers the next
state in which the unit's result is on its way with a latency of 1 step, with the value of R153's table (R154 for the two field
operations) and no flag, and the slot has issued: add, sub, and, or, xor, andn, shl, shr, sar, rol, min, max, minu, maxu, ceq, cne,
clt, cltu, cle, cleu, addw, subw, bfx (o0 alone), mov, clz, popc (no operand port), sel, bfi (o0 and o1). -/
def Obligations.IntegerResults : Prop :=
  ∀ (s : State) (c : Issuer) (t : Trig) (inb : Bool) (o : Opnds),
    let unit := if inb then 3 else 2
    let a := low64 o.o0
    let k := low64 o.o1
    let x := low64 o.t
    let answers (i : Instr) (v : W64) : Prop := exec i s = .next (s.resulted c unit 1 t (widen v) 0)
    let n := min (min (x.toNat / 2 ^ 6 % 2 ^ 7) 64) (64 - x.toNat % 2 ^ 6)
    let m : W64 := BitVec.ofNat 64 (2 ^ n - 1)
    let pos := x.toNat % 2 ^ 6
    let field := (a >>> pos) &&& m
    (s.Issues c unit (needResult unit true false) t o →
      answers (.add t inb) (a + x) ∧ answers (.sub t inb) (a - x) ∧ answers (.and t inb) (a &&& x) ∧ answers (.or t inb) (a ||| x) ∧
      answers (.xor t inb) (a ^^^ x) ∧ answers (.andn t inb) (a &&& ~~~x) ∧
      answers (.shl t inb) (a <<< (x.toNat % 64)) ∧ answers (.shr t inb) (a >>> (x.toNat % 64)) ∧
      answers (.sar t inb) (a.sshiftRight (x.toNat % 64)) ∧ answers (.rol t inb) (a.rotateLeft (x.toNat % 64)) ∧
      answers (.min t inb) (BitVec.ofInt 64 (min a.toInt x.toInt)) ∧ answers (.max t inb) (BitVec.ofInt 64 (max a.toInt x.toInt)) ∧
      answers (.minu t inb) (BitVec.ofNat 64 (min a.toNat x.toNat)) ∧ answers (.maxu t inb) (BitVec.ofNat 64 (max a.toNat x.toNat)) ∧
      answers (.ceq t inb) (if a = x then 1 else 0) ∧ answers (.cne t inb) (if a = x then 0 else 1) ∧
      answers (.clt t inb) (if a.toInt < x.toInt then 1 else 0) ∧ answers (.cltu t inb) (if a.toNat < x.toNat then 1 else 0) ∧
      answers (.cle t inb) (if a.toInt ≤ x.toInt then 1 else 0) ∧ answers (.cleu t inb) (if a.toNat ≤ x.toNat then 1 else 0) ∧
      answers (.addw t inb) ((BitVec.ofNat 32 (a.toNat + x.toNat)).signExtend 64) ∧
      answers (.subw t inb) ((BitVec.ofInt 32 (a.toNat - x.toNat)).signExtend 64) ∧
      answers (.bfx t inb) (if x.getLsbD 13 ∧ 0 < n ∧ n < 64 ∧ field.getLsbD (n - 1) then field ||| ~~~m else field)) ∧
    (s.Issues c unit (needResult unit false false) t o →
      answers (.mov t inb) x ∧ answers (.clz t inb) (BitVec.ofNat 64 (if x = 0 then 64 else 63 - x.toNat.log2)) ∧
      answers (.popc t inb) (BitVec.ofNat 64 ((List.range 64).filter fun j => x.getLsbD j).length)) ∧
    (s.Issues c unit (needResult unit true true) t o →
      answers (.sel t inb) (if a ≠ 0 then k else x) ∧ answers (.bfi t inb) ((a &&& ~~~(m <<< pos)) ||| ((k &&& m) <<< pos)))

/-- For every state in which a trigger of IMD issues, with operands a (o0), k (o1) and trigger value x, exec answers the next state in
which the unit's result is on its way: mul, mulh, mulhu and mulw (a and x) and mad (a, k and x) after 3 steps and without a flag; div,
divu, rem and remu after 20 steps, with DZ exactly when x is 0, the quotient then all ones and the remainder a; the slot has issued. -/
def Obligations.MultiplierResults : Prop :=
  ∀ (s : State) (c : Issuer) (t : Trig) (o : Opnds),
    let a := low64 o.o0
    let k := low64 o.o1
    let x := low64 o.t
    let answers (i : Instr) (lat : Nat) (v : W64) (f : BitVec 10) : Prop := exec i s = .next (s.resulted c 4 lat t (widen v) f)
    let dz : BitVec 10 := if x = 0 then flagDZ else 0
    (s.Issues c 4 (needResult 4 true false) t o →
      answers (.mul t) 3 (BitVec.ofNat 64 (a.toNat * x.toNat)) 0 ∧
      answers (.mulh t) 3 (BitVec.ofInt 64 (a.toInt * x.toInt / 2 ^ 64)) 0 ∧
      answers (.mulhu t) 3 (BitVec.ofNat 64 (a.toNat * x.toNat / 2 ^ 64)) 0 ∧
      answers (.mulw t) 3 (BitVec.ofInt 64 ((a.setWidth 32).toInt * (x.setWidth 32).toInt)) 0 ∧
      answers (.div t) 20 (if x = 0 then BitVec.allOnes 64 else BitVec.ofInt 64 (a.toInt.tdiv x.toInt)) dz ∧
      answers (.divu t) 20 (if x = 0 then BitVec.allOnes 64 else BitVec.ofNat 64 (a.toNat / x.toNat)) dz ∧
      answers (.rem t) 20 (if x = 0 then a else BitVec.ofInt 64 (a.toInt.tmod x.toInt)) dz ∧
      answers (.remu t) 20 (if x = 0 then a else BitVec.ofNat 64 (a.toNat % x.toNat)) dz) ∧
    (s.Issues c 4 (needResult 4 true true) t o → answers (.mad t) 3 (BitVec.ofNat 64 (a.toNat * k.toNat + x.toNat)) 0)

/-- For every state in which an IMD trigger of two operands issues at sequence number q and step u, with operand a and trigger value x: if
x is 0, div and divu put a result of all ones on its way and rem and remu one of a, each with DZ, which emerges at step u + 20 and
whose flag counts for sequence number q + 20 and later; if a is -2^63 and x is -1, div gives -2^63 and rem gives 0 with no flag; and
whenever x is not 0, and for mul, mulh, mulhu, mulw and mad always, the result carries no flag. -/
def Obligations.DivisionCorners : Prop :=
  ∀ (s : State) (c : Issuer) (t : Trig) (o : Opnds),
    let a := low64 o.o0
    let x := low64 o.t
    let starts (i : Instr) (lat : Nat) (f : BitVec 10) (v : Wide → Prop) : Prop := ∃ w s', v w ∧ exec i s = .next s' ∧
      (s'.core c.tile).pipe = (s.core c.tile).pipe ++ [⟨4, w, t.w, c.step + lat, c.seq, c.slot, c.seq + lat, f, 0⟩]
    (s.Issues c 4 (needResult 4 true false) t o →
      (x = 0 → starts (.div t) 20 flagDZ (· = widen (-1)) ∧ starts (.divu t) 20 flagDZ (· = widen (BitVec.allOnes 64)) ∧
        starts (.rem t) 20 flagDZ (· = widen a) ∧ starts (.remu t) 20 flagDZ (· = widen a)) ∧
      (a = BitVec.ofInt 64 (-2 ^ 63) → x = -1 → starts (.div t) 20 0 (· = widen (BitVec.ofInt 64 (-2 ^ 63))) ∧ starts (.rem t) 20 0 (· = 0)) ∧
      (x ≠ 0 → starts (.div t) 20 0 (fun _ => True) ∧ starts (.divu t) 20 0 (fun _ => True) ∧ starts (.rem t) 20 0 (fun _ => True) ∧
        starts (.remu t) 20 0 (fun _ => True)) ∧
      starts (.mul t) 3 0 (fun _ => True) ∧ starts (.mulh t) 3 0 (fun _ => True) ∧ starts (.mulhu t) 3 0 (fun _ => True) ∧
      starts (.mulw t) 3 0 (fun _ => True)) ∧
    (s.Issues c 4 (needResult 4 true true) t o → starts (.mad t) 3 0 (fun _ => True))

/-- For every state in which a trigger of VEC issues, with vectors A (o0), B (o1) and X (the trigger value), exec answers the next state
in which a result of unit 10 is on its way with the latency of R178's table, whose element e is the operation of element e of the
operands and whose flags are the OR of the elements' flags, and the slot has issued. FP operations are those of the arithmetic of
chapter 2 in FP32, FP16 and BF16; mulwl and mulwh take the low and the high 32 FP16 elements; dot4 sums four signed byte products;
adds saturates signed bytes; the others are on 32-bit lanes or on bits. -/
def Obligations.VectorArithmeticResults : Prop :=
  ∀ (s : State) (c : Issuer) (t : Trig) (o : Opnds),
    let lane (w : Nat) (x : Wide) (e : Nat) : Nat := (x.extractLsb' (w * e) w).toNat
    let byte (x : Wide) (e : Nat) : Int := (x.extractLsb' (8 * e) 8).toInt
    let answers (i : Instr) (lat w : Nat) (f : Nat → Nat × BitVec 10) : Prop :=
      ∃ v g, exec i s = .next (s.resulted c 10 lat t v g) ∧ (∀ e < 1024 / w, v.extractLsb' (w * e) w = BitVec.ofNat w (f e).1) ∧
        ∀ j, g.getLsbD j = (List.range (1024 / w)).any fun e => (f e).2.getLsbD j
    let two (i : Instr) (lat w : Nat) (f : Nat → Nat → Nat × BitVec 10) : Prop := answers i lat w fun e => f (lane w o.o0 e) (lane w o.t e)
    (s.Issues c 10 (needResult 10 true false) t o →
      two (.addF32 t) 3 32 fp32.add ∧ two (.subF32 t) 3 32 fp32.sub ∧ two (.mulF32 t) 4 32 fp32.mul ∧
      two (.minF32 t) 3 32 (fun a x => (fp32.minOf a x, 0)) ∧ two (.maxF32 t) 3 32 (fun a x => (fp32.maxOf a x, 0)) ∧
      two (.addH t) 3 16 fp16.add ∧ two (.mulH t) 4 16 fp16.mul ∧ two (.addB t) 3 16 bf16.add ∧
      answers (.mulwlH t) 5 32 (fun e => mulWiden (lane 16 o.o0 e) (lane 16 o.t e)) ∧
      answers (.mulwhH t) 5 32 (fun e => mulWiden (lane 16 o.o0 (32 + e)) (lane 16 o.t (32 + e))) ∧
      two (.addI32 t) 2 32 (fun a x => (a + x, 0)) ∧ two (.subI32 t) 2 32 (fun a x => (a + 2 ^ 32 - x, 0)) ∧
      two (.mulI32 t) 4 32 (fun a x => (a * x, 0)) ∧
      answers (.dot4I8 t) 4 32 (fun e => ((byte o.o0 (4 * e) * byte o.t (4 * e) + byte o.o0 (4 * e + 1) * byte o.t (4 * e + 1)
        + byte o.o0 (4 * e + 2) * byte o.t (4 * e + 2) + byte o.o0 (4 * e + 3) * byte o.t (4 * e + 3)) % 2 ^ 32 |>.toNat, 0)) ∧
      answers (.addsI8 t) 2 8 (fun e =>
        let v := byte o.o0 e + byte o.t e
        if v < -128 then (0x80, flagSAT) else if 127 < v then (0x7F, flagSAT) else ((v % 2 ^ 8).toNat, 0)) ∧
      two (.vecAnd t) 1 32 (fun a x => (a &&& x, 0)) ∧ two (.vecOr t) 1 32 (fun a x => (a ||| x, 0)) ∧ two (.vecXor t) 1 32 (fun a x => (a ^^^ x, 0)) ∧
      two (.vecShl t) 1 32 (fun a x => (a * 2 ^ (x % 32), 0)) ∧ two (.vecShr t) 1 32 (fun a x => (a / 2 ^ (x % 32), 0)) ∧
      answers (.vecSar t) 1 32 (fun e => (((o.o0.extractLsb' (32 * e) 32).sshiftRight (lane 32 o.t e % 32)).toNat, 0))) ∧
    (s.Issues c 10 (needResult 10 true true) t o →
      answers (.fmaF32 t) 4 32 (fun e => fp32.fma (lane 32 o.o0 e) (lane 32 o.o1 e) (lane 32 o.t e)) ∧
      answers (.fmaH t) 4 16 (fun e => fp16.fma (lane 16 o.o0 e) (lane 16 o.o1 e) (lane 16 o.t e)) ∧
      answers (.fmaB t) 4 16 (fun e => bf16.fma (lane 16 o.o0 e) (lane 16 o.o1 e) (lane 16 o.t e)) ∧
      answers (.vecSel t) 1 32 (fun e => (if lane 32 o.o0 e ≠ 0 then lane 32 o.o1 e else lane 32 o.t e, 0))) ∧
    (s.Issues c 10 (needResult 10 false false) t o →
      answers (.absF32 t) 3 32 (fun e => (if (fp32.decode (lane 32 o.t e)).isNan then fp32.nanCode else lane 32 o.t e % 2 ^ 31, 0)))

/-- For every state in which a trigger of VCV or VAX issues, with A (o0), B (o1) and X (the trigger value), exec answers the next state in
which a result of that unit is on its way with its latency and, but for rsum.f32, no flag, and the slot has issued. Each compare sets
a lane to all ones where its relation holds and to 0 elsewhere (latency 2); rsum.f32, rmax.f32 and rsum.i32 put the tree sum, the
largest and the sum modulo 2^32 in lane 0 and 0 in the others (6, 5, 4); bcast, ins, ext, iota and msk (2), perm and rot (3) place
lanes as R184 and R187 give. -/
def Obligations.VectorCompareAndLaneResults : Prop :=
  ∀ (s : State) (c : Issuer) (t : Trig) (o : Opnds),
    let lane (x : Wide) (e : Nat) : BitVec 32 := x.extractLsb' (32 * e) 32
    let fp (x : BitVec 32) : Machine.Num := fp32.decode x.toNat
    let answers (u lat : Nat) (i : Instr) (f : Nat → BitVec 32) : Prop :=
      ∃ v, exec i s = .next (s.resulted c u lat t v 0) ∧ ∀ e < 32, lane v e = f e
    let mask (b : Bool) : BitVec 32 := if b then 0xFFFFFFFF else 0
    let compare (i : Instr) (f : BitVec 32 → BitVec 32 → Bool) : Prop := answers 11 2 i fun e => mask (f (lane o.o0 e) (lane o.t e))
    let lanes := (List.range 32).map fun e => (lane o.t e).toNat
    let scalar (x : Nat) (e : Nat) : BitVec 32 := if e = 0 then BitVec.ofNat 32 x else 0
    (s.Issues c 11 (needResult 11 true false) t o →
      compare (.cmpeqF32 t) (fun a x => numEq (fp a) (fp x)) ∧ compare (.cmpltF32 t) (fun a x => numLess (fp a) (fp x)) ∧
      compare (.cmpleF32 t) (fun a x => numLess (fp a) (fp x) || numEq (fp a) (fp x)) ∧ compare (.cmpeqI32 t) (fun a x => decide (a = x)) ∧
      compare (.cmpltI32 t) (fun a x => decide (a.toInt < x.toInt)) ∧
      answers 11 2 (.ext t) (fun e => if e = 0 then lane o.o0 (o.t.toNat % 32) else 0)) ∧
    (s.Issues c 11 (needResult 11 true true) t o →
      answers 11 2 (.ins t) (fun e => if e = o.o1.toNat % 32 then o.t.setWidth 32 else lane o.o0 e)) ∧
    (s.Issues c 11 (needResult 11 false false) t o →
      (∃ v, exec (.rsumF32 t) s = .next (s.resulted c 11 6 t v (treeReduce fp32.add 5 lanes).2) ∧
        ∀ e < 32, lane v e = scalar ((treeReduce fp32.add 5 lanes).1.headD 0) e) ∧
      answers 11 5 (.rmaxF32 t) (scalar (lanes.tail.foldl fp32.maxOf (fp32.maxOf (lanes.headD 0) (lanes.headD 0)))) ∧
      answers 11 4 (.rsumI32 t) (scalar lanes.sum) ∧
      answers 11 2 (.bcast t) (fun _ => o.t.setWidth 32) ∧ answers 11 2 (.iota t) (fun e => BitVec.ofNat 32 (o.t.toNat + e)) ∧
      answers 11 2 (.msk t) (fun e => mask (decide (e < o.t.toNat % 2 ^ 64)))) ∧
    (s.Issues c 12 (needResult 12 true false) t o →
      answers 12 3 (.perm t) (fun e => if (lane o.t e).getLsbD 31 then 0 else lane o.o0 ((lane o.t e).toNat % 32)) ∧
      answers 12 3 (.rot t) (fun e => lane o.o0 ((e + o.t.toNat % 32) % 32)))

/-- For every state in which a conversion of VCV issues. The exact widenings cvtl.f32.h, cvth.f32.h and cvt.f32.e4 put on their way, after
3 steps and without a flag, the FP32 values of the low or the high 32 FP16 elements or of the 32 E4M3 elements of the trigger value.
The narrowings cvt.h.f32, cvt.b.f32, cvt.e4.f32, cvt.i32.f32 and cvt.f32.i32, when vrc can be read by the bundle and (under SR16) the
log has room for it, round lane e under the mode of vrc, with under SR16 the word of the generator after e + 1 advances, and put the
elements and the OR of their flags on their way after 3 steps; vrc is unchanged unless its mode is SR16, and then its new value, the
state after 32 advances, is written at the bundle's lowest rank for later reads. The slot has issued. -/
def Obligations.VectorConversionResults : Prop :=
  ∀ (s : State) (c : Issuer) (t : Trig) (o : Opnds),
    let lane (x : Wide) (e : Nat) : BitVec 32 := x.extractLsb' (32 * e) 32
    let x := s.strand c.tile c.strand
    let v := low64 (x.regAt codeVrc c.seq)
    let widens (i : Instr) (f : Nat → Nat) : Prop := ∃ r, exec i s = .next (s.resulted c 11 3 t r 0) ∧ ∀ e < 32, lane r e = BitVec.ofNat 32 (f e)
    let narrows (i : Instr) (w : Nat) (f : Round → Nat → BitVec 32 → Nat × BitVec 10) : Prop :=
      let at' (e : Nat) : Nat × BitVec 10 := f (vrcMode v) (laneRandom v e) (lane o.t e)
      ∃ r g, (∀ e < 32, r.extractLsb' (w * e) w = BitVec.ofNat w (at' e).1) ∧ (∀ j, g.getLsbD j = (List.range 32).any fun e => (at' e).2.getLsbD j) ∧
        exec i s = .next (((if vrcMode v = .sr16 then (s.result c 11 3 t.w r g 0).modStrand c.tile c.strand fun x => x.writeRank c 0 codeVrc (c.seq + 1) (widen (vrcAfter v))
          else s.result c 11 3 t.w r g 0)).advance c)
    s.Issues c 11 (needResult 11 false false) t o →
      widens (.cvtlF32H t) (fun e => (fp32.rne (fp16.decode (o.t.extractLsb' (16 * e) 16).toNat)).1) ∧
      widens (.cvthF32H t) (fun e => (fp32.rne (fp16.decode (o.t.extractLsb' (16 * (32 + e)) 16).toNat)).1) ∧
      widens (.cvtF32E4 t) (fun e => (fp32.rne (e4m3.decode (o.t.extractLsb' (8 * e) 8).toNat)).1) ∧
      (regReady (s.core c.tile) c.strand x codeVrc c.seq c.step = true → (vrcMode v = .sr16 → logRoom (s.core c.tile) x codeVrc = true) →
        narrows (.cvtHF32 t) 16 (fun m r y => fp16.narrow m false r (fp32.decode y.toNat)) ∧
        narrows (.cvtBF32 t) 16 (fun m r y => bf16.narrow m false r (fp32.decode y.toNat)) ∧
        narrows (.cvtE4F32 t) 8 (fun m r y => e4m3.narrow m true r (fp32.decode y.toNat)) ∧
        narrows (.cvtI32F32 t) 32 (fun m r y => ((BitVec.ofInt 32 (numToInt 32 m r (fp32.decode y.toNat)).1).toNat, (numToInt 32 m r (fp32.decode y.toNat)).2)) ∧
        narrows (.cvtF32I32 t) 32 (fun m r y => fp32.narrow m false r (intNum y.toInt)))

/-- For every state in which a trigger of VAX issues. When the pool is free, rsq, rcp, exp2, log2, tanh and sigm put on their way after 14
steps the function of each lane rounded once to FP32, with the OR of the lanes' flags, and hold the pool for 8 steps from the trigger;
while the pool is held each stalls its slot and changes nothing else. cmp24 and cmp48 put the compressed vector on its way after 4
steps, and expd (with A in o0) the expanded one, in the mode of bit 0 of its trigger value, all without flags. In each case but the
stall the slot has issued. -/
def Obligations.SpecialFunctionResults : Prop :=
  ∀ (s : State) (c : Issuer) (t : Trig) (o : Opnds),
    let special (i : Instr) (f : Machine.Num → Machine.Num × BitVec 10) : Prop :=
      (s.core c.tile).poolTill ≤ c.step →
      let at' (e : Nat) : Nat × BitVec 10 := specialLane f (o.t.extractLsb' (32 * e) 32).toNat
      ∃ v g, (∀ e < 32, v.extractLsb' (32 * e) 32 = BitVec.ofNat 32 (at' e).1) ∧ (∀ j, g.getLsbD j = (List.range 32).any fun e => (at' e).2.getLsbD j) ∧
        exec i s = .next (((s.result c 12 14 t.w v g 0).modCore c.tile fun co => { co with poolTill := c.step + 8 }).advance c)
    let waits (i : Instr) : Prop := c.step < (s.core c.tile).poolTill → exec i s = .next (s.stall c)
    (s.Issues c 12 (needResult 12 false false) t o →
      special (.rsq t) numRsq ∧ special (.rcp t) numRcp ∧ special (.exp2 t) numExp2 ∧ special (.log2 t) numLog2 ∧ special (.tanh t) numTanh ∧
      special (.sigm t) numSigm ∧
      waits (.rsq t) ∧ waits (.rcp t) ∧ waits (.exp2 t) ∧ waits (.log2 t) ∧ waits (.tanh t) ∧ waits (.sigm t) ∧
      exec (.cmp24 t) s = .next (s.resulted c 12 4 t (compress 4 2 o.t) 0) ∧ exec (.cmp48 t) s = .next (s.resulted c 12 4 t (compress 8 3 o.t) 0)) ∧
    (s.Issues c 12 (needResult 12 true false) t o →
      exec (.expd t) s = .next (s.resulted c 12 4 t (if o.t.getLsbD 0 then expand 8 3 o.o0 else expand 4 2 o.o0) 0))

/-- For every state in which a trigger of TRN issues at step u. trset of a legal shape, and trin of row A AND 31, add their change to
those that the block takes at the end of step u + 1, and nothing else of the core changes but the slot's own issue; a trset with a
reserved bit or ES 0b11 raises cause 2 on the strand, issues nothing and leaves the block. trout puts on its way after 3 steps the
column of the block as it stands at the start of step u: 0 for a column at or above n, else element i of the low n elements is row i's
element, and no flag. -/
def Obligations.TransposerResults : Prop :=
  ∀ (s : State) (c : Issuer) (t : Trig) (o : Opnds),
    let block := (s.core c.tile).trn.atStep c.step
    let x := low64 o.t
    let es := (x.extractLsb' 0 2).toNat
    let bad := x.extractLsb' 13 51 ≠ 0 ∨ x.extractLsb' 2 6 ≠ 0 ∨ es = 3
    let takes (p : Nat × Option (Nat × Wide) × Nat × Nat) : State := s.modCore c.tile fun co => { co with trn := { block with pending := block.pending ++ [p] } }
    (s.Issues c 13 {} t o →
      (¬ bad → exec (.trset t) s = .next ((takes (c.step + 1, none, 32 / 2 ^ es, (x.extractLsb' 8 5).toNat + 1)).advance c)) ∧
      (bad → ∃ s', exec (.trset t) s = .next s' ∧ (s'.core c.tile).trn = (s.core c.tile).trn ∧ s'.seqOf c = s.seqOf c ∧
        (s'.strand c.tile c.strand).causes.any (fun r => decide (r.cause = 2)) = true)) ∧
    (s.Issues c 13 { use0 := true } t o →
      exec (.trin t) s = .next ((takes (c.step + 1, some (o.o0.toNat % 32, o.t), 0, 0)).advance c)) ∧
    (s.Issues c 13 (needResult 13 false false) t o → block.es = 32 ∨ block.es = 16 ∨ block.es = 8 → block.n ≤ 32 →
      ∃ v, exec (.trout t) s = .next (s.resulted c 13 3 t v 0) ∧
        (block.n ≤ x.toNat → v = 0) ∧
        (x.toNat < block.n → ∀ e < block.n, v.extractLsb' (block.es * e) block.es = (SMap.get block.rows 0 e).extractLsb' (block.es * x.toNat) block.es))

/-- For every state in which a trigger of ADR issues, exec answers the next state in which a result of unit 5 is on its way after 2 steps
and the slot has issued: xa and xab give the handle of byte o0 of extent X and the bytes that it covers from there, each 0 with NUL
outside the extent; xlen gives the extent's length, 0 for an extent above 7; idx gives X + o0 × o1 modulo 2^64; hdl gives the handle
of o0 bytes at address X, 0 with NUL for a length of 0 or an address of more than 52 bits. What a byte's handle is: pinned through the
first slot that covers it below OPN, else open. -/
def Obligations.AddressResults : Prop :=
  ∀ (s : State) (c : Issuer) (t : Trig) (o : Opnds),
    let x := s.strand c.tile c.strand
    let a := (low64 o.o0).toNat
    let j := (low64 o.t).toNat
    let answers (i : Instr) (v : W64) (f : BitVec 10) : Prop := exec i s = .next (s.resulted c 5 2 t (widen v) f)
    let out := ¬ (j < 8 ∧ (x.extent j).acc ≠ 0 ∧ a < (x.extent j).len)
    let slot := if a < (x.extent j).opn then x.slotFor j a else none
    (s.Issues c 5 (needResult 5 true false) t o →
      (out → answers (.xa t) 0 flagNUL ∧ answers (.xab t) 0 flagNUL) ∧
      (¬ out → ∀ k, slot = some k →
        answers (.xa t) (pinnedHandle k ((x.extSlot k).pb + a - (x.extSlot k).ofs)) 0 ∧
        answers (.xab t) (BitVec.ofNat 64 ((x.extSlot k).ofs + (x.extSlot k).rlen - a)) 0) ∧
      (¬ out → slot = none →
        answers (.xa t) (openHandle ((x.extent j).vb + a)) 0 ∧ answers (.xab t) (BitVec.ofNat 64 ((x.extent j).len - a)) 0) ∧
      ((low64 o.o0 = 0 ∨ 2 ^ 52 ≤ j) → answers (.hdl t) 0 flagNUL) ∧
      (low64 o.o0 ≠ 0 → j < 2 ^ 52 → answers (.hdl t) (x.hdlOf (low64 o.o0) (low64 o.t)).1 0)) ∧
    (s.Issues c 5 (needResult 5 false false) t o → answers (.xlen t) (if j < 8 then BitVec.ofNat 64 (x.extent j).len else 0) 0) ∧
    (s.Issues c 5 (needResult 5 true true) t o → answers (.idx t) (low64 o.t + low64 o.o0 * low64 o.o1) 0)

/-- For every state in which a load of LDS issues (a trigger value X, o0 or o1 as the form uses). ldb, ldbs, ldh, ldhs, ldw, ldws and ldd
put on their way after 3 steps the 1, 2, 4 or 8 bytes at X with its low bits cleared, zero- or sign-extended; ldv after 4 steps the
128 bytes from X aligned to 16; ldvs after 5 steps eight granules at X + g × o1; ldvg after 6 steps 32 words at X plus the signed lane
of o0, the last two once no bank conflict holds them, and while one does they stall their slot. A piece beyond the scratchpad reads 0.
MIS is set where low bits were cleared and OOR, with oar, where a piece is beyond the scratchpad. The slot has issued. -/
def Obligations.ScratchpadLoadResults : Prop :=
  ∀ (s : State) (c : Issuer) (t : Trig) (o : Opnds),
    let x := low64 o.t
    let bytesAt (p : Piece) : List Byte := if scratchSize ≤ p.1 then List.replicate p.2 0 else s.scratchAt c c.seq p.1 p.2
    let landsAs (i : Instr) (lat : Nat) (ps : List Piece) (v : Wide) (mis : Bool) (oarAddr : Nat → Nat) : Prop :=
      exec i s = .next (((s.useBanks c.tile false ps).result c 6 lat t.w v (accessFlags mis ps oarAddr).1 (accessFlags mis ps oarAddr).2).advance c)
    let scalar (i : Instr) (n : Nat) (signed : Bool) : Prop :=
      let a := x.toNat / n * n
      let v := leNat (bytesAt (a, n))
      landsAs i 3 [(a, n)] (widen (if signed then (BitVec.ofNat (8 * n) v).signExtend 64 else BitVec.ofNat 64 v)) (decide (x.toNat % n ≠ 0)) id
    let vector (i : Instr) (lat : Nat) (ps : List Piece) (mis : Bool) : Prop :=
      landsAs i lat ps (BitVec.ofNat 1024 (leNat (ps.flatMap bytesAt))) mis granuleOf
    (s.Issues c 6 (loadNeed false false) t o →
      scalar (.ldb t) 1 false ∧ scalar (.ldbs t) 1 true ∧ scalar (.ldh t) 2 false ∧ scalar (.ldhs t) 2 true ∧ scalar (.ldw t) 4 false ∧
      scalar (.ldws t) 4 true ∧ scalar (.ldd t) 8 false ∧
      vector (.ldv t) 4 (vectorPieces (x.toNat / 16 * 16)) (decide (x.toNat % 16 ≠ 0))) ∧
    (s.Issues c 6 (loadNeed false true) t o → let ps := stridePieces x (low64 o.o1)
      (s.bankWait c false ps = none → vector (.ldvs t) 5 ps (strideMis x (low64 o.o1))) ∧
      ∀ s', s.bankWait c false ps = some s' → exec (.ldvs t) s = .next s') ∧
    (s.Issues c 6 (loadNeed true false) t o → let ps := lanePieces x o.o0
      (s.bankWait c false ps = none → vector (.ldvg t) 6 ps (laneMis x o.o0)) ∧
      ∀ s', s.bankWait c false ps = some s' → exec (.ldvg t) s = .next s')

/-- For every state in which a store of LDS issues. stb, sth, stw and std store the low 1, 2, 4 or 8 bytes of o0 at X with its low bits
cleared; stv the 128 bytes of o0 from X aligned to 16; stvm those of its words that o2 marks; stvs eight granules at X + g × o2; stvx
32 words at X plus the signed lanes of o1, the last two once no bank conflict holds them, and while one does they stall. The pieces
that lie in the scratchpad become one entry of the strand's store list, in its place in sequence order: outside a handler not yet
performed, memory unchanged; in a handler performed at once, beneath those of later bundles that stand already, and with none of these
its bytes stand in memory; where memory is in its canonical form no other byte changes. MIS and OOR, with oar, are seen from the next
sequence number, and the slot has issued. A masked store of no word takes an empty entry and sets no flag. -/
def Obligations.ScratchpadStoreEffects : Prop :=
  ∀ (s : State) (c : Issuer) (t : Trig) (o : Opnds),
    let x := low64 o.t
    let stores (i : Instr) (ps : List (Piece × List Byte)) (mis : Bool) (oarAddr : Nat → Nat) : Prop :=
      ∃ s', exec i s = .next s' ∧
        let parts := (ps.filter fun p => !decide (scratchSize ≤ p.1.1)).map fun p => (p.1.1, p.2)
        let depth := (s.strand c.tile c.strand).depth
        let old := (s.strand c.tile c.strand).stores
        let g : GStore := ⟨c.seq, c.slot, depth, parts, true, false, []⟩
        (depth = 0 → (s'.strand c.tile c.strand).stores = insertStore old g ∧ s'.mem = s.mem) ∧
        (0 < depth → (s'.strand c.tile c.strand).stores = (performStore s.mem c.tile old g).2 ∧ s'.mem = (performStore s.mem c.tile old g).1 ∧
          ((∀ h ∈ old, h.level = depth → h.done = true → g.before h = false) → s'.mem = (performParts s.mem c.tile parts).1) ∧
          ∀ a, s.MemOk → (∀ p ∈ parts, a < tileBase c.tile + p.1 ∨ tileBase c.tile + p.1 + p.2.length ≤ a) → memRead s'.mem a 1 = memRead s.mem a 1) ∧
        s'.seqOf c = (if c.slot < (s.strand c.tile c.strand).stream.slotSeq.length then c.seq + 1 else 0) ∧
        (s'.strand c.tile c.strand).flagEvs = ((s.strand c.tile c.strand).addFlags c (c.seq + 1)
          (accessFlags mis (ps.map Prod.fst) oarAddr).1 0 (accessFlags mis (ps.map Prod.fst) oarAddr).2).flagEvs
    let scalar (i : Instr) (n : Nat) : Prop := stores i [((x.toNat / n * n, n), leBytes n (low64 o.o0).toNat)] (decide (x.toNat % n ≠ 0)) id
    (s.Issues c 6 (storeNeed false false) t o →
      scalar (.stb t) 1 ∧ scalar (.sth t) 2 ∧ scalar (.stw t) 4 ∧ scalar (.std t) 8 ∧
      stores (.stv t) (dealPieces (vectorPieces (x.toNat / 16 * 16)) (wideBytes o.o0)) (decide (x.toNat % 16 ≠ 0)) granuleOf) ∧
    (s.Issues c 6 (storeNeed false true) t o →
      (let words := dealPieces ((List.range 32).map fun i => ((x.toNat / 16 * 16 + 4 * i) % 2 ^ 64, 4)) (wideBytes o.o0)
       let ps := (List.range 32).filterMap fun i => if o.o2.getLsbD i then words[i]? else none
       stores (.stvm t) ps (decide (ps ≠ []) && decide (x.toNat % 16 ≠ 0)) granuleOf) ∧
      (let ps := stridePieces x (low64 o.o2)
       (s.bankWait c true ps = none → stores (.stvs t) (dealPieces ps (wideBytes o.o0)) (strideMis x (low64 o.o2)) granuleOf) ∧
       ∀ s', s.bankWait c true ps = some s' → exec (.stvs t) s = .next s')) ∧
    (s.Issues c 6 (storeNeed true false) t o → let ps := lanePieces x o.o1
      (s.bankWait c true ps = none → stores (.stvx t) (dealPieces ps (wideBytes o.o0)) (laneMis x o.o1) granuleOf) ∧
      ∀ s', s.bankWait c true ps = some s' → exec (.stvx t) s = .next s')

/-- For every state in which a plain move issues with the source value v. A move to m or s writes the low 64 bits of v, one to v all of
it, a loop counter bits 31-0, lk bits 11-0, ksel bits 15-0, vrc the stored form of bits 63-0, each as a write at the rank of its slot
seen by reads of later sequence numbers; a move to an operand port writes the port's width, seen by its own bundle too; a write of
flags clears the flags whose bits are 1 in v from the next sequence number; a write of the alarm sets the deadline to bits 63-0,
unless a later bundle's write, or one of its own bundle in a higher slot, stands. The slot has issued, and nothing else changes but
the register log that the write's entry may join. nop and a long-immediate prefix of any payload only issue; a held nop stalls. -/
def Obligations.MoveWrites : Prop :=
  ∀ (s : State) (c : Issuer) (sync : Bool) (src : Src) (v : Wide) (payload : BitVec 22),
    (s.Controls c sync → exec (.nop sync) s = .next (s.advance c)) ∧ (s.Controls c false → exec (.longImmediatePrefix payload) s = .next (s.advance c)) ∧
    (s.issuer = some c → s.slotFree c sync = false → exec (.nop sync) s = .next (s.stall c)) ∧
    let writes (i : Instr) (reg vis : Nat) (x : Wide) : Prop := exec i s = .next ((s.writeReg c reg vis x).advance c)
    let low (n : Nat) : Wide := BitVec.ofNat 1024 (v.toNat % 2 ^ n)
    (∀ d, s.Moves c sync src (some (dstCode d)) v →
      writes (.move sync src d) (dstCode d) (c.seq + 1) (match d with | .m _ => low 64 | .s _ => low 64 | .v _ => v)) ∧
    (∀ b, s.Moves c sync src (some (codeLc b)) v → writes (.loopCounterWrite sync src b) (codeLc b) (c.seq + 1) (low 32)) ∧
    (s.Moves c sync src (some codeLk) v → writes (.lkWrite sync src) codeLk (c.seq + 1) (low 12)) ∧
    (s.Moves c sync src (some codeKsel) v → writes (.kselWrite sync src) codeKsel (c.seq + 1) (low 16)) ∧
    (s.Moves c sync src (some codeVrc) v → writes (.vrcWrite sync src) codeVrc (c.seq + 1) (widen (vrcStored (low64 v)))) ∧
    (s.Moves c sync src none v →
      (∀ (u : BitVec 4) (p : BitVec 2), writes (.operandPortWrite sync src u p) (codePort u.toNat p.toNat) c.seq (if portWide u.toNat p.toNat then v else low 64)) ∧
      exec (.flagsWrite sync src) s = .next ((s.modStrand c.tile c.strand fun x => x.addFlags c (c.seq + 1) 0 (v.setWidth 10) 0).advance c) ∧
      exec (.alarmWrite sync src) s = .next ((s.modStrand c.tile c.strand fun x => if x.alarmBy.any (fun b => decide (c.seq < b.1 ∨ (c.seq = b.1 ∧ c.slot < b.2))) then x
        else { x with alarm := low64 v, alarmBy := some (c.seq, c.slot) }).advance c))

/-- Writing a register r of a strand at sequence number c.seq with visibility vis, when no write of r that counts later stands already: a
read of r at any sequence number below vis sees what it saw before, one at vis or above sees the new value, and every other register,
the flags and oar read as before at every sequence number. The base store is unchanged. Outside a handler a register that the log
covers and that is outside the strand's log joins it at its end with the base value and the versions it had, which read at every
sequence number as the register did; any other write leaves the log as it was. -/
def Obligations.RegisterReadSeesLatestWrite : Prop :=
  ∀ (x : Strand) (c : Issuer) (r vis : Nat) (v : Wide),
    (∀ u ∈ x.vers, u.reg = r → u.vis < vis ∨ (u.vis = vis ∧ (u.seq < c.seq ∨ (u.seq = c.seq ∧ u.slot ≤ c.slot + 1)))) →
    (∀ q < vis, (x.write c r vis v).regAt r q = x.regAt r q) ∧ (∀ q, vis ≤ q → (x.write c r vis v).regAt r q = v) ∧
    (∀ k q, k ≠ r → (x.write c r vis v).regAt k q = x.regAt k q) ∧ (∀ q, (x.write c r vis v).flagsAt q = x.flagsAt q) ∧
    (x.write c r vis v).regs = x.regs ∧
    (x.depth = 0 → isLogged r = true → x.inLog r = false → (x.write c r vis v).log = x.log ++ [⟨r, SMap.get x.regs 0 r, x.vers.filter fun w => decide (w.reg = r)⟩]) ∧
    (0 < x.depth ∨ isLogged r = false ∨ x.inLog r = true → (x.write c r vis v).log = x.log) ∧
    (∀ q, readAt [(r, SMap.get x.regs 0 r)] (x.vers.filter fun w => decide (w.reg = r)) r q = x.regAt r q)

/-- For every state in which a transfer trigger of CTL issues in a bundle of index i at sequence number q, with a = o0. br always, brz
when a is 0, brnz when it is not, brn when bit 63 of a is 1, brnn when it is 0, go to (i + X) modulo 4,096; jmp and call go to bits
11-0 of X; ret goes to lk as the bundle reads it, once it can; call also writes lk = (i + 2) modulo 4,096 for the delay bundle on,
once the log has room. Going to an index means: control passes there from sequence number q + 2, an active loop whose body does not
hold the index is deactivated, and no other part of the strand changes but lk for call. A transfer that is not taken leaves everything
but that the slot has issued. -/
def Obligations.TransferEffects : Prop :=
  ∀ (s : State) (c : Issuer) (t : Trig) (o : Opnds),
    let i := s.indexHere c
    let a := low64 o.o0
    let x := s.strand c.tile c.strand
    let body (l : HwLoop) (k : Nat) : Prop := (k + 4096 - l.first) % 4096 ≤ (l.last + 4096 - l.first) % 4096
    let goes (j : Instr) (target : Nat) (after : Strand → Strand) : Prop := ∃ l0 l1,
      exec j s = .next ((s.modStrand c.tile c.strand fun y => after { y with stream := { y.stream with redirect := some (c.seq + 2, target), loop0 := l0, loop1 := l1 } }).advance c) ∧
      (l0 = if x.stream.loop0.active ∧ ¬ body x.stream.loop0 target then { x.stream.loop0 with active := false } else x.stream.loop0) ∧
      (l1 = if x.stream.loop1.active ∧ ¬ body x.stream.loop1 target then { x.stream.loop1 with active := false } else x.stream.loop1)
    let branch (j : Instr) (taken : Prop) : Prop :=
      (taken → goes j ((i + (low64 o.t).toNat % 4096) % 4096) id) ∧ (¬ taken → exec j s = .next (s.advance c))
    (s.Issues c 0 {} t o →
      branch (.br t) True ∧ goes (.jmp t) ((low64 o.t).toNat % 4096) id ∧
      (logRoom (s.core c.tile) x codeLk = true →
        goes (.call t) ((low64 o.t).toNat % 4096) fun y => y.write c codeLk (c.seq + 1) (BitVec.ofNat 1024 ((i + 2) % 4096))) ∧
      (regReady (s.core c.tile) c.strand x codeLk c.seq c.step = true → goes (.ret t) ((x.regAt codeLk c.seq).toNat % 4096) id)) ∧
    (s.Issues c 0 { use0 := true } t o →
      branch (.brz t) (a = 0) ∧ branch (.brnz t) (a ≠ 0) ∧ branch (.brn t) (a.toInt < 0) ∧ branch (.brnn t) (0 ≤ a.toInt))

/-- For every state in which loop0 or loop1 issues in a bundle of index i at sequence number q, with trip count n = bits 31-0 of o0 and
body length b = X. When b is 0 or above 4,095 cause 2 is raised on the strand, the slot does not issue and the loops stay as they
were. Otherwise, when the log has room for the counter, lcN = n for later reads and no bundle waits for the set-up any more; for n = 0
the bundle at (i + b + 1) modulo 4,096 follows, else loop N is active over (i + 1) to (i + b) modulo 4,096 as the loop set up last,
and the other loop stays as it was. The slot has issued. -/
def Obligations.LoopSetUpEffects : Prop :=
  ∀ (s : State) (c : Issuer) (t : Trig) (o : Opnds),
    let i := s.indexHere c
    let b := (low64 o.t).toNat
    let n := (low64 o.o0).toNat % 2 ^ 32
    let st := (s.strand c.tile c.strand).stream
    s.Issues c 0 { use0 := true } t o →
    ∀ second, let j := if second then Instr.loop1 t else Instr.loop0 t
      ((b = 0 ∨ 4095 < b) → ∃ s', exec j s = .next s' ∧ (s'.strand c.tile c.strand).stream = st ∧
        ((s'.strand c.tile c.strand).causes.any fun r => decide (r.cause = 2)) = true) ∧
      (0 < b → b ≤ 4095 → logRoom (s.core c.tile) (s.strand c.tile c.strand) (codeLc second) = true →
        ∃ s' st', exec j s = .next s' ∧
          (s'.strand c.tile c.strand).stream = { st' with slotSeq := st'.slotSeq.set c.slot (c.seq + 1) } ∧
          (s'.strand c.tile c.strand).vers = (s.strand c.tile c.strand).vers ++ [⟨codeLc second, c.seq + 1, c.seq, c.slot + 1, c.step, BitVec.ofNat 1024 n⟩] ∧
          (n = 0 → st' = { st with hold := none, redirect := some (c.seq + 1, (i + b + 1) % 4096) }) ∧
          (n ≠ 0 → let l : HwLoop := ⟨true, (i + 1) % 4096, (i + b) % 4096, max st.loop0.order st.loop1.order + 1⟩
            st' = if second then { st with hold := none, loop1 := l } else { st with hold := none, loop0 := l }))

/-- The words that decode to lexit are those of form 00 with the destination code 0x20E: unit 0, port 14. For every state in which lexit
issues at sequence number q with trigger value X: when X is above 1, cause 2 is raised on the strand, the slot does not issue and the
stream stays as it was; when loop X is active, it becomes inactive, control passes from q + 2 (after the delay bundle) to (last + 1)
modulo 4,096 of it, lcX is unchanged, and the slot has issued; when it is inactive, only the slot has issued, so that control passes
on in sequence. -/
def Obligations.LoopExitEffects : Prop :=
  (∀ t w, encode (.lexit t) = some w → w.extractLsb' 22 2 = 0 ∧ w.extractLsb' 0 10 = 0x20E) ∧
  ∀ (s : State) (c : Issuer) (t : Trig) (o : Opnds),
    let st := (s.strand c.tile c.strand).stream
    let x := (low64 o.t).toNat
    let l := if x = 0 then st.loop0 else st.loop1
    s.Issues c 0 {} t o →
      (1 < x → ∃ s', exec (.lexit t) s = .next s' ∧ (s'.strand c.tile c.strand).stream = st ∧
        ((s'.strand c.tile c.strand).causes.any fun r => decide (r.cause = 2)) = true) ∧
      (x ≤ 1 → l.active = false → exec (.lexit t) s = .next (s.advance c)) ∧
      (x ≤ 1 → l.active = true → ∃ s', exec (.lexit t) s = .next s' ∧ s'.mem = s.mem ∧
        (∀ r q, (s'.strand c.tile c.strand).regAt r q = (s.strand c.tile c.strand).regAt r q) ∧
        (s'.strand c.tile c.strand).stream = { st with
          slotSeq := st.slotSeq.set c.slot (c.seq + 1), redirect := some (c.seq + 2, (l.last + 1) % 4096)
          loop0 := if x = 0 then { st.loop0 with active := false } else st.loop0
          loop1 := if x = 0 then st.loop1 else { st.loop1 with active := false } })

/-- For every state in which the trigger or control item issues: trap and brk raise cause 4 and cause 5 on the strand with the low 16 bits
of X as DETAIL; sleep makes the strand give up the core until the tick X, waitl until no landing for a register of the mask of bits
15-0 of X is outstanding, yield with nothing to wait for, in each case once the bundle's results have emerged. The slot has issued and
nothing else changes. -/
def Obligations.WaitAndTrapTriggerEffects : Prop :=
  ∀ (s : State) (c : Issuer) (t : Trig) (o : Opnds) (sync : Bool),
    let givesUp (i : Instr) (w : Wake) : Prop :=
      exec i s = .next ((s.modStrand c.tile c.strand fun x => { x with afterYield := true, wake := w }).advance c)
    let raises (i : Instr) (cause : Nat) : Prop :=
      exec i s = .next ((s.raise c.tile c.strand ⟨cause, 0, BitVec.ofNat 16 o.t.toNat, c.slot⟩).advance c)
    (s.Issues c 0 {} t o → raises (.trap t) 4 ∧ raises (.brk t) 5 ∧ givesUp (.sleep t) (.tick (low64 o.t)) ∧
      givesUp (.waitl t) (.lands (BitVec.ofNat 16 o.t.toNat))) ∧
    (s.Controls c sync → givesUp (.yield sync) .none)

/-- For every state in which slot 0 issues suspend.r, suspend.f, suspend.p, exit or mark outside a capsule visit. When no landing, result,
open request or promised command of the strand is outstanding and the carried registers can be read, suspend of n + 1 values makes the
strand SUSPENDED with an ending that holds s0 to sn as the bundle reads them (0 above), the receive slot, and (i + 1) modulo 4,096:
requeued, on the future whose handle is s15, or parked; exit with the ending that frees the record. While anything is outstanding they
stall. mark, once no open request is outstanding, asks for a commit of its bundle's index at the end of the step. In a capsule visit
suspend and exit raise cause 14 with DETAIL 1 and do not issue. -/
def Obligations.RunEndingEffects : Prop :=
  ∀ (s : State) (c : Issuer) (sync : Bool) (n k : BitVec 2),
    let x := s.strand c.tile c.strand
    let co := s.core c.tile
    let i := s.indexHere c
    let clear := landsOutstanding co c.strand x = false ∧ co.pipe = [] ∧ openOutstanding co c.strand x = false ∧ s.commandsOut c.tile c.strand = false
    let carried := (List.range 4).map fun j => if j ≤ n.toNat then low64 (x.regAt (0x080 + j) c.seq) else 0
    let readable := ∀ j ≤ n.toNat, regReady co c.strand x (0x080 + j) c.seq c.step = true
    let ends (j : Instr) (e : Ending) : Prop := exec j s = .next ((s.modStrand c.tile c.strand fun y => { y with st := .suspended, ending := some e, endIds := s.ids }).advance c)
    s.Controls c sync →
      (x.capVisit = none → clear → readable →
        ends (.suspendR sync n) ⟨.requeue, n.toNat, carried, 0, (i + 1) % 4096⟩ ∧ ends (.suspendP sync n) ⟨.park, n.toNat, carried, 0, (i + 1) % 4096⟩ ∧
        (regReady co c.strand x 0x08F c.seq c.step = true →
          ends (.suspendF sync n k) ⟨.future (low64 (x.regAt 0x08F c.seq)), n.toNat, carried, k.toNat, (i + 1) % 4096⟩)) ∧
      (x.capVisit = none → clear → ends (.exit sync) ⟨.exit, 0, [], 0, 0⟩) ∧
      (x.capVisit = none → ¬ clear → exec (.suspendR sync n) s = .next (s.stall c) ∧ exec (.suspendF sync n k) s = .next (s.stall c) ∧
        exec (.suspendP sync n) s = .next (s.stall c) ∧ exec (.exit sync) s = .next (s.stall c)) ∧
      (x.capVisit.isSome = true → let refuses (j : Instr) : Prop := exec j s = .next (s.raiseHere c 14 (BitVec.ofNat 64 x.ccap) 1)
        refuses (.suspendR sync n) ∧ refuses (.suspendF sync n k) ∧ refuses (.suspendP sync n) ∧ refuses (.exit sync)) ∧
      (openOutstanding co c.strand x = false → exec (.mark sync) s = .next ((s.modCore c.tile fun co => { co with markReq := some i }).advance c))

/-- For every state in which rdsr or evrd issues with t = n: the result at trigger + 2 is SSTAT (DEPTH, and IM when it is not 0) for n =
0, 0x70000 + sid 0x1000 for 1, the record address for 2, FMTB for 3, the alarm for 4, SPLT with the cluster's level in bits 9-8 for 9,
GBAR for 0x10, the fault word of key n - 0x20 for 0x20 to 0x27, and 0 for 5, 6, 7, 0x0A and every number from 0x134 up; evrd n is the
tile's counter n for n below 4, the die's n - 16 for 16 to 31, and 0 for any other. A wrsr of SPLT with exactly four ones in bits 7-0
of o0 writes them; one of any other value or register leaves every part of the machine but the mark of its bundle and its slot's
sequence number. evsel of counter n starts it at 0 with source o0 bits 4-0 from the next tick on; evsel of any other number is
ignored. Neither sets a flag. -/
def Obligations.SystemRegisterOperations : Prop :=
  ∀ (s : State) (c : Issuer) (t : Trig) (o : Opnds),
    let n := (low64 o.t).toNat
    let x := s.strand c.tile c.strand
    let y := s.tile c.tile
    let reads (i : Instr) (v : W64) : Prop := exec i s = .next (s.resulted c 1 2 t (widen v) 0)
    let marks (i : Instr) (r : State) : Prop := exec i s = .next ((r.commitMark c { commit := true }).advance c)
    (s.Issues c 1 { result := some 1 } t o →
      (n = 0 → reads (.rdsr t) (BitVec.ofNat 64 (if x.depth = 0 then 0 else x.depth + 8))) ∧
      (n = 1 → reads (.rdsr t) (BitVec.ofNat 64 (0x70000 + c.strand * 0x1000))) ∧
      (n = 2 → reads (.rdsr t) (BitVec.ofNat 64 x.recAddr)) ∧
      (n = 3 → reads (.rdsr t) (low64 (x.regAt codeFmtb c.seq))) ∧
      (n = 4 → reads (.rdsr t) x.alarm) ∧
      (n = 9 → reads (.rdsr t) ((x.splt &&& 0xFF) ||| BitVec.ofNat 64 ((s.cluster (clusterOf c.tile)).level * 2 ^ 8))) ∧
      (n = 0x10 → reads (.rdsr t) x.gbar) ∧
      (0x20 ≤ n → n < 0x28 → reads (.rdsr t) (x.kflt.getD (n - 0x20) 0)) ∧
      (n ∈ [5, 6, 7, 0x0A] ∨ 0x134 ≤ n → reads (.rdsr t) 0) ∧
      (∀ e, n < 4 → y.counters[n]? = some e → reads (.evrd t) (BitVec.ofNat 64 e.val)) ∧
      (∀ e, 16 ≤ n → n < 32 → (s.dieCounters (dieOf c.tile))[n - 16]? = some e → reads (.evrd t) (BitVec.ofNat 64 e.val)) ∧
      ((4 ≤ n ∧ n < 16) ∨ 32 ≤ n → reads (.evrd t) 0)) ∧
    (s.Issues c 1 { use0 := true, commit := true } t o →
      (n = 9 → ((List.range 8).filter fun i => o.o0.getLsbD i).length = 4 →
        marks (.wrsr t) (s.modStrand c.tile c.strand fun x => { x with splt := low64 o.o0 &&& 0xFF })) ∧
      (n ≠ 9 ∨ ((List.range 8).filter fun i => o.o0.getLsbD i).length ≠ 4 → marks (.wrsr t) s) ∧
      (n < 4 → marks (.evsel t) (s.modTile c.tile fun y => { y with counters := y.counters.set n ⟨(low64 o.o0).toNat % 32, 0, s.tick + 1⟩ })) ∧
      (16 ≤ n → n < 32 →
        marks (.evsel t) { s with dieCount := SMap.set s.dieCount (dieOf c.tile) ((s.dieCounters (dieOf c.tile)).set (n - 16) ⟨(low64 o.o0).toNat % 32, 0, s.tick + 1⟩) }) ∧
      ((4 ≤ n ∧ n < 16) ∨ 32 ≤ n → marks (.evsel t) s))

/-- For every state in which the trigger issues. fence: with v = t of 1 to 3 in bits 1-0, a SCOPE in bits 3-2 and nothing above, an order
of the kind and scope stands before the later accesses, and a release over gated stores, once no open request is outstanding, commits
them, and stalls until then; a v of kind 0 or above 15 raises cause 2, nothing issues. fmtb: FMTB becomes t bits 18-7 for later reads.
sclr: a store of zeros over the k granules from the aligned address that lie in the scratchpad, MIS for a misaligned t, OOR and oar
for the first granule beyond the end, and the slot stays busy for k steps; with count 0 nothing but the mark (the range that passes
2^64 goes on at 0: the model's choice, assumption 29). bclaim with t = 0 on a tile with boost, a cluster with a balance and not
forced, by a strand without a claim: the claim joins the cluster's and the strand claims; without boost, with a claim, or with balance
0 or a forced cluster, nothing; brel with t = 0: the strand's claim is withdrawn. openx: a pinned handle gains o0 and a null one gives
0 with NUL, both after 2 steps; an open one whose page's translation is at hand gives the open handle of the sum in bits 51-0, one
whose walk has found no valid leaf raises cause 8 with the address, and on a miss the walk begins and the slot stalls; a handle of
kind 2 or with a reserved bit set raises cause 9 with the handle. -/
def Obligations.SystemUnitEffects : Prop :=
  ∀ (s : State) (c : Issuer) (t : Trig) (o : Opnds),
    let v := (low64 o.t).toNat
    let x := s.strand c.tile c.strand
    let at_ (f : Strand → Strand) : State := s.modStrand c.tile c.strand f
    let raises (i : Instr) : Prop := exec i s = .next (s.raiseHere c 2 (BitVec.ofNat 64 (x.stream.idxOf c.seq c.slot)) 0)
    let marks (i : Instr) (r : State) : Prop := exec i s = .next ((r.commitMark c { commit := true }).advance c)
    (s.Issues c 1 {} t o →
      (v % 4 ≠ 0 → v < 16 →
        let gated := v.testBit 1 && decide (x.depth = 0) && x.stores.any fun g => !g.done && decide (g.level = 0)
        (gated = true → openOutstanding (s.core c.tile) c.strand x = false) →
        exec (.fence t) s = .next (((at_ fun x => { x with orders := x.orders ++ [⟨c.seq, v.testBit 0, v.testBit 1, v / 4 % 4, none, s.ids⟩] }).commitMark c { commit := gated }).advance c)) ∧
      (v.testBit 1 = true → v < 16 → x.depth = 0 → (x.stores.any fun g => !g.done && decide (g.level = 0)) = true → openOutstanding (s.core c.tile) c.strand x = true → exec (.fence t) s = .next (s.stall c)) ∧
      (v % 4 = 0 ∨ 16 ≤ v → raises (.fence t))) ∧
    (s.Issues c 1 { commit := true } t o →
      marks (.fmtb t) (s.writeReg c codeFmtb (c.seq + 1) (BitVec.ofNat 1024 (v / 2 ^ 7 % 2 ^ 12 * 2 ^ 7))) ∧
      (v ≠ 0 → raises (.bclaim t) ∧ raises (.brel t)) ∧
      (v = 0 → (s.tile c.tile).boostClass = 0 → marks (.bclaim t) s ∧ marks (.brel t) s) ∧
      (v = 0 → (s.tile c.tile).boostClass ≠ 0 → x.claims = false → (s.cluster (clusterOf c.tile)).balance ≠ 0 → (s.cluster (clusterOf c.tile)).forced = false →
        marks (.bclaim t) (((s.modCluster (clusterOf c.tile) fun k => { k with claims := k.claims ++ [⟨c.tile, c.strand, x.ctx, x.kslot⟩] }).modStrand c.tile c.strand
          fun x => { x with claims := true }).claimMessage c.tile c.strand true)) ∧
      (v = 0 → x.claims = true ∨ (s.cluster (clusterOf c.tile)).balance = 0 ∨ (s.cluster (clusterOf c.tile)).forced = true → marks (.bclaim t) s) ∧
      (v = 0 → (s.tile c.tile).boostClass ≠ 0 → x.claims = false → marks (.brel t) s) ∧
      (v = 0 → (s.tile c.tile).boostClass ≠ 0 → x.claims = true →
        marks (.brel t) (((s.modCluster (clusterOf c.tile) fun k => { k with claims := k.claims.filter fun q => !(decide (q.tile = c.tile) && decide (q.strand = c.strand)) }).modStrand c.tile c.strand
          fun x => { x with claims := false }).claimMessage c.tile c.strand false))) ∧
    (s.Issues c 1 { use0 := true, commit := true, access := true } t o →
      let k := ((low64 o.o0).toNat % 2 ^ 20 + 15) / 16
      (k = 0 → marks (.sclr t) s) ∧
      (0 < k → let a := v / 16 * 16
        let n := min (16 * k) (0x80000 - a)
        let wrapped := a + 16 * k - 2 ^ 64
        let out : Option Nat := if 0x80000 ≤ a then some a else if 0x80000 < a + 16 * k then some 0x80000 else none
        marks (.sclr t) (((s.storePieces c false ((if a < 0x80000 then [((a, n), List.replicate n 0)] else []) ++
          (if 0 < wrapped then [((0, min wrapped 0x80000), List.replicate (min wrapped 0x80000) 0)] else []))).modStrand c.tile c.strand fun x =>
          x.addFlags c (c.seq + 1) ((if v % 16 = 0 then 0 else flagMIS) ||| (if out = none then 0 else flagOOR)) 0 (BitVec.ofNat 64 (out.getD 0))).modCore c.tile
            fun co => { co with busySlot := co.busySlot ++ [(c.slot, c.step + k + 1, a + 16 * k)] }))) ∧
    (s.Issues c 5 { use0 := true, result := some 5 } t o →
      (handleClass (low64 o.t) = .pinned → exec (.openx t) s = .next (s.resulted c 5 2 t (widen (low64 o.t + low64 o.o0)) 0)) ∧
      (handleClass (low64 o.t) = .null → exec (.openx t) s = .next (s.resulted c 5 2 t 0 flagNUL)) ∧
      (handleClass (low64 o.t) = .bad → exec (.openx t) s = .next (s.raiseHere c 9 (low64 o.t) 0)) ∧
      (handleClass (low64 o.t) = .opened → let a := (low64 o.t + low64 o.o0).toNat % 2 ^ 52
        (∀ e, s.tlbFind (dieOf c.tile) x.ctx a = some e → exec (.openx t) s = .next (s.resulted c 5 2 t (widen (BitVec.ofNat 64 (3 * 2 ^ 62 + a))) 0)) ∧
        (∀ b, s.tlbFind (dieOf c.tile) x.ctx a = none → x.noLeaf = some b → b / 2 ^ 16 = a / 2 ^ 16 →
          exec (.openx t) s = .next (((at_ fun x => { x with noLeaf := none }).raiseHere c 8 (BitVec.ofNat 64 a) 0).tally c.tile 20 1)) ∧
        (s.tlbFind (dieOf c.tile) x.ctx a = none → x.noLeaf = none →
          exec (.openx t) s = .next ((s.startWalk (dieOf c.tile) x.ctx a false none (some (c.tile, c.strand))).stall c)) ∧
        (∀ b, s.tlbFind (dieOf c.tile) x.ctx a = none → x.noLeaf = some b → b / 2 ^ 16 ≠ a / 2 ^ 16 →
          exec (.openx t) s = .next (((at_ fun x => { x with noLeaf := none }).startWalk (dieOf c.tile) x.ctx a false none (some (c.tile, c.strand))).stall c))))

/-- For every state, with t the tile of the event. RESULT_EMERGE of the result f due next: f leaves the pipeline, its latch becomes its
value, and, unless W is set, l of its unit gets a write seen from f's visibility on; a result without flags leaves the flags. LANDING
of the entry a due next with its data: a leaves the buffer, w of its register gets a write of the data, and a freeze ends unless
another due entry is still awaited (a state without a freeze stays so); one that lands early under a waitl replaces what had so landed
in that register for the same bundles, and other registers keep their writes; with no entry to land and a late one, the core freezes
from this tick, or stays frozen from its earlier one. LANDING_TIMEOUT of the entry that waited too long: it is LATE, the core is not
frozen, the strand has cause 10. ALARM_EXPIRY of an armed alarm past its deadline: cause 6 with the deadline joins, and a sleeping
strand outside a handler yields. SLEEP_WAKE of a strand past its wake tick: it yields. STRAND_SWITCH with none issuing: the next ready
strand issues with latches, ports and transposer cleared. IMPLICIT_MARK with nothing issued, a full buffer or log and no open request:
the step gets a mark at slot 0's next bundle. -/
def Obligations.CoreStepEventEffects : Prop :=
  ∀ (s : State),
    let t := s.ev.tile
    let n := s.ev.strand
    let co := s.core t
    (∀ k f, co.issuing = some k → dueFlight co = some f → ∃ s', exec .resultEmerge s = .next s' ∧
      (s'.core t).pipe = co.pipe.erase f ∧ (s'.core t).latches = SMap.setD co.latches 0 f.unit f.val ∧
      (f.w = true → (s'.strand t k).vers = (s.strand t k).vers) ∧
      (f.w = false → (s'.strand t k).vers = (s.strand t k).vers ++ [⟨codeL f.unit, f.vis, f.seq, f.slot + 1, co.stepc - 1, f.val⟩]) ∧
      (f.flags = 0 → (s'.strand t k).flagEvs = (s.strand t k).flagEvs) ∧ s'.mem = s.mem) ∧
    (∀ a, s.landNow t = some a → ∃ s' vis, exec .landing s = .next s' ∧
      (s'.core t).lands = co.lands.filter (fun b => decide (b.lid ≠ a.lid)) ∧
      (s'.core t).frozenAt = (if ((s.modCore t fun co => { co with lands := co.lands.filter fun b => decide (b.lid ≠ a.lid) }).landLate t).isSome then co.frozenAt else none) ∧
      (∃ vs, (s'.strand t a.strand).vers = vs ++ [⟨codeW a.reg, vis, a.seq, a.slot + 1, co.stepc - 1, a.data.getD 0⟩] ∧
        (∀ u ∈ (s.strand t a.strand).vers, u.reg ≠ codeW a.reg → u ∈ vs) ∧ (waitlNames (s.strand t a.strand) a = false → vis = a.vis ∧ vs = (s.strand t a.strand).vers)) ∧
      s'.mem = s.mem) ∧
    (∀ a, s.landNow t = none → s.landLate t = some a →
      exec .landing s = .next (s.modCore t fun co => { co with frozenAt := some (co.frozenAt.getD s.tick) })) ∧
    (∀ a, s.landExpired t = some a → a.lid = s.ev.id → co.lands.find? (fun b => decide (b.lid = a.lid)) = some a → ∃ s', exec .landingTimeout s = .next s' ∧
      (s'.core t).frozenAt = none ∧ (∀ b ∈ (s'.core t).lands, b.lid = a.lid → b.late = true) ∧
      ((s'.strand t a.strand).causes.any fun r => decide (r.cause = 10)) = true ∧ (s'.strand t a.strand).st ≠ .sleeping) ∧
    (s.alarmDue t n = true → ∃ s', exec .alarmExpiry s = .next s' ∧
      (s'.strand t n).causes = (s.strand t n).causes ++ [⟨6, (s.strand t n).alarm, 0, 0⟩] ∧
      ((s.strand t n).st = .sleeping → (s.strand t n).depth = 0 → (s'.strand t n).st = .yielded)) ∧
    (s.sleepDue t n = true → exec .sleepWake s = .next (s.modStrand t n fun x => { x with st := .yielded, wake := .none })) ∧
    (∀ k, co.issuing = none → (s.tile t).readyStrand = some k → ∃ s', exec .strandSwitch s = .next s' ∧
      (s'.core t).issuing = some k ∧ (s'.core t).lastIss = k ∧ (s'.core t).latches = [] ∧ (s'.core t).ports = [] ∧ (s'.core t).trn = Trn.reset ∧
      (s'.strand t k).st = .issuing ∧ (∀ j, j ≠ k → s'.strand t j = s.strand t j)) ∧
    (∀ k, co.issuing = some k → co.issued = [] → co.fullLog = true → openOutstanding co k (s.strand t k) = false →
      exec .implicitMark s = .next (s.modCore t fun co => { co with markReq := some ((s.strand t k).stream.nextIdx 0) }))

/-- For every state, with t the tile of the event. BUNDLE_DECODE, when strand k issues, a slot of it has come to the bundle fetched next
and nothing holds the fetch: with x the strand once its next index is settled, and no parity fault at those of the eight indices that
lie below the number of bundles (R23), the bundle of the code store at those indices joins the window with the fetch sequence number
and the fault its decoding finds, the fetch sequence number rises by 1 and every slot's next index goes up by 1 modulo 4,096; with a
parity fault at an index p the window stays, p keeps its fault and a reload of p is under way. BUNDLE_RELOAD_DONE of p in a tile that
no freeze has stopped, with 24 bytes b that the tile's die may read as code at the bundle's place in the kernel image: bundle p is b,
p no longer has the fault, no reload is under way, and the issuing strand has cause 17. -/
def Obligations.BundleFetchEffects : Prop :=
  ∀ (s : State),
    let t := s.ev.tile
    let y := s.tile t
    (∀ k, y.core.issuing = some k → (y.strand k).stream.wants = true → Strand.fetchWait y.core (y.strand k) = .ready →
      let x := (y.strand k).settle t k y.core.stepc
      let idx := x.stream.fetchIdx
      (y.core.parity.find? (fun p => idx.contains p && decide (p < y.nbun)) = none → ∃ s' bad, exec .bundleDecode s = .next s' ∧
        (s'.strand t k).stream.window = x.stream.window ++ [⟨x.stream.fetchSeq, idx, idx.map fun i => SMap.get y.code 0 i, bad⟩] ∧
        (s'.strand t k).stream.fetchSeq = x.stream.fetchSeq + 1 ∧ (s'.strand t k).stream.fetchIdx = idx.map (fun i => (i + 1) % 4096) ∧
        (bad.isSome = (decodeFault y.nbun idx (idx.map fun i => SMap.get y.code 0 i) fun i => ⟨x.stream.delayNext, x.stream.loopTail i⟩).isSome)) ∧
      (∀ p, y.core.parity.find? (fun p => idx.contains p && decide (p < y.nbun)) = some p → ∃ s', exec .bundleDecode s = .next s' ∧
        (s'.strand t k).stream.window = x.stream.window ∧ (s'.core t).reload = some p ∧ (s'.core t).parity = y.core.parity)) ∧
    (∀ k p h ctx b, y.stopped = false → y.core.reload = some p → p = s.ev.id → y.kernel = some (ctx, h) → y.core.issuing = some k →
      (s.modCore t fun co => { co with reload := none }).imageRead (dieOf t) ctx (h.base + 0x1000 + h.nslt * 0x1000 + 24 * p) .code 2 24 = .ok b →
      ∃ s', exec .bundleReloadDone s = .next s' ∧ (s'.tile t).code = SMap.set y.code p (BitVec.ofNat 192 (leNat b)) ∧ (s'.core t).reload = none ∧ p ∉ (s'.core t).parity ∧
        ((s'.strand t k).causes.any fun r => decide (r.cause = 17)) = true)

/-- For every state with memory in canonical form in which TRAP_ENTRY finds that strand k issues and takes the cause r with the causes
pend staying pending. Let s1 be the state rolled back when r is a page fault at depth 0 that no return has rolled back, else the state
itself. When the tile's kernel has a vector v and DEPTH is below 4: the frame at 0x70000 + 0x1000 k of the tile's scratchpad holds the
pending mask, DETAIL, SLOT and CAUSE, INFO, the tick and TSEQ in its first words, DEPTH is 1 more, the strand is TRAPPED, a back edge
that is due and whose counters are all written is settled first (one that still waits for a counter stays due), every slot's next
bundle is v at one sequence number above all those of the interrupted slots, loops are inactive, the pipeline is empty, the operand
ports read zero, and the interrupted stream and ports stand aside; the latches are those of s1. Otherwise the strand's run ends
faulted with the cause's number. Memory changes within the frame alone. -/
def Obligations.TrapEntryEffects : Prop :=
  ∀ (s : State) (k : Nat) (r : CauseRec) (pend : List CauseRec), let t := s.ev.tile
    s.MemOk → (s.core t).issuing = some k → (s.strand t k).nextCause = some (r, pend) →
    let s1 := if r.cause = 8 ∧ (s.strand t k).depth = 0 ∧ (s.strand t k).rolled.isNone then s.rollback t k (s.core t).stepc else s
    let x := s1.strand t k
    let x' := if x.stream.wants && x.edgeDueReady (s1.core t) then x.settle t k (s1.core t).stepc else x
    ∃ s', exec .trapEntry s = .next s' ∧
      (∀ a, (a < tileBase t + 0x70000 + k * 0x1000 ∨ tileBase t + 0x70000 + k * 0x1000 + 0x1000 ≤ a) → memRead s'.mem a 1 = memRead s.mem a 1) ∧
      (let f := memRead s'.mem (tileBase t + 0x70000 + k * 0x1000) 32;
        (pendMask pend < 2 ^ 32 → r.slot < 256 → r.cause < 256 →
          frameField f 0 8 = pendMask pend * 2 ^ 32 + r.detail.toNat * 2 ^ 16 + r.slot * 2 ^ 8 + r.cause) ∧ frameField f 8 8 = r.info.toNat ∧
        frameField f 16 8 = s.tick % 2 ^ 64 ∧ frameField f 24 8 = x'.stream.minSeq % 2 ^ 64) ∧
      (s'.core t).pipe = [] ∧
      (∀ v, (s.tile t).trapVector = some v → x.depth < 4 → ∃ q aside, (s'.strand t k).depth = x.depth + 1 ∧ (s'.strand t k).st = .trapped ∧
        (s'.strand t k).stream.slotSeq = List.replicate 8 q ∧ (s'.strand t k).stream.fetchIdx = List.replicate 8 v ∧ (∀ p ∈ x'.stream.slotSeq, p < q) ∧
        (s'.strand t k).stream.loop0.active = false ∧ (s'.strand t k).stream.loop1.active = false ∧
        (s'.strand t k).asides.head? = some aside ∧ aside.level = x.depth ∧ aside.ports = (s1.core t).ports ∧ aside.stream = x'.stream ∧ (s'.core t).ports = [] ∧ (s'.core t).latches = (s1.core t).latches) ∧
      ((s.tile t).trapVector = none ∨ 4 ≤ x.depth → (s'.strand t k).st = .suspended ∧ (s'.strand t k).ending.map Ending.kind = some (.fault r.cause))

/-- For every state in which rft issues, with f the frame of the strand. At DEPTH 0 cause 0 is raised with DETAIL 2, over a malformed
frame with DETAIL 1, each with the bundle's index, and the slot does not issue. Otherwise, when no page fault stands in the frame's
pending bits, DEPTH falls by 1, the latches are those of the frame, the wide ones in their 128 bytes each, the operand ports those set
aside unless the handler has edited TSEQ, the results recorded in the frame are in flight again with their values, wide ones whole
from the wide area and scalar ones in 64 bits, and due REM steps after this one's successor, no memory changes, and the causes set in
the pending bits are raised again; when the frame's stream words stand as they were written, the interrupted stream goes on where it
was, each slot at its sequence number. When a page fault stands there, the run ends faulted with code 8 if the interrupted code was
itself a handler (TMARK bit 31 clear), and otherwise the strand is rolled back and takes cause 8 next. -/
def Obligations.ReturnFromTrapEffects : Prop :=
  ∀ (s : State) (c : Issuer) (t : Trig) (o : Opnds), s.Issues c 1 {} t o →
    let x := s.strand c.tile c.strand
    let f := memRead s.mem (tileBase c.tile + 0x70000 + c.strand * 0x1000) 4096
    let here := BitVec.ofNat 64 (x.stream.idxOf c.seq c.slot)
    (x.depth = 0 → exec (.rft t) s = .next (s.raiseHere c 0 here 2)) ∧
    (0 < x.depth → frameBad f = true → exec (.rft t) s = .next (s.raiseHere c 0 here 1)) ∧
    (∀ a, 0 < x.depth → frameBad f = false → x.asideHere = some a → ((frameField f 0 8 / 2 ^ 32).testBit 8) = false → ∃ s', exec (.rft t) s = .next s' ∧
      (s'.strand c.tile c.strand).depth = x.depth - 1 ∧ s'.mem = s.mem ∧ (a.sig.head? = (frameSig f).head? → (s'.core c.tile).ports = a.ports) ∧
      (∀ j u, [6, 10, 11, 12, 13][j]? = some u → SMap.get (s'.core c.tile).latches 0 u = BitVec.ofNat 1024 (frameField f (0x100 + 128 * j) 128)) ∧
      (∀ u, u < 16 → u ∉ [6, 10, 11, 12, 13] → SMap.get (s'.core c.tile).latches 0 u = BitVec.ofNat 1024 (frameField f (0x080 + 8 * u) 8)) ∧
      (∃ fl own, (s'.core c.tile).pipe = own ++ fl ∧ own.map (fun g => (g.unit, g.val, g.due)) = (s.core c.tile).pipe.map (fun g => (g.unit, g.val, g.due)) ∧ fl.length = frameField f 0x050 8 % 64 ∧
        ∀ k g, fl[k]? = some g → let d := frameField f (0x480 + 4 * k) 4;
          g.unit = d % 16 ∧ g.w = d.testBit 4 ∧ g.due = c.step + 1 + d / 2 ^ 8 % 32 ∧
            (let v := if d.testBit 13 then frameField f (0x640 + 128 * (d / 2 ^ 16 % 32)) 128 else frameField f (0x540 + 8 * (d / 2 ^ 16 % 32)) 8;
             g.val = BitVec.ofNat 1024 (if d % 16 ∈ [6, 10, 11, 12, 13] then v % 2 ^ 1024 else v % 2 ^ 64))) ∧
      (∀ b, b < 18 → (frameField f 0 8 / 2 ^ 32).testBit b = true → ((s'.strand c.tile c.strand).causes.any fun r => decide (r.cause = b)) = true) ∧
      (a.sig = frameSig f → (s'.strand c.tile c.strand).stream.slotSeq = a.stream.slotSeq ∧ (s'.strand c.tile c.strand).stream.window = a.stream.window)) ∧
    (0 < x.depth → frameBad f = false → ((frameField f 0 8 / 2 ^ 32).testBit 8) = true → ∃ s', exec (.rft t) s = .next s' ∧
      (s'.strand c.tile c.strand).depth = x.depth - 1 ∧ s'.mem = s.mem ∧
      ((frameField f 0x058 8).testBit 31 = false → (s'.strand c.tile c.strand).st = .suspended ∧
        (s'.strand c.tile c.strand).ending.map Ending.kind = some (.fault 8)) ∧
      ((frameField f 0x058 8).testBit 31 = true → (s'.strand c.tile c.strand).rolled.map CauseRec.cause = some 8))

/-- For every state in which the trigger issues with a good landing specification p of an order it takes, room in the landing buffer and,
for a release, no earlier access unissued. Through a pinned handle within its slot or an open one (for a store: one whose pages
translate for writing), a request for each part of the access stands under the next free numbers, of 8 bytes for ldx, ltag and stx and
of 128 for ldxv and stxv, at the handle's address with its low 3, 7 and 4 bits ignored, carrying o0's bytes for a store (also one
through the strand's own GBAR handle into words 0x10 and 0x18 of its barrier, R370); a landing entry for the register of p is due OFS
steps on; an acquire holds later accesses; MIS marks ignored bits but for ltag; no memory changes. Through a null handle 0, or 1 for a
store, lands at once with NUL. A handle that does not cover the access raises cause 9 with the handle, and a bad specification or
order cause 2; neither issues. -/
def Obligations.RemoteAccessRequests : Prop :=
  ∀ (s : State) (c : Issuer) (t : Trig) (o : Opnds) (p : LandSpec),
    let h := low64 o.t
    let x := s.strand c.tile c.strand
    let i2 := BitVec.ofNat 64 (x.stream.idxOf c.seq c.slot)
    let asks (i : Instr) (commit : Bool) (kind : ReqKind) (tg : Target) (size : Nat) (data : List Byte) (f : BitVec 10) : Prop := ∃ s',
      exec i s = .next ((s'.commitMark c { commit := commit }).advance c) ∧ s.Requested s' c p true kind h tg size data 0 f
    let null (i : Instr) (commit : Bool) (v : Wide) : Prop := ∃ s', exec i s = .next ((s'.commitMark c { commit := commit }).advance c) ∧ s.LandsNull s' c p v
    let raises (i : Instr) (cause : Nat) (info : W64) : Prop := exec i s = .next (s.raiseHere c cause info 0)
    let load (i : Instr) (kind : ReqKind) (size k : Nat) (ords : List Nat) (f : BitVec 10) : Prop :=
      (ords.contains p.ord = true → s.releaseReady c p.release = true → landRoom (s.core c.tile) = true →
        (∀ pa b, x.target h k size .read = .pinned pa b → asks i false kind (.pinned pa b) size [] f) ∧
        (∀ va, x.target h k size .read = .opened va → asks i false kind (.opened va) size [] f) ∧
        (x.target h k size .read = .null → null i false 0)) ∧
      (ords.contains p.ord = true → s.releaseReady c p.release = true → x.target h k size .read = .violation → raises i 9 h) ∧
      (ords.contains p.ord = false → raises i 2 i2)
    let store (i : Instr) (size k : Nat) : Prop :=
      ([0, 2].contains p.ord = true → s.releaseReady c p.release = true → gbarStore x h k size = false →
        (landRoom (s.core c.tile) = true →
          (∀ pa b, x.target h k size .write = .pinned pa b → asks i true .store (.pinned pa b) size (leBytes size o.o0.toNat) (handleMis k h)) ∧
          (∀ va es, x.target h k size .write = .opened va → s.slotLeaves c (.opened va) size .write = .ok es →
            asks i true .store (.opened va) size (leBytes size o.o0.toNat) (handleMis k h)) ∧
          (x.target h k size .write = .null → null i true 1)) ∧
        (x.target h k size .write = .violation → raises i 9 h)) ∧
      ([0, 2].contains p.ord = true → s.releaseReady c p.release = true → gbarStore x h k size = true → landRoom (s.core c.tile) = true →
        asks i true .store (.pinned (handlePa h / 2 ^ k * 2 ^ k) false) size (leBytes size o.o0.toNat) (handleMis k h)) ∧
      ([0, 2].contains p.ord = false → raises i 2 i2)
    (s.Issues c 6 (requestNeed true false false false true) t o →
      (landSpec (low64 o.o0) = none → raises (.ldx t) 2 i2 ∧ raises (.ldxv t) 2 i2 ∧ raises (.ltag t) 2 i2) ∧
      (landSpec (low64 o.o0) = some p → load (.ldx t) .load 8 3 [0, 1] (handleMis 3 h) ∧ load (.ldxv t) .load 128 4 [0, 1] (handleMis 4 h) ∧
        load (.ltag t) .ltag 128 7 [0] 0)) ∧
    (s.Issues c 6 { requestNeed true false true true false with later := true } t o →
      (landSpec (low64 o.o2) = none → raises (.stx t) 2 i2 ∧ raises (.stxv t) 2 i2) ∧
      (landSpec (low64 o.o2) = some p → store (.stx t) 8 3 ∧ store (.stxv t) 128 4))

/-- For every state in which the trigger issues: with a good specification p of an order it takes, room in the landing buffer and, for a
release, no earlier access unissued, and a handle (o0 for atomics, red and fwr, t for frd and frst) that leads to a location SYN may
act on, the request stands on its way with its landing entry: an atomic of the trigger's operation on 8 bytes, carrying t and
comparing with o1, a cell operation on 16 bytes carrying t; red carries t's 128 bytes with the ROP and EFMT of o1, lands nothing, and
acts on no specification but its control word. A null handle lands 0, or 1 for fwr, with NUL at once, and for red sets NUL alone. A
handle that may not be acted on stops the trigger as its check says. A bad specification, order or control word raises cause 2. -/
def Obligations.SynAccessRequests : Prop :=
  ∀ (s : State) (c : Issuer) (t : Trig) (o : Opnds) (p : LandSpec),
    let i2 := BitVec.ofNat 64 ((s.strand c.tile c.strand).stream.idxOf c.seq c.slot)
    let asks (i : Instr) (p : LandSpec) (lands : Bool) (kind : ReqKind) (h : W64) (tg : Target) (size : Nat) (data : List Byte) (cmp : W64) (f : BitVec 10) : Prop := ∃ s',
      exec i s = .next ((s'.commitMark c { commit := true }).advance c) ∧ s.Requested s' c p lands kind h tg size data cmp f
    let null (i : Instr) (v : Wide) : Prop := ∃ s', exec i s = .next ((s'.commitMark c { commit := true }).advance c) ∧ s.LandsNull s' c p v
    let raises (i : Instr) : Prop := exec i s = .next (s.raiseHere c 2 i2 0)
    let op (i : Instr) (kind : ReqKind) (h : W64) (k size : Nat) (ords : List Nat) (data : List Byte) (cmp : W64) (v : Wide) : Prop :=
      (landSpec (low64 o.o2) = some p → ords.contains p.ord = true → s.releaseReady c p.release = true →
        (∀ s1, s.synTarget c h k size synHome = .stop s1 → exec i s = .next s1) ∧
        (landRoom (s.core c.tile) = true → s.synTarget c h k size synHome = .null → null i v) ∧
        (landRoom (s.core c.tile) = true → ∀ tg pa b, s.synTarget c h k size synHome = .at_ tg pa b →
          ∃ s', exec i s = .next ((s'.commitMark c { commit := true }).advance c) ∧ s.Requested s' c p true kind h tg size data cmp (handleMis k h))) ∧
      (landSpec (low64 o.o2) = none → raises i) ∧ (landSpec (low64 o.o2) = some p → ords.contains p.ord = false → raises i)
    let atomic (i : Instr) (k : Nat) (cmp : W64) : Prop := op i (.atomic k) (low64 o.o0) 3 8 [0, 1, 2, 3] (leBytes 8 (low64 o.t).toNat) cmp 0
    let cell (i : Instr) (kind : ReqKind) (h : W64) (ords : List Nat) (v : Wide) : Prop := op i kind h 4 16 ords (leBytes 16 (low64 o.t).toNat) 0 v
    (s.Issues c 8 (requestNeed true false true true false) t o →
      atomic (.aadd t) 0 0 ∧ atomic (.amin t) 1 0 ∧ atomic (.amax t) 2 0 ∧ atomic (.aand t) 3 0 ∧ atomic (.aor t) 4 0 ∧ atomic (.axor t) 5 0 ∧
      atomic (.aswp t) 6 0 ∧ atomic (.afadd t) 8 0 ∧ cell (.fwr t) .fwr (low64 o.o0) [0, 2] 1) ∧
    (s.Issues c 8 (requestNeed true true true true false) t o → atomic (.acas t) 7 (low64 o.o1)) ∧
    (s.Issues c 8 (requestNeed false false true true false) t o →
      cell (.frd t) .frd (low64 o.t) [0, 1] 0 ∧ cell (.frst t) .frst (low64 o.t) [0, 1, 2, 3] 0) ∧
    (s.Issues c 8 (requestNeed true true false true false) t o →
      (redControl (low64 o.o1) = none → raises (.red t)) ∧
      (∀ rop efmt ord scope, redControl (low64 o.o1) = some (rop, efmt, ord, scope) → s.releaseReady c (decide (ord = 2)) = true →
        (∀ s1, s.synTarget c (low64 o.o0) 4 128 synHome = .stop s1 → exec (.red t) s = .next s1) ∧
        (s.synTarget c (low64 o.o0) 4 128 synHome = .null → ∃ s', exec (.red t) s = .next ((s'.commitMark c { commit := true }).advance c) ∧
          s' = s.modStrand c.tile c.strand fun x => x.addFlags c (c.seq + 1) (handleMis 4 (low64 o.o0) ||| flagNUL) 0 0) ∧
        (∀ tg pa b, s.synTarget c (low64 o.o0) 4 128 synHome = .at_ tg pa b →
          asks (.red t) ⟨ord, scope, 1, 0⟩ false (.red rop efmt) (low64 o.o0) tg 128 (wideBytes o.t) 0 (handleMis 4 (low64 o.o0)))))

/-- For every state in which the trigger issues. barr, bard and barq with a good specification p of an order they take, room in the
landing buffer and, for a release, no earlier access unissued, on a barrier at pa: the request on the 64 bytes stands on its way,
carrying the phase of the strand's last reply from this barrier plus 1, or 0, with a landing entry, and barr and bard make the
strand's arrival record pending on it; a bard while one is pending waits. A null handle lands 0 with NUL. barw and bartw, once earlier
accesses have issued, put an arrival that waits on its way, make the record pending on it, note the wait of this handler level with,
for bartw, its deadline and register, beside the waits of other levels, and give up the core; a null handle only sets NUL and yields,
and bartw writes 0 to its register. A handle that is no barrier stops the trigger as its check says; a bad specification or order
raises cause 2. -/
def Obligations.BarrierTriggerEffects : Prop :=
  ∀ (s : State) (c : Issuer) (t : Trig) (o : Opnds) (p : LandSpec),
    let x := s.strand c.tile c.strand
    let h := low64 o.t
    let i2 := BitVec.ofNat 64 (x.stream.idxOf c.seq c.slot)
    let marks (i : Instr) (s' : State) : Prop := exec i s = .next ((s'.commitMark c { commit := true }).advance c)
    let raises (i : Instr) : Prop := exec i s = .next (s.raiseHere c 2 i2 0)
    let carried (pa : Nat) : Nat := match x.arrival with | some a => if a.bar = pa then a.phase + 1 else 0 | none => 0
    let plain (i : Instr) (kind : ReqKind) (ords : List Nat) : Prop :=
      (landSpec (low64 o.o2) = some p → ords.contains p.ord = true → s.releaseReady c p.release = true →
        (∀ s1, s.barTarget c h = .stop s1 → exec i s = .next s1) ∧
        (landRoom (s.core c.tile) = true → s.barTarget c h = .null → ∃ s', marks i s' ∧ s.LandsNull s' c p 0) ∧
        (∀ tg pa b, s.barTarget c h = .at_ tg pa b → landRoom (s.core c.tile) = true →
          (kind = .drop → ∀ a, x.arrival = some a → a.bar = pa → a.pending = false) →
          ∃ s1 s', s.Requested s1 c p true kind h tg 64 (leBytes 8 (carried pa)) 0 (handleMis 6 h) ∧ marks i s' ∧
            s' = if kind = .query then s1 else s1.modStrand c.tile c.strand fun x => { x with arrival := some ⟨pa, s.ids, 0, true⟩ })) ∧
      (landSpec (low64 o.o2) = none → raises i) ∧ (landSpec (low64 o.o2) = some p → ords.contains p.ord = false → raises i)
    let waits (i : Instr) (kind : ReqKind) (timed : Bool) (deadline reg : Nat) : Prop := ∀ tg pa b, s.barTarget c h = .at_ tg pa b →
      ∃ s' r, marks i s' ∧ SMap.lookup s'.reqs s.ids = some r ∧ r.kind = kind ∧ r.pa = tg.address ∧ r.len = 64 ∧ r.rel = true ∧ r.scope = 2 ∧ r.lid = none ∧
        (s'.strand c.tile c.strand).arrival = some ⟨pa, s.ids, 0, true⟩ ∧ (s'.strand c.tile c.strand).afterYield = true ∧ (s'.strand c.tile c.strand).wake = .barrier timed ∧
        (∃ w : BarWait, w ∈ (s'.strand c.tile c.strand).barWaits ∧ w.bar = pa ∧ w.timed = timed ∧ w.rid = s.ids ∧ w.level = x.depth ∧ w.deadline = deadline ∧ w.reg = reg ∧ w.out = none) ∧
        (∀ w ∈ x.barWaits, w.level ≠ x.depth → w ∈ (s'.strand c.tile c.strand).barWaits)
    (s.Issues c 8 (requestNeed false false true true false) t o → plain (.barr t) .arrive [0, 2] ∧ plain (.bard t) .drop [0, 2] ∧ plain (.barq t) .query [0, 1]) ∧
    (s.Issues c 8 (requestNeed false false false true false) t o → s.releaseReady c true = true →
      waits (.barw t) .arriveWait false 0 0 ∧ (∀ s1, s.barTarget c h = .stop s1 → exec (.barw t) s = .next s1) ∧
      (s.barTarget c h = .null → ∃ s', marks (.barw t) s' ∧ (s'.strand c.tile c.strand).afterYield = true ∧ (s'.strand c.tile c.strand).wake = .none ∧ s'.reqs = s.reqs)) ∧
    (s.Issues c 8 (requestNeed true false true true false) t o →
      (landSpec (low64 o.o2) = some p → p.ord = 0 → s.releaseReady c true = true →
        waits (.bartw t) (.arriveTimed (low64 o.o0).toNat) true (low64 o.o0).toNat p.lreg ∧ (∀ s1, s.barTarget c h = .stop s1 → exec (.bartw t) s = .next s1) ∧
        (s.barTarget c h = .null → ∃ s', marks (.bartw t) s' ∧ (s'.strand c.tile c.strand).afterYield = true ∧
          (s'.strand c.tile c.strand).vers = x.vers ++ [⟨codeW p.lreg, c.seq + 1, c.seq, c.slot + 1, c.step, 0⟩])) ∧
      (landSpec (low64 o.o2) = none → raises (.bartw t)) ∧ (landSpec (low64 o.o2) = some p → p.ord ≠ 0 → raises (.bartw t)))

/-- For every state and request r under the event's number. MORDANT_ATOMIC of r of operation op over the word W read at its address, with
the operand V and comparison C: the value written is W + V, the signed least or greatest of the two, W and V, W or V, W exclusive or
V, V, V when W = C and else nothing is written, or the FP32 sums of the lower and of the upper 32 bits, each in its place, for op 0 to
8 in the order of the ports; the request is done with, and its reply carries W. MORDANT_RED of r of ROP and EFMT over the 128 bytes
read: each element becomes the operation's result and nothing is answered. The part of one that crosses a page stays until the other
part stands at its home too, and then the two are performed in that one step, or is dropped when there is no other part (log 23).
Where the location cannot be read, no memory changes, and the reply carries the error's code and no data. -/
def Obligations.MordantAtomicEffects : Prop :=
  ∀ (s : State) (r : Req),
    let n := s.ev.id
    let s1 := s.tallyMordant r
    SMap.lookup s.reqs n = some r →
    (∀ op, r.kind = .atomic op →
      (∀ bs, s1.physRead r.pa 8 = some bs →
        let w := BitVec.ofNat 64 (leNat bs)
        let v := BitVec.ofNat 64 (leNat r.data)
        let writes (x : W64) : Prop := ∃ s', exec .mordantAtomic s = .next s' ∧ s'.Replies n r 0 0 bs ∧ s'.mem = (s1.homeWrite r.pa (leBytes 8 x.toNat) r.comp true).1.mem
        (op = 0 → writes (w + v)) ∧ (op = 1 → writes (if w.toInt ≤ v.toInt then w else v)) ∧ (op = 2 → writes (if v.toInt ≤ w.toInt then w else v)) ∧
        (op = 3 → writes (w &&& v)) ∧ (op = 4 → writes (w ||| v)) ∧ (op = 5 → writes (w ^^^ v)) ∧ (op = 6 → writes v) ∧ (op = 7 → w = r.cmp → writes v) ∧
        (op = 7 → w ≠ r.cmp → ∃ s', exec .mordantAtomic s = .next s' ∧ s'.Replies n r 0 0 bs ∧ s'.mem = s.mem) ∧
        (op = 8 → writes (BitVec.ofNat 64 ((fp32.add (w.toNat % 2 ^ 32) (v.toNat % 2 ^ 32)).1 + (fp32.add (w.toNat / 2 ^ 32) (v.toNat / 2 ^ 32)).1 * 2 ^ 32)))) ∧
      (s1.physRead r.pa 8 = none → ∃ s', exec .mordantAtomic s = .next s' ∧ s'.Replies n r 0 (errorCode r.pa) [] ∧ s'.mem = s.mem)) ∧
    (∀ rop efmt, r.kind = .red rop efmt →
      (∀ m, r.len = 128 → s1.physRead r.pa 128 = some m → ∃ s', exec .mordantRed s = .next s' ∧ SMap.lookup s'.reqs n = none ∧ s'.pkts = (s1.homeWrite r.pa (redBytes rop efmt m r.data) r.comp true).1.pkts ∧
        s'.mem = (s1.homeWrite r.pa (redBytes rop efmt m r.data) r.comp true).1.mem) ∧
      (r.len = 128 → s1.physRead r.pa 128 = none → ∃ s', exec .mordantRed s = .next s' ∧ s'.Replies n r 6 (errorCode r.pa) (leBytes 8 r.run) ∧ s'.mem = s.mem) ∧
      (r.len ≠ 128 →
        (s.redTwin n r = none → exec .mordantRed s = .next { s with reqs := SMap.erase s.reqs n }) ∧
        (∀ q, s.redTwin n r = some q →
          let s2 := s.tallyMordant { r with len := 128 }
          (q.2.stage ≠ 3 → ∃ s', exec .mordantRed s = .next s' ∧ SMap.lookup s'.reqs n = some { r with stage := 3 } ∧ s'.mem = s.mem ∧ s'.Due (s.tick + 1) .mordantRed (opId n)) ∧
          (∀ m, q.2.stage = 3 → q.1 ≠ n → s2.physRead r.pa r.len = some m → (s2.physRead q.2.pa q.2.len).isSome = true →
            let w : State := { (s2.homeWrite r.pa (redBytes rop efmt m r.data) r.comp true).1 with reqs := SMap.erase (s2.homeWrite r.pa (redBytes rop efmt m r.data) r.comp true).1.reqs n }
            ∃ s', exec .mordantRed s = .next s' ∧ SMap.lookup s'.reqs n = none ∧ SMap.lookup s'.reqs q.1 = none ∧
              s'.mem = (w.homeWrite q.2.pa (redBytes rop efmt ((w.physRead q.2.pa q.2.len).getD []) q.2.data) q.2.comp true).1.mem))))

/-- For every state and request r under the event's number, over a cell read at its address that is not malformed. FRD_PERFORM answers its
16 bytes and changes nothing. FWR_PERFORM of a FULL cell answers CODE 2; of an EMPTY one fills it with the value; of a WAITING one
fills it, keeps its list, answers the list's count in WREL, and starts the walk. FRST_PERFORM answers the state word; an EMPTY cell's
value becomes 0, a FULL cell without records becomes EMPTY with value 0, and any other stays. A malformed cell answers code 2 in each
case. FUTURE_DEFERRAL of a record that its tile has not refused: a FULL cell's value makes it ready in its wait register; an EMPTY or
WAITING one with fewer than 16,383 records lists it, its link being the old head, with the count up by 1; a malformed cell or one with
16,383 records faults the record with code 13. FILL_WALK_STEP of a FULL cell that lists a sound record: the record gets the value and
is ready, the head is its link, and the count falls by 1, the walk going on while records remain. -/
def Obligations.FutureCellEffects : Prop :=
  ∀ (s : State),
    let n := s.ev.id
    (∀ r bs, SMap.lookup s.reqs n = some r → (s.tallyMordant r).physRead r.pa 16 = some bs →
      let s1 := s.tallyMordant r
      let c := Cell.ofBytes bs
      let cellIs (s' : State) (fst wcnt head val : Nat) : Prop := s'.mem = (s1.homeWrite r.pa (leBytes 8 (fst * 2 ^ 62 + wcnt * 2 ^ 48 + head) ++ leBytes 8 val) r.comp true).1.mem
      (c.fst = 3 → ∀ i, i = .frdPerform ∨ i = .fwrPerform ∨ i = .frstPerform → ∃ s', exec i s = .next s' ∧ s'.Replies n r 0 2 [] ∧ s'.mem = s.mem) ∧
      (c.fst < 3 → ∃ s', exec .frdPerform s = .next s' ∧ s'.Replies n r 0 0 bs ∧ s'.mem = s.mem) ∧
      (let v := leNat (r.data.take 8);
        (c.fst = 2 → ∃ s', exec .fwrPerform s = .next s' ∧ s'.Replies n r 0 0 (leBytes 8 2) ∧ s'.mem = s.mem) ∧
        (c.fst = 0 → ∃ s', exec .fwrPerform s = .next s' ∧ s'.Replies n r 0 0 (leBytes 8 0) ∧ cellIs s' 2 0 0 v) ∧
        (c.fst = 1 → ∃ s', exec .fwrPerform s = .next s' ∧ s'.Replies n r 0 0 (leBytes 8 (c.wcnt * 2 ^ 48)) ∧ cellIs s' 2 c.wcnt c.head v ∧
          s'.DueAfter s.tick .fillWalkStep { Operand.zero with word := BitVec.ofNat 64 r.pa, id := r.ctx, flag := r.comp })) ∧
      (c.fst = 0 → ∃ s', exec .frstPerform s = .next s' ∧ s'.Replies n r 0 0 (bs.take 8) ∧ s'.mem = (s1.homeWrite (r.pa + 8) (leBytes 8 0) r.comp true).1.mem) ∧
      (c.fst = 2 → c.wcnt = 0 → ∃ s', exec .frstPerform s = .next s' ∧ s'.Replies n r 0 0 (bs.take 8) ∧ cellIs s' 0 0 0 0) ∧
      (c.fst = 1 ∨ (c.fst = 2 ∧ 0 < c.wcnt) → ∃ s', exec .frstPerform s = .next s' ∧ s'.Replies n r 0 0 (bs.take 8) ∧ s'.mem = s.mem) ∧
      (∀ slot rpa, r.kind = .defer slot → s.ev.flag = false → s1.ctxPa r.ctx ((s1.ctx r.ctx).recVa slot) = some rpa →
        let s2 : State := { s1 with reqs := SMap.erase s1.reqs n }
        (c.fst = 3 ∨ (c.fst = 1 ∧ c.wcnt = 16383) → exec .futureDeferral s = .next (s2.failRecord r.ctx slot 13)) ∧
        (c.fst = 2 → exec .futureDeferral s = .next (((s2.writeRecord r.ctx slot
            { s2.record r.ctx slot with c := (s2.record r.ctx slot).c.set (s2.record r.ctx slot).rslot c.val, st := recReady, etk := s2.etk, link := 0 }).makeReady r.ctx slot))) ∧
        (c.fst = 0 ∨ (c.fst = 1 ∧ c.wcnt < 16383) → exec .futureDeferral s = .next
          (((s2.ctxWrite r.ctx ((s1.ctx r.ctx).recVa slot + 16) (leBytes 8 c.head)).homeWrite r.pa
            (leBytes 8 (1 * 2 ^ 62 + (if c.fst = 0 then 1 else c.wcnt + 1) * 2 ^ 48 + rpa) ++ leBytes 8 c.val) r.comp true).1)))) ∧
    (∀ bs cx slot, let s0 := s.markShared n ((List.range 4).map fun k => 4 * homeDie s.ev.word.toNat + k);
      s.physRead s.ev.word.toNat 16 = some bs → (Cell.ofBytes bs).fst = 2 → 0 < (Cell.ofBytes bs).wcnt → s0.listed (Cell.ofBytes bs).head n = some (cx, slot) →
      let c := Cell.ofBytes bs
      let link := (s0.record cx slot).link
      let s1 := (s0.readyWith cx slot c.val).homeWrite s.ev.word.toNat (leBytes 8 (2 * 2 ^ 62 + (c.wcnt - 1) * 2 ^ 48 + link % 2 ^ 48 / 64 * 64) ++ leBytes 8 c.val) s.ev.flag true
      (c.wcnt = 1 → exec .fillWalkStep s = .next s1.1) ∧
      (1 < c.wcnt → ∃ s', exec .fillWalkStep s = .next s' ∧ s'.mem = s1.1.mem ∧ s'.DueAfter s1.1.tick .fillWalkStep { Operand.zero with word := s.ev.word, id := n, flag := s.ev.flag }))

/-- For every state and request r under the event's number. REMOTE_ACCESS_PERFORM of a request through a pinned handle that nothing holds
and no earlier one of the strand to the same location stands before, at its tile, which no freeze has stopped: it is on its way to its
home, within a die as a message that brings the event of its kind. At its home: an address of an HBM goes to the controller, where
those of one tick stand in the order of their tiles, another is performed at once: a load's reply carries the bytes read (through its
own tile's window, those that its strand's scratchpad accesses in order leave, once earlier stores have issued), ltag's the tag of its
line or 2^8 outside HBM, a store is written, through its own tile's window in its place among the strand's stores, and acknowledged,
an unreadable location answers the error's code. HBM_READ and HBM_WRITE of the request perform it so; one whose write has still to
reach some copy of a replicated page is acknowledged when it has reached them all. HBM_WRITE of an engine's write, a single run at its
offset, makes it and acknowledges it to the engine; a capsule's is made, and another module's where it reaches. LANDING_DATA_ARRIVAL
of a plain reply without error gives its entry its part of the data, and the whole once no part is missing; with an error the entry
becomes 0 and cause 13 is raised, as it is for a refused red of the same run. -/
def Obligations.HomeAccessEffects : Prop :=
  ∀ (s : State),
    let o := s.ev
    let n := o.id
    let plain (i : Instr) (r : Req) : Prop :=
      (r.kind = .load → r.own = false → ∀ bs, (s.tallyRead (some r.tile) r.pa r.len).physRead r.pa r.len = some bs → ∃ s', exec i s = .next s' ∧ s'.Replies n r 0 0 (List.replicate r.off 0 ++ bs) ∧ s'.mem = s.mem) ∧
      (r.kind = .load → r.own = true → ∀ t off, physKind r.pa = .window t off → ∃ s', exec i s = .next s' ∧ s'.mem = s.mem ∧
        s'.Replies n r 0 0 (List.replicate r.off 0 ++ (s.scratchView t r.strand r.level r.seq off r.len).mapIdx fun k b => if off + k < scratchSize then b else 0)) ∧
      (r.kind = .load → r.own = false → (s.tallyRead (some r.tile) r.pa r.len).physRead r.pa r.len = none → ∃ s', exec i s = .next s' ∧ s'.Replies n r 0 (errorCode r.pa) [] ∧ s'.mem = s.mem) ∧
      (r.kind = .ltag → ∃ s', exec i s = .next s' ∧ s'.Replies n r 0 0 (leBytes 8 (if throughHbm r.pa then s.tagOf (r.pa / 128) else 2 ^ 8)) ∧ s'.mem = s.mem) ∧
      (r.kind = .store → r.repl = false → r.own = true → ∀ t off, physKind r.pa = .window t off → ∃ s', exec i s = .next s' ∧ s'.Replies n r 0 0 [] ∧
        s'.mem = (performStore s.mem t (s.strand t r.strand).stores ⟨r.seq, r.slot, r.level, [(off, r.data.take (scratchSize - off))], false, false, []⟩).1) ∧
      (r.kind = .store → r.repl = false → r.own = false → ∃ s', exec i s = .next s' ∧
        (let w := (s.tallyMerge (some r.tile) r.pa r.data.length).homeWrite r.pa r.data r.comp false;
          s'.Replies n r 0 (if w.2 then 0 else errorCode r.pa) [] ∧ s'.mem = w.1.mem ∧ s'.tags = w.1.tags))
    (∀ r, SMap.lookup s.reqs n = some r →
      (r.stage = 0 → (s.tile r.tile).stopped = false → r.opened = false → s.withheld n r = false → s.sameLocation n r (some r.pa) = false → homeDie r.pa = dieOf r.tile →
        ∃ s', exec .remoteAccessPerform s = .next s' ∧ SMap.lookup s'.reqs n = some { r with stage := 1 } ∧ s'.Sends vnMessage r.tile r.homeTile r.kind.event (opId n) ∧ s'.mem = s.mem) ∧
      (r.stage ≠ 0 → s.ownWaits r = false → throughHbm r.pa = true → ∃ s', exec .remoteAccessPerform s = .next s' ∧ s'.reqs = s.reqs ∧
        (s.tick, r.tile + 1, (if r.kind = .store then Instr.hbmWrite else .hbmRead), opId n) ∈ s'.agenda) ∧
      (r.stage ≠ 0 → s.ownWaits r = false → throughHbm r.pa = false → r.kind.plain = true → plain .remoteAccessPerform r) ∧
      (r.kind.plain = true → plain .hbmRead r ∧ (o.flag = false → o.arg < 2 → r.stage ≠ 2 → plain .hbmWrite r)) ∧
      (o.flag = false → o.arg < 2 → r.stage = 2 →
        (s.spreading r.spread = true → ∃ s', exec .hbmWrite s = .next s' ∧ s'.reqs = s.reqs ∧ s'.mem = s.mem ∧ s'.Due (s.tick + 1) .hbmWrite (opId n)) ∧
        (s.spreading r.spread = false → ∃ s', exec .hbmWrite s = .next s' ∧ s'.Replies n r 0 0 [] ∧ s'.mem = s.mem))) ∧
    (o.arg = 3 → o.flag = false → ∃ s', exec .hbmWrite s = .next s' ∧
      (let runs := runsOf o.bytes.length (o.bytes.drop 8); let w := s.writeRuns o.tile o.word.toNat runs (decide (o.node = 1));
        s'.mem = w.1.mem ∧
        (∀ at_ bs, runs = [(at_, bs)] → s'.mem = ((s.tallyMerge (some o.tile) (o.word.toNat + at_) bs.length).homeWrite (o.word.toNat + at_) bs (decide (o.node = 1)) false).1.mem) ∧ s'.Sends vnCopy (homeTile o.word.toNat) o.tile .walkBurst
          { Operand.zero with tile := o.tile, id := o.id, arg := 2 + o.strand % 2, strand := o.strand / 2, node := if w.2 then 0 else 1, word := BitVec.ofNat 64 (leNat (o.bytes.take 8)) })) ∧
    (o.arg = 4 → exec .hbmWrite s = .next ((s.tallyMerge (some o.tile) o.word.toNat o.bytes.length).homeWrite o.word.toNat o.bytes (decide (o.node = 1)) false).1) ∧
    (o.arg = 2 → o.flag = false →
      ((List.range o.bytes.length).all (fun i => windowReaches (o.word.toNat + i)) = true → exec .hbmWrite s = .next ((s.tallyMerge none o.word.toNat o.bytes.length).homeWrite o.word.toNat o.bytes false false).1) ∧
      (o.bytes ≠ [] → (List.range o.bytes.length).all (fun i => !windowReaches (o.word.toNat + i)) = true → exec .hbmWrite s = .next (s.tallyMerge none o.word.toNat o.bytes.length))) ∧
    (o.node = 0 → o.arg = 0 → exec .landingDataArrival s = .next (s.modCore o.tile fun co => { co with lands := co.lands.map fun a =>
      let v := BitVec.ofNat 1024 (leNat o.bytes)
      if a.lid = n - 1 ∧ a.data = none then (if a.parts ≤ 1 then { a with data := some (a.half ||| v) } else { a with parts := a.parts - 1, half := a.half ||| v }) else a })) ∧
    (o.node = 0 → o.arg ≠ 0 → (s.strand o.tile o.strand).st ≠ .free → (s.strand o.tile o.strand).st ≠ .suspended → ∃ s', exec .landingDataArrival s = .next s' ∧
      (∀ a ∈ (s.core o.tile).lands, a.lid = n - 1 → a.data = none → { a with data := some 0 } ∈ (s'.core o.tile).lands) ∧
      ((s'.strand o.tile o.strand).causes.any fun r => decide (r.cause = 13)) = true) ∧
    (o.node = 6 → o.arg ≠ 0 → (s.strand o.tile o.strand).run = frameField o.bytes 0 8 → (s.strand o.tile o.strand).st ≠ .free → (s.strand o.tile o.strand).st ≠ .suspended →
      ∃ s', exec .landingDataArrival s = .next s' ∧ ((s'.strand o.tile o.strand).causes.any fun r => decide (r.cause = 13)) = true)

/-- For every state and request r under the event's number on an active barrier whose block can be read. BARRIER_ARRIVAL without an error:
the count rises by 1, and the drop count for a drop; the requester is answered the phase and the new count, with bit 31 set when it
completes; short of E nothing else changes in the block; at E the phase rises, both counts clear, E loses the drops, the window opens,
and the die's Ridge controller is due at T0, 2 ticks on. An error is answered with its code and changes no count. BARQ_PERFORM answers
words 0x00 and 0x08. TIMED_WAITER_DEADLINE drops the waiter, records its time-out and sends it. RELEASE_WINDOW_END ends a window at
its tick. RIDGE_RELEASE, unless a Y link that carries nothing holds it, makes each column's notice due at its phase's tick,
RELEASE_NOTICE_EMIT sends it to the column's tiles in the context's region, and BARRIER_WAKE notes its phase at a strand's wait there
(waits of other levels stay); a wait that the Mordant has not timed out and whose phase it has reached ends with outcome 1: at the
present level it is gone, the sleeping strand becomes YIELDED and a timed one's register gets the outcome; at a lower level the
outcome is kept until the return. -/
def Obligations.BarrierEventEffects : Prop :=
  ∀ (s : State),
    let o := s.ev
    let n := o.id
    (∀ r bs, SMap.lookup s.reqs n = some r → r.run ≠ 0 →
      let s1 : State := { s.tallyMordant r with barMarks := SMap.set (s.tallyMordant r).barMarks r.pa r.ctx }
      s1.barBytes r.pa = some bs →
      let b := Bar.ofBytes bs
      let tail := leBytes 8 r.pa ++ leBytes 8 n
      (∀ code, s1.barError r b = some code → ∃ s', exec .barrierArrival s = .next s' ∧ s'.Replies n r r.kind.replyKind code (leBytes 8 0 ++ tail) ∧ s'.mem = s.mem) ∧
      (s1.barError r b = none → r.kind = .arrive ∨ r.kind = .drop ∨ r.kind = .arriveWait →
        let drp := if r.kind = .drop then b.drp + 1 else b.drp
        let s2 := s1.putBar r.pa b.phase (b.a + 1) drp b.e
        let word := b.phase * 2 ^ 32 + (if b.e ≤ b.a + 1 then 2 ^ 31 else 0) + (b.a + 1) % 2 ^ 20
        (∀ bs2, s2.barBytes r.pa = some bs2 → (Bar.ofBytes bs2).bst ≠ 1 ∨ (Bar.ofBytes bs2).e = 0 ∨ (Bar.ofBytes bs2).a < (Bar.ofBytes bs2).e →
          ∃ s', exec .barrierArrival s = .next s' ∧ s'.Replies n r r.kind.replyKind 0 (leBytes 8 word ++ tail) ∧ s'.mem = s2.mem) ∧
        (∀ bs2, s2.barBytes r.pa = some bs2 → (Bar.ofBytes bs2).bst = 1 → 0 < (Bar.ofBytes bs2).e → (Bar.ofBytes bs2).e ≤ (Bar.ofBytes bs2).a →
          let c := Bar.ofBytes bs2
          ∃ s', exec .barrierArrival s = .next s' ∧ s'.Replies n r r.kind.replyKind 0 (leBytes 8 word ++ tail) ∧
            s'.mem = ((s2.putBar r.pa (c.phase + 1) 0 0 (c.e - min c.drp c.e)).physWrite (r.pa + 0x20) (leBytes 8 s.tick) false).1.mem ∧
            SMap.lookup s'.windows r.pa = some (s.tick + 2 + (schedPhases c.sched - 1) * schedDelta c.sched) ∧
            s'.Due (s.tick + 2) .ridgeRelease { Operand.zero with node := homeDie r.pa, word := BitVec.ofNat 64 r.pa, arg := c.phase, id := r.ctx, bytes := c.sched })) ∧
      (∃ s1, exec .barqPerform s = .next s1 ∧ ((b.bst ≠ 1 ∨ b.e = 0 ∨ b.a < b.e) →
        s1.Replies n r 0 0 (s.queryWords r.pa bs) ∧ s1.mem = s.mem))) ∧
    (∀ w, s.waiters.find? (fun w => decide (w.rid = n)) = some w → (s.ctx w.ctx).st ≠ .evicted → ∃ s', exec .timedWaiterDeadline s = .next s' ∧
      s'.waiters = s.waiters.filter (fun v => decide (v.rid ≠ w.rid)) ∧ w.rid ∈ s'.timeouts ∧ s'.Sends vnMessage (edgeTile (homeDie w.bar)) w.tile .landingDataArrival
        { Operand.zero with tile := w.tile, strand := w.strand, node := 3, bytes := leBytes 8 w.phase ++ leBytes 8 w.rid }) ∧
    (∀ k, SMap.lookup s.windows o.word.toNat = some k → k ≤ s.tick → exec .releaseWindowEnd s = .next { s with windows := SMap.erase s.windows o.word.toNat }) ∧
    (s.noticeHeld (homeDie o.word.toNat) o.node = false → ∃ s', exec .ridgeRelease s = .next s' ∧ ∀ x, x < 32 →
      s'.Due (s.tick + schedColumn o.bytes x * schedDelta o.bytes) .releaseNoticeEmit { o with node := o.node * 32 + x }) ∧
    (∀ g, (s.ctx n).st ≠ .evicted → (s.ctx n).region = some g → ∃ s', exec .releaseNoticeEmit s = .next s' ∧ ∀ y, y < 32 →
      let t := o.node / 32 * 1024 + y * 32 + o.node % 32
      g.holds t = true → s'.Sends vnConfig (edgeTile (o.node / 32)) t .barrierWake { o with tile := t, bytes := [] }) ∧
    ((s.tile o.tile).stopped = false → ∃ s', exec .barrierWake s = .next s' ∧ ∀ k pre w, k < 8 → (s.strand o.tile k).barWaits = pre ++ [w] → w.bar = o.word.toNat → w.notice = none → w.out = none →
      (∀ u ∈ pre, u.bar ≠ w.bar ∧ u.rid ≠ w.rid ∧ u.level ≠ w.level ∧ u.out = none ∧ (u.notice = none ∨ u.phase = none)) →
      let w1 : BarWait := { w with notice := some o.arg };
      (w.phase = none ∨ s.timeouts.contains w.rid = true → (s'.strand o.tile k).barWaits = pre ++ [w1] ∧ (s'.strand o.tile k).st = (s.strand o.tile k).st) ∧
      (∀ p, w.phase = some p → s.timeouts.contains w.rid = false → (o.arg + 2 ^ 32 - p) % 2 ^ 32 < 2 ^ 31 → w.level ≠ (s.strand o.tile k).depth →
        (s'.strand o.tile k).barWaits = pre ++ [{ w1 with out := some (BitVec.ofNat 64 (p * 2 ^ 32 + 2 ^ 30)) }]) ∧
      (∀ p, w.phase = some p → s.timeouts.contains w.rid = false → (o.arg + 2 ^ 32 - p) % 2 ^ 32 < 2 ^ 31 → w.level = (s.strand o.tile k).depth →
        (s'.strand o.tile k).barWaits = pre ∧
        ((s.strand o.tile k).st = .sleeping → (s.strand o.tile k).wake = .barrier w.timed → (s'.strand o.tile k).st = .yielded) ∧
        (w.timed = true → ∃ vis st, (s'.strand o.tile k).vers = (s.strand o.tile k).vers ++ [⟨codeW w.reg, vis, w.seq, w.slot + 1, st, BitVec.ofNat 1024 (p % 2 ^ 32 * 2 ^ 32 + 2 ^ 30)⟩])))

/-- For every state in which the trigger issues, with room in the queue. send with t below 16, reserved bits clear and a tile of the
context's region: a message to that tile and address with the key it names and the t + 1 granules from o1 joins queue 5. copy whose
argument and records pass, with equal sizes and counts, on a key that is no ring: a copy of the two shapes joins queue WQ for its key,
and with bit 3 of t set the key expects its granules. gathr whose list and record pass likewise, through a handle to memory; a null
one sets NUL and the flags of its descriptors alone. stream with a good ring block on a plain, empty key that no command credits: from
memory, the key becomes the ring of a stream that joins queue WQ; from a PORT, the key becomes its ring and NSLT freed-slot notices
set out. qfence of a mask below 64 orders its queues behind the commands that stand in them. Reserved bits, bad records and key misuse
raise cause 2 or 15 and nothing issues. -/
def Obligations.MessageCommandEffects : Prop :=
  ∀ (s : State) (c : Issuer) (t : Trig) (o : Opnds),
    let v := (low64 o.t).toNat
    let x := s.strand c.tile c.strand
    let i2 := BitVec.ofNat 64 (x.stream.idxOf c.seq c.slot)
    let marks (i : Instr) (s' : State) : Prop := exec i s = .next ((s'.commitMark c { commit := true }).advance c)
    let raises (i : Instr) (detail : Nat) : Prop := exec i s = .next (s.raiseHere c 2 i2 (BitVec.ofNat 16 detail))
    let misuse (i : Instr) (k : Nat) : Prop := exec i s = .next (s.raiseHere c 15 (BitVec.ofNat 64 k) 0)
    let record (a : W64) : TensorRec := tensorRecOf (s.descriptor c a 6 64).1
    let queues (i : Instr) (q key : Nat) (kind : CmdKind) (k' : Key) : Prop := q < (s.engines c.tile).queues.length → ∃ s' m, marks i s' ∧ SMap.lookup s'.cmds s.ids = some m ∧
      m.tile = c.tile ∧ m.strand = c.strand ∧ m.run = x.run ∧ m.q = q ∧ m.key = key ∧ m.kind = kind ∧ m.begun = false ∧
      (s'.engines c.tile).queues.getD q [] = (s.engines c.tile).queues.getD q [] ++ [s.ids] ∧ s'.Due (s.tick + 1) .walkCommandStart { Operand.zero with tile := c.tile, arg := q } ∧
      (s'.strand c.tile c.strand).keys = x.keys.modify key (fun _ => k') ∧ s'.mem = s.mem
    let copies (i : Instr) (kind : CmdKind) : Prop :=
      let key := v % 8
      let q := v / 2 ^ 4 % 8
      let k := x.key key
      let nd := max 1 ((kind.dest.map fun d => d.tiles.length).getD 1)
      (k.st = .ring ∨ k.st = .closing → misuse i key) ∧
      (k.st ≠ .ring → k.st ≠ .closing → s.queueRoom c.tile q = true →
        (v.testBit 3 = false → queues i q key kind k) ∧
        (∀ k', v.testBit 3 = true → k.expect (c.tile * 8 + q) (granulesOf kind * nd) = some k' → queues i q key kind k') ∧
        (v.testBit 3 = true → k.expect (c.tile * 8 + q) (granulesOf kind * nd) = none → misuse i key))
    (s.Issues c 7 (msgNeed true true false true) t o →
      (let d := (low64 o.o0).toNat;
        (16 ≤ v ∨ 2 ^ 52 ≤ d ∨ d / 2 ^ 19 % 2 ^ 13 ≠ 0 → raises (.send t) 0) ∧
        (v < 16 → d < 2 ^ 52 → d / 2 ^ 19 % 2 ^ 13 = 0 → (s.ctx x.ctx).holds (d / 2 ^ 32 % 2 ^ 13) = false → exec (.send t) s = .next (s.raiseHere c 9 (low64 o.o0) 0)) ∧
        (v < 16 → d < 2 ^ 52 → d / 2 ^ 19 % 2 ^ 13 = 0 → (s.ctx x.ctx).holds (d / 2 ^ 32 % 2 ^ 13) = true → s.queueRoom c.tile 5 = true →
          ∃ s' m, marks (.send t) s' ∧ SMap.lookup s'.cmds s.ids = some m ∧ m.tile = c.tile ∧ m.strand = c.strand ∧ m.q = 5 ∧
            m.kind = .send (d / 2 ^ 32 % 2 ^ 13) (d % 2 ^ 19) (if d.testBit 51 then some (d / 2 ^ 45 % 8, d / 2 ^ 48 % 8) else none)
              (s.readPieces c ((List.range (v + 1)).map fun g => ((low64 o.o1).toNat / 16 * 16 + 16 * g, 16))))) ∧
      (let ra := s.recordRefusal x (record (low64 o.o0)) false;
       let rb := s.recordRefusal x (record (low64 o.o1)) true;
        (copyArgOk v = false → raises (.copy t) 0 ∧ raises (.gathr t) 0) ∧ (copyArgOk v = true → ra ≠ 0 → raises (.copy t) (0x100 + ra)) ∧
        (copyArgOk v = true → ra = 0 → rb ≠ 0 → raises (.copy t) (0x200 + rb)) ∧
        (copyArgOk v = true → ra = 0 → rb = 0 → (record (low64 o.o0)).esize = (record (low64 o.o1)).esize → (record (low64 o.o0)).count = (record (low64 o.o1)).count →
          copies (.copy t) (.copy ((record (low64 o.o0)).shape x) ((record (low64 o.o1)).shape x))) ∧
        (let l := gatherListOf (s.descriptor c (low64 o.o0) 6 64).1; let at0 := (low64 o.o0).toNat / 64 * 64;
         let sound := l.rsv = false ∧ 0 < l.nrow ∧ l.nrow ≤ 4096 ∧ 0 < l.rb ∧ l.rb ≤ 65536 ∧ at0 + 32 + 4 * l.nrow ≤ 0x80000 ∧ rb = 0 ∧ l.rb % (record (low64 o.o1)).esize = 0 ∧
          (record (low64 o.o1)).count = l.nrow * l.rb / (record (low64 o.o1)).esize;
          copyArgOk v = true → sound →
          (handleClass l.src = .null → marks (.gathr t) (((s.flagged c (s.descriptor c (low64 o.o0) 6 64).2).flagged c (s.descriptor c (low64 o.o1) 6 64).2).addFlags c flagNUL)) ∧
          (handleClass l.src = .bad → exec (.gathr t) s = .next (s.raiseHere c 9 l.src 0)) ∧
          (handleClass l.src = .opened ∨ handleClass l.src = .pinned → copies (.gathr t) (.gather
            ⟨if handleClass l.src = .pinned then .pin (handleSlot l.src) (handlePa l.src) else .va (handleVa l.src),
             (List.range l.nrow).map fun i => fieldOf (s.readPieces c ((List.range l.nrow).map fun i => (at0 + 32 + 4 * i, 4))) (4 * i) 4, l.rstr, l.rb⟩
            ((record (low64 o.o1)).shape x))))) ∧
      (let ring := blkOf (s.descriptor c (low64 o.o1) 6 64).1; let src := blkOf (s.descriptor c (low64 o.o0) 6 64).1; let key := v % 8; let q := v / 2 ^ 4 % 8;
       let kr (source : Nat) : Key := { Key.empty with st := .ring, ring := some ⟨ring.base, ring.nslot, ring.blen, ring.tokens, 0, 0, 0, source⟩ };
        (2 ^ 7 ≤ v ∨ v.testBit 3 = true ∨ 5 ≤ q → raises (.stream t) 0) ∧
        (v < 2 ^ 7 → v.testBit 3 = false → q < 5 → ring.ring = true → ring.refusal .ring true none = 0 → (x.key key).st = .plain → (x.key key).entries = [] → s.crediting c.tile c.strand x.run key = [] →
          (low64 o.o0 ≠ 0 → src.pep = 0 → src.refusal .memory false none = 0 → src.tokens = ring.tokens → src.blen = ring.blen → s.queueRoom c.tile q = true →
            queues (.stream t) q key (.stream src ring) (kr s.ids)) ∧
          (low64 o.o0 = 0 → 1 ≤ ring.pep → ring.pep ≤ 4 → key < x.keys.length → ∃ s', marks (.stream t) s' ∧ (s'.strand c.tile c.strand).key key = kr (portSource ring.peer (ring.pep - 1)) ∧ s'.mem = s.mem)))) ∧
    (s.Issues c 7 (msgNeed false false false false) t o →
      (64 ≤ v → raises (.qfence t) 0) ∧
      (v < 64 → ((List.range 6).all fun q => !v.testBit q || ((s.engines c.tile).queues.getD q []).isEmpty && (s.fenced c.tile q).isEmpty) = true → marks (.qfence t) s) ∧
      (∀ q, v < 64 → q < 6 → v.testBit q = true → (s.engines c.tile).queues.getD q [] ≠ [] → ∃ s' before, marks (.qfence t) s' ∧
        (s'.engines c.tile).fences = (s.engines c.tile).fences ++ [(v, before)] ∧ (∀ i ∈ (s.engines c.tile).queues.getD q [], i ∈ before)))

/-- For every state in which the trigger issues, with key n = t modulo 8. free of a ring with a filled slot: its head moves on, one slot
fewer is filled, and the notice to its producer is due. close of a ring: at its end the key is plain and empty, else the key is
CLOSING and its producer is told. kexp of a plain key naming one producer, the other fields of o0 being 0xFFFF: its entry, or a new
one of an empty key, expects o1's amount more; with four other producers it is misuse; of any o0, each field other than 0xFFFF adds
its amount to its producer's entry or takes a free one, and with a fifth producer it is misuse. kclr of keys none of which is a ring
or closing: each becomes plain and empty with fault word 0, and the others stay. krd: status with ST, C, E, OVR, the filled slots and
head of a ring, the entries and the credits still missing, at trigger + 2. promise raises cause 2 for a bad specification or an ORD,
and stalls without room; with a good one and room: an entry for the named register that carries the key joins the landing buffer, and
the key's promise, 0 for a complete key, comes to it once the step it waits in and two more have gone; LANDING of an entry that
carries a key with a tick neither 0 nor all ones arms the key's watch. Misuse (a free or close of another key or an empty ring, kexp
of one not plain) raises cause 15 with the key, and nothing issues. waitk, with no free of an earlier bundle unissued: of keys all
complete it issues; with one faulted it raises cause 15 for the lowest such, with its fault kind, else it stalls. -/
def Obligations.KeyTriggerEffects : Prop :=
  ∀ (s : State) (c : Issuer) (t : Trig) (o : Opnds),
    let v := (low64 o.t).toNat
    let n := v % 8
    let x := s.strand c.tile c.strand
    let k := x.key n
    let marks (i : Instr) (s' : State) : Prop := exec i s = .next ((s'.commitMark c { commit := true }).advance c)
    let misuse (i : Instr) (n : Nat) : Prop := exec i s = .next (s.raiseHere c 15 (BitVec.ofNat 64 n) 0)
    (s.Issues c 7 (msgNeed false false false false) t o →
      (∀ r, k.st = .ring → k.ring = some r → 0 < r.filled → ∃ s' op, marks (.free t) s' ∧
        (s'.strand c.tile c.strand).keys = x.keys.modify n (fun k => { k with ring := some { r with filled := r.filled - 1, head := (r.head + 1) % r.nslot } }) ∧ s'.Due (s.tick + 1) .freedSlotNotice op ∧ op.tile = c.tile ∧ op.id = r.source) ∧
      (∀ r, k.st = .ring → k.ring = some r → r.filled = 0 → misuse (.free t) n) ∧ (k.st ≠ .ring → misuse (.free t) n ∧ misuse (.close t) n) ∧
      (∀ r, k.st = .ring → k.ring = some r → k.endF = true → marks (.close t) (s.modStrand c.tile c.strand fun x => { x with keys := x.keys.modify n fun _ => Key.empty })) ∧
      (∀ r, k.st = .ring → k.ring = some r → k.endF = false → ∃ s', marks (.close t) s' ∧ (s'.strand c.tile c.strand).keys = x.keys.modify n (fun k => { k with st := .closing }) ∧
        ∃ op, s'.DueAfter s.tick .closeAck op ∧ op.tile = c.tile ∧ op.strand = c.strand ∧ op.node = n ∧ op.id = r.source ∧ op.flag = false ∧ (r.source < 2 ^ 64 → op.arg = 0)) ∧
      ((∀ j, j < 8 → v.testBit j = true → (x.key j).st ≠ .ring ∧ (x.key j).st ≠ .closing) → ∃ s', marks (.kclr t) s' ∧
        (∀ j, j < 8 → j < x.keys.length → (s'.strand c.tile c.strand).key j = if v.testBit j then Key.empty else x.key j) ∧
        (∀ j, j < 8 → (s'.strand c.tile c.strand).kflt.getD j 0 = if v.testBit j then 0 else x.kflt.getD j 0) ∧ s'.mem = s.mem) ∧
      (∀ j, j < 8 → v.testBit j = true → ((x.key j).st = .ring ∨ (x.key j).st = .closing) → ∃ i, i ≤ j ∧ misuse (.kclr t) i)) ∧
    (s.Issues c 7 { msgNeed false false false false with result := some 7 } t o → 
      let st := match k.st with | .plain => 0 | .ring => 1 | .closing => 2 | .faulted => 3
      let bit (b : Bool) (i : Nat) : Nat := if b then 2 ^ i else 0
      let missing := ((k.entries.filter KeyEntry.x).map fun e => e.exp - e.got).sum
      let status := st * 2 ^ 61 + bit k.complete 60 + bit k.endF 59 + bit k.ovr 58 + (k.ring.map Ring.filled).getD 0 * 2 ^ 48 + (k.ring.map Ring.head).getD 0 * 2 ^ 40 + k.entries.length * 2 ^ 32 + min missing (2 ^ 32 - 1)
      exec (.krd t) s = .next (((s.result c 7 2 t.w (widen (BitVec.ofNat 64 status)) 0 0).commitMark c { commit := true }).advance c)) ∧
    (s.Issues c 7 (msgNeed true true false false) t o →
      (k.st ≠ .plain → misuse (.kexp t) n) ∧
      (∀ p, k.st = .plain → (low64 o.o0).toNat = p + 0xFFFF * 2 ^ 16 + 0xFFFF * 2 ^ 32 + 0xFFFF * 2 ^ 48 → p < 0xFFFF →
        let q := (low64 o.o1).toNat % 2 ^ 16
        (k.entries = [] → marks (.kexp t) (s.modStrand c.tile c.strand fun x => { x with keys := x.keys.modify n fun _ => { k with entries := [⟨p, q, 0, true⟩] } })) ∧
        (∀ e l, k.entries = e :: l → e.pid = p → (∀ e' ∈ l, e'.pid ≠ p) → ∃ s', marks (.kexp t) s' ∧
          (n < x.keys.length → ((s'.strand c.tile c.strand).key n).entries = { e with exp := (e.exp + q) % 2 ^ 32, x := true } :: l)) ∧
        (k.entries.length = 4 → (∀ e ∈ k.entries, e.pid ≠ p) → misuse (.kexp t) n)) ∧
      (k.st = .plain →
        let named := (List.range 4).filterMap fun p => let pid := (o.o0.extractLsb' (16 * p) 16).toNat; if pid = 0xFFFF then none else some (pid, (o.o1.extractLsb' (16 * p) 16).toNat)
        let fresh := (named.map Prod.fst).eraseDups.filter fun p => k.entries.all fun e => decide (e.pid ≠ p)
        let old (p : Nat) : Nat := ((k.entries.find? fun e => decide (e.pid = p)).map KeyEntry.exp).getD 0
        (fresh ≠ [] → 4 < k.entries.length + fresh.length → misuse (.kexp t) n) ∧
        (fresh = [] ∨ k.entries.length + fresh.length ≤ 4 → ∃ k', marks (.kexp t) (s.modStrand c.tile c.strand fun x => { x with keys := x.keys.modify n fun _ => k' }) ∧ k'.st = .plain ∧
          k'.entries.length = k.entries.length + fresh.length ∧ (∀ e ∈ k.entries, (∀ q ∈ named, q.1 ≠ e.pid) → e ∈ k'.entries) ∧
          ∀ p ∈ named.map Prod.fst, ∃ e ∈ k'.entries, e.pid = p ∧ e.x = true ∧ e.exp = (old p + ((named.filter fun q => decide (q.1 = p)).map Prod.snd).sum) % 2 ^ 32))) ∧
    (s.Issues c 7 (msgNeed false false true false) t o → (landSpec (low64 o.o2) = none ∨ (landSpec (low64 o.o2)).any (fun p => decide (p.ord ≠ 0)) = true) →
      exec (.promise t) s = .next (s.raiseHere c 2 (BitVec.ofNat 64 (x.stream.idxOf c.seq c.slot)) 0)) ∧
    (s.Issues c 7 (msgNeed false false true false) t o → (landSpec (low64 o.o2)).any (fun p => decide (p.ord = 0)) = true → landRoom (s.core c.tile) = false → exec (.promise t) s = .next (s.stall c)) ∧
    (s.Issues c 7 (msgNeed false false true false) t o → ∀ p, landSpec (low64 o.o2) = some p → p.ord = 0 → landRoom (s.core c.tile) = true →
      (∀ b ∈ (s.core c.tile).lands, b.lid ≠ (s.core c.tile).nextLid) →
      let w := s.promiseOf c.tile c.strand n
      ∃ s', marks (.promise t) s' ∧ s'.Due (s.tick + 1) .landingDataArrival { Operand.zero with
          tile := c.tile, strand := c.strand, node := 5, id := (s.core c.tile).nextLid + 1, arg := 3 * s.stepCost c.tile - (s.core c.tile).credit, bytes := leBytes 8 w.toNat } ∧
        (∃ a, (s'.core c.tile).lands = (s.core c.tile).lands ++ [a] ∧ a.lid = (s.core c.tile).nextLid ∧ a.reg = p.lreg ∧ a.due = c.step + p.ofs ∧ a.key = some n) ∧
        (k.complete = true → w = 0)) ∧
    (∀ a j w, s.landNow s.ev.tile = some a → a.key = some j → (a.data.getD 0).toNat = w → 0 < w → w < 2 ^ 64 - 1 → j < (s.strand s.ev.tile a.strand).keys.length →
      ∃ s', exec .landing s = .next s' ∧ ((s'.strand s.ev.tile a.strand).key j).watch = some w ∧
        s'.Due (max w s.tick) .promiseWatchExpiry { Operand.zero with tile := s.ev.tile, strand := a.strand, node := j, word := BitVec.ofNat 64 w }) ∧
    (∀ sync (m : BitVec 8), s.issuer = some c → s.slotFree c sync = true → x.stream.unissuedBelow c.seq isFree = false →
      (∀ j, j < 8 → m.getLsbD j = true → (x.key j).st = .faulted → (∀ i, i < j → m.getLsbD i = true → (x.key i).st ≠ .faulted) →
        exec (.waitk sync m) s = .next (s.raiseHere c 15 (BitVec.ofNat 64 j) (BitVec.ofNat 16 ((x.kflt.getD j 0).toNat / 2 ^ 60)))) ∧
      ((∀ j, j < 8 → m.getLsbD j = true → (x.key j).complete = true) → exec (.waitk sync m) s = .next ((s.modStrand c.tile c.strand fun x => { x with lastWaitk := (c.seq, c.step) :: x.lastWaitk.filter fun w => decide (w.2 = c.step) }).advance c)) ∧
      (∀ j, j < 8 → m.getLsbD j = true → (x.key j).complete = false → (∀ i, i < 8 → m.getLsbD i = true → (x.key i).st ≠ .faulted) → exec (.waitk sync m) s = .next (s.stall c)))

/-- For every state, memory being in canonical form where it changes. KEY_CREDIT of a running strand: the key takes the credit, or it
waits while no entry is free; of one that runs no longer: it is discarded. CLOSE_ACK of the producer of a CLOSING key, no burst of it
being on its way: the producer has stopped and the key is plain and empty. PROMISE_WATCH_EXPIRY of the watched promise of an
incomplete key: the watch ends, cause 11 is raised. WALK_COMMAND_START of the head of a queue with nothing before it: a message leaves
for its tile, a copy or gather begins its bursts, a stream becomes a walk with NSLOT notices. SEND_DELIVERY: the payload stands at its
address, the named key's credit is due, and the source learns of it and drops the message. COPY_DELIVERY: the elements of the burst
stand at their places, the key that the last one names is credited, and the source learns of it, with the last once no credit of that
engine waits: the burst has one access fewer to be performed; with the last of all the issuer's key takes its credit and the command
is gone. WALK_BURST: an acknowledged write that reaches no other copy any more counts so too; a read at its home sends the bytes back.
STREAM_BURST_ARRIVAL joins what a memory writer or a PORT, which is not closing a stream of the sender, holds. FREED_SLOT_NOTICE gives
an engine's stream or a PORT one slot more; that of a free leaves once its bundle and those before it have issued and their stores
stand. DONE_TOKEN and ORDERING_TOKEN raise their count up to 255; a done token over it is held. -/
def Obligations.EngineEventEffects : Prop :=
  ∀ (s : State),
    let o := s.ev
    let x := s.strand o.tile o.strand
    let k := x.key o.node
    let nd := s.node o.tile o.node
    (x.st ≠ .free → x.st ≠ .suspended → (∀ k', k.credit o.id o.arg = some k' → ∃ s', exec .keyCredit s = .next s' ∧ (s'.strand o.tile o.strand).keys = x.keys.modify o.node (fun _ => k')) ∧
      (k.credit o.id o.arg = none → exec .keyCredit s = .next (s.after 1 .keyCredit o))) ∧
    (x.st = .free ∨ x.st = .suspended → exec .keyCredit s = .next s) ∧
    ((s.tile o.tile).stopped = false →
      (∀ r, o.strand < 8 → o.id < 2 ^ 64 → o.flag = false → k.st = .closing → k.ring = some r → r.source = o.id → s.burstsUnderWay o = false → ∃ s', exec .closeAck s = .next s' ∧
        (s'.strand o.tile o.strand).keys = x.keys.modify o.node (fun _ => Key.empty) ∧ s'.streams = SMap.erase s.streams o.id ∧ s'.cmds = SMap.erase s.cmds o.id) ∧
      (k.watch = some o.word.toNat → x.st ≠ .free → x.st ≠ .suspended → k.complete = false → o.node < x.keys.length → ∃ s', exec .promiseWatchExpiry s = .next s' ∧
        ((s'.strand o.tile o.strand).causes.any fun r => decide (r.cause = 11)) = true ∧ ((s'.strand o.tile o.strand).key o.node).watch = none) ∧
      (∀ i q m, o.arg < 5 → (s.engines o.tile).queues.getD o.arg [] = i :: q → SMap.lookup s.cmds i = some m → m.tile = o.tile → m.begun = false → m.after = [] →
        let bursts : Prop := ∃ s', exec .walkCommandStart s = .next s' ∧ SMap.lookup s'.cmds i = some { m with begun := true } ∧
          s'.DueAfter s.tick .walkBurst { Operand.zero with tile := m.tile, id := i, arg := 1 }
        (∀ src dst, m.kind = .copy src dst → bursts) ∧ (∀ rows dst, m.kind = .gather rows dst → bursts) ∧
        (∀ src ring, m.kind = .stream src ring → ∃ s' w, exec .walkCommandStart s = .next s' ∧ SMap.lookup s'.cmds i = none ∧ SMap.lookup s'.streams i = some w ∧ w.tile = m.tile ∧ w.blk = src ∧
          w.other = .ring m.strand m.key ∧ w.credit = ring.nslot ∧ w.next = 0)) ∧
      (∀ i q m d a dk bs, o.arg = 5 → (s.engines o.tile).queues.getD 5 [] = i :: q → SMap.lookup s.cmds i = some m → m.begun = false → m.after = [] → m.kind = .send d a dk bs →
        s.creditWaits (o.tile * 8 + 5) = false → ∃ s', exec .walkCommandStart s = .next s' ∧ s'.Sends vnMessage m.tile d .sendDelivery
          { Operand.zero with tile := d, id := i, arg := a, node := m.tile, strand := (dk.map fun q => 8 * q.1 + q.2).getD 64, bytes := bs }) ∧
      (∀ m, o.arg = 2 → o.node = 0 → s.spreading (leNat o.bytes) = false → SMap.lookup s.cmds o.id = some m → m.read = false →
        ∃ s', exec .walkBurst s = .next s' ∧ SMap.lookup s'.cmds o.id = some (m.performed o.strand)) ∧
      (∀ w, o.arg = 0 → o.node = 0 → SMap.lookup s.streams o.id = some w → ∃ s', exec .freedSlotNotice s = .next s' ∧
        SMap.lookup s'.streams o.id = some { w with credit := w.credit + 1 } ∧ s'.DueAfter s.tick .walkBurst { Operand.zero with tile := w.tile, id := o.id }) ∧
      (∀ w, o.arg ≠ 8 → o.node ≠ 0 → o.flag = false → nd.st ≠ .off → nd.active.dir = 4 → nd.walk = some w → w.closed = false → w.names o o.arg = true →
        ∃ s', exec .freedSlotNotice s = .next s' ∧ (s'.node o.tile o.node).walk = some { w with credit := w.credit + 1, sent := w.sent - 1 }) ∧
      (let y := s.strand o.tile (o.strand / 8);
        o.arg = 8 → o.id < 2 ^ 64 → y.passed o.node o.word.toNat = true → y.storedBelow o.node (o.word.toNat + 1) = true → ∃ s', exec .freedSlotNotice s = .next s' ∧
          s'.DueAfter s.tick .freedSlotNotice { Operand.zero with word := BitVec.ofNat 64 o.tile, arg := 5, strand := 8 * (o.strand / 8) + o.strand % 8, tile := o.tile, id := o.id }) ∧
      (nd.dones.getD o.arg 0 < 255 → exec .doneToken s = .next (s.modNode o.tile o.node fun nd => { nd with dones := nd.dones.modify o.arg (· + 1) })) ∧
      (255 ≤ nd.dones.getD o.arg 0 → exec .doneToken s = .next (s.modNode o.tile (48 + o.arg) fun nd => { nd with owed := nd.owed.modify (o.node - 48) (· + 1) })) ∧
      (nd.st ≠ .off → nd.active.idle = false → nd.active.dir = 3 → nd.active.fnet = true → nd.dones.getD 4 0 < 255 →
        exec .orderingToken s = .next (s.modNode o.tile o.node fun nd => { nd with dones := nd.dones.modify 4 (· + 1) }))) ∧
    (o.arg = 4 → o.asksScratch = false → let n := leNat (o.bytes.take 8)
      ∀ bs, (s.tallyRead (some o.tile) o.word.toNat n).physRead o.word.toNat n = some bs → ∃ s', exec .walkBurst s = .next s' ∧
        s'.Sends vnCopy (homeTile o.word.toNat) o.tile .walkBurst { o with arg := 6, word := 0, bytes := bs }) ∧
    (s.MemOk → o.flag = false → o.arg + o.bytes.length ≤ 0x80000 → o.bytes.length % 16 = 0 → ∃ s', exec .sendDelivery s = .next s' ∧ memRead s'.mem (tileBase o.tile + o.arg) o.bytes.length = o.bytes ∧
      (∀ a, a < tileBase o.tile + o.arg ∨ tileBase o.tile + o.arg + o.bytes.length ≤ a → memRead s'.mem a 1 = memRead s.mem a 1) ∧
      (o.strand < 64 → s'.Due s.tick .keyCredit { Operand.zero with tile := o.tile, strand := o.strand / 8, node := o.strand % 8, id := o.node * 8 + 5, arg := o.bytes.length / 16 }) ∧
      s'.Due (s.tick + 1) .sendDelivery { o with bytes := [], arg := 0, flag := true }) ∧
    (o.flag = true → o.arg ≠ 2 → s.creditWaits (o.node * 8 + 5) = false → ∃ s', exec .sendDelivery s = .next s' ∧
      s'.Sends vnMessage o.tile o.node .sendDelivery { o with tile := o.node, arg := 2 } ∧ s'.mem = s.mem) ∧
    (o.flag = true → o.arg = 2 → ∃ s', exec .sendDelivery s = .next s' ∧ SMap.lookup s'.cmds o.id = none ∧ s'.mem = s.mem) ∧
    (∀ m, SMap.lookup s.cmds o.id = some m → o.flag = false → o.node = 1 → s.creditWaits (o.tile * 8 + 4) = false → ∃ s', exec .copyDelivery s = .next s' ∧ s'.mem = s.mem ∧
      s'.Sends vnCopy o.tile m.tile .copyDelivery { Operand.zero with tile := m.tile, id := o.id, arg := o.arg, flag := true }) ∧
    (∀ m d n, s.MemOk → SMap.lookup s.cmds o.id = some m → m.kind.dest = some d → o.flag = false → o.node ≠ 1 → 0 < d.esize → o.bytes.length = n * d.esize → s.creditWaits (o.tile * 8 + 4) = false →
      let place (j : Nat) : Nat := d.place.base + d.off (o.arg + j)
      ∃ s', exec .copyDelivery s = .next s' ∧
      (∀ j, j < n → place j + d.esize ≤ 0x80000 → (∀ i, j < i → i < n → place i + d.esize ≤ place j ∨ place j + d.esize ≤ place i) →
        memRead s'.mem (tileBase o.tile + place j) d.esize = (o.bytes.drop (d.esize * j)).take d.esize) ∧
      (∀ a, (∀ j, j < n → a < tileBase o.tile + place j ∨ tileBase o.tile + place j + d.esize ≤ a) → memRead s'.mem a 1 = memRead s.mem a 1) ∧
      (∀ z j, d.dk = some (z, j) → m.kind.total ≤ o.arg + n → s'.Due (s.tick + 1) .copyDelivery { o with bytes := [], node := 1 } ∧
        s'.Due s.tick .keyCredit { Operand.zero with tile := o.tile, strand := z, node := j, id := o.tile * 8 + 4, arg := granulesOf m.kind }) ∧
      (d.dk = none ∨ o.arg + n < m.kind.total → s'.Sends vnCopy o.tile m.tile .copyDelivery { Operand.zero with tile := m.tile, id := o.id, arg := o.arg, flag := true })) ∧
    (∀ m, SMap.lookup s.cmds o.id = some m → o.flag = true →
      (m.read = false → ∃ s', exec .copyDelivery s = .next s' ∧ SMap.lookup s'.cmds o.id = some (m.performed o.arg)) ∧
      (let y := s.strand m.tile m.strand;
        ∀ k', m.read = true → m.failed = false → m.slots = [(o.arg, 1)] → y.run = m.run → y.st ≠ .free →
          (y.key m.key).credit (m.tile * 8 + m.q) (granulesOf m.kind * max 1 ((m.kind.dest.map Shape.tiles).getD []).length) = some k' →
          ∃ s', exec .copyDelivery s = .next s' ∧ SMap.lookup s'.cmds o.id = none ∧ (s'.strand m.tile m.strand).keys = y.keys.modify m.key (fun _ => k'))) ∧
    (let data := (toksOf o.bytes).filter fun x => decide (x.kind ≠ 2);
      (∀ w, o.arg = 0 → SMap.lookup s.streams o.id = some w → ∃ s', exec .streamBurstArrival s = .next s' ∧ SMap.lookup s'.streams o.id = some { w with held := w.held ++ [data] }) ∧
      (let p := s.node o.tile (47 + o.arg);
        ∀ w, 0 < o.arg → o.arg < 5 → p.st ≠ .off → p.active.dir = 3 ∨ p.active.dir = 6 → p.walk = some w → w.names o o.node = true → o.node = 0 ∨ portSource o.word.toNat (o.node - 1) ∉ p.stopping →
          ∃ s', exec .streamBurstArrival s = .next s' ∧ (s'.node o.tile (47 + o.arg)).walk = some { w with buf := w.buf ++ data }))

/-- For every state in which the trigger issues. nextw: the next identifier of the strand's launch of a resident kernel, or all ones with
none left, lands 12 steps later in the register of the rotation pointer, which moves on, and the launch's next identifier is consumed.
spawn: a count of 0 does nothing; else, with its module release done and fewer than 256 entries in its die's queue, an entry with the
word's priority, carried count and entry index, the identifier cleared below the lowest field, and at most as many identifiers as the
lowest field has room for (SAT when fewer than asked). regroup: ends the run with the NFLD low fields of its identifier replaced by o0
and the index after its own. enq: the 64 bytes at o0 join the launch queue (DROPS and OVF and SAT when it is full), or as a record the
ready or tile queue, or get an entry of the fault or park ring, or with the pool or ring full, or entries held for the ring (the
model's choice, log 47), set SAT alone. Reserved bits and other refused arguments raise cause 2, a tile outside the region cause 9, a
capsule visit's regroup cause 14; nothing issues. -/
def Obligations.WorkTriggerEffects : Prop :=
  ∀ (s : State) (c : Issuer) (t : Trig) (o : Opnds),
    let v := (low64 o.t).toNat
    let o0 := (low64 o.o0).toNat
    let x := s.strand c.tile c.strand
    let marks (i : Instr) (s' : State) : Prop := exec i s = .next ((s'.commitMark c { commit := true }).advance c)
    let raises (i : Instr) : Prop := exec i s = .next (s.raiseHere c 2 (BitVec.ofNat 64 (x.stream.idxOf c.seq c.slot)) 0)
    let sat (s' : State) : Prop := ((s'.strand c.tile c.strand).flagEvs.any fun e => decide (e.set &&& flagSAT ≠ 0) && decide (e.vis = c.seq + 1)) = true
    (s.Issues c 9 (requestNeed false false true true true) t o →
      (landSpec (low64 o.o2) = none → raises (.nextw t)) ∧
      (∀ p, landSpec (low64 o.o2) = some p → 1 < p.ord → raises (.nextw t)) ∧
      (∀ p, landSpec (low64 o.o2) = some p → p.ord ≤ 1 → landRoom (s.core c.tile) = true →
        let lands (w : Nat) (s' : State) : Prop := marks (.nextw t) s' ∧ s'.mem = s.mem ∧ (s'.strand c.tile c.strand).nw = x.nw + 1 ∧
          (∃ a, (s'.core c.tile).lands = (s.core c.tile).lands ++ [a] ∧ a.lid = (s.core c.tile).nextLid ∧ a.strand = c.strand ∧ a.reg = x.nw.toNat ∧ a.due = c.step + 12) ∧
          s'.DueAfter s.tick .landingDataArrival { Operand.zero with tile := c.tile, strand := c.strand, id := (s.core c.tile).nextLid + 1, bytes := leBytes 8 w }
        (∀ k i l w, (s.tile c.tile).kernel = some k → k.2.res = true → x.launch = i + 1 → s.launch i = some l → l.next = some w → w < 2 ^ 64 →
          ∃ s', lands w s' ∧ s'.launch i = some { l with next := if w + l.inc ≤ l.last ∧ w + l.inc < 2 ^ 64 then some (w + l.inc) else none }) ∧
        (x.launch = 0 ∨ (∃ k, (s.tile c.tile).kernel = some k ∧ k.2.res = false) ∨ (∃ l, s.launch (x.launch - 1) = some l ∧ l.next = none) →
          ∃ s', lands (2 ^ 64 - 1) s' ∧ s'.launches = s.launches))) ∧
    (s.Issues c 9 (capNeed true true) t o →
      let rsv := 2 ^ 48 ≤ v ∨ v / 2 ^ 28 % 16 ≠ 0 ∨ v / 2 ^ 6 % 2 ^ 10 ≠ 0 ∨ v.testBit 3 = true
      let cnt := v / 2 ^ 32 % 2 ^ 16
      (rsv → raises (.spawn t)) ∧ (¬ rsv → cnt = 0 → marks (.spawn t) s) ∧
      (¬ rsv → 0 < cnt → s.moduleRelease c = true → (s.spawns.filter fun e => decide (e.die = dieOf c.tile)).length < 256 →
        regReady (s.core c.tile) c.strand x codeKsel c.seq c.step = true →
        let ws := if x.visits then ((s.tile c.tile).kernel.map fun k => k.2.widths).getD [] else x.widths
        let inc := 2 ^ (64 - ws.sum)
        let room := 2 ^ (ws.getLast?.getD 64) - o0 / inc % 2 ^ (ws.getLast?.getD 64)
        ∃ s' e, marks (.spawn t) s' ∧ s'.spawns = s.spawns ++ [e] ∧ e.id = s.ids ∧ e.die = dieOf c.tile ∧ e.ctx = x.ctx ∧ e.launch = x.launch ∧ e.prio = v % 8 ∧ e.nc = v / 16 % 4 ∧
          e.entry = v / 2 ^ 16 % 2 ^ 12 ∧ e.kslot = (x.regAt codeKsel c.seq).toNat % 2 ^ 16 ∧ e.inc = inc ∧ e.next = o0 / inc * inc ∧ e.left = min cnt room ∧
          s'.Due s.tick .recordGenerate (opId 0) ∧ (room < cnt → sat s') ∧ s'.mem = s.mem)) ∧
    (s.Issues c 9 { use0 := true, access := true } t o →
      (x.visits = true → exec (.regroup t) s = .next (s.raiseHere c 14 (BitVec.ofNat 64 x.ccap) 1)) ∧
      (∀ k, x.visits = false → (s.tile c.tile).kernel = some k →
        let h := k.2
        let nfld := v % 8
        let top := if h.gang = 7 then h.nf else h.nf - 1 - h.gang
        let wd := (h.widths.drop (h.nf - nfld)).sum
        let p := 64 - h.widths.sum
        let refused := 2 ^ 8 ≤ v ∨ v / 8 % 8 ≠ 0 ∨ nfld = 0 ∨ top < nfld ∨ h.res = true ∨ (wd < 64 ∧ 2 ^ wd ≤ o0)
        (refused → raises (.regroup t)) ∧
        (∀ cs, ¬ refused → s.mayEnd c = true → s.moduleRelease c = true → regReady (s.core c.tile) c.strand x codeKsel c.seq c.step = true → s.carried c (v / 2 ^ 6 % 4) = some cs →
          ∃ wid : W64, exec (.regroup t) s = .next (((s.endRun c ⟨.regroup wid ((x.regAt codeKsel c.seq).toNat % 2 ^ 16), v / 2 ^ 6 % 4, cs, 0, (x.stream.idxOf c.seq c.slot + 1) % 4096⟩).commitMark c
              { use0 := true, access := true }).advance c) ∧
            ∀ j, j < 64 → wid.getLsbD j = if p ≤ j ∧ j < p + wd then o0.testBit (j - p) else x.wid.getLsbD j))) ∧
    (s.Issues c 9 (capNeed true false) t o →
      let kind := v / 2 ^ 16 % 16
      let ix := v % 2 ^ 13
      let qpri := v / 2 ^ 13 % 8
      let refused := 2 ^ 20 ≤ v ∨ 4 < kind ∨ (kind = 0 ∧ (s.ctx x.ctx).launchQs.length ≤ ix) ∨ (kind ≠ 0 ∧ kind ≠ 2 ∧ ix ≠ 0) ∨ (kind ≠ 1 ∧ qpri ≠ 0)
      let bs := s.readPieces c ((List.range 4).map fun g => (o0 / 64 * 64 + 16 * g, 16))
      let lq := (s.ctx x.ctx).launchQs.getD ix LaunchQ.reset
      let r := { Record.ofBytes bs with ctx := x.ctx }
      (refused → raises (.enq t)) ∧
      (¬ refused → kind = 2 → (s.ctx x.ctx).holds ix = false → exec (.enq t) s = .next (s.raiseHere c 9 (low64 o.t) 0)) ∧
      (¬ refused → (kind = 2 → (s.ctx x.ctx).holds ix = true) → s.moduleRelease c = true →
        (kind = 0 → (s.ctx x.ctx).st ≠ .destroyed → lq.pidx - lq.cidx < 2 ^ (s.ctx x.ctx).qcap → ∃ s', marks (.enq t) s' ∧
          (s'.ctx x.ctx).launchQs = (s.ctx x.ctx).launchQs.modify ix (fun q => { q with pidx := q.pidx + 1 }) ∧
          s'.mem = (s.ctxWrite x.ctx ((s.ctx x.ctx).launchBase ix + 64 * (lq.pidx % 2 ^ (s.ctx x.ctx).qcap)) bs).mem) ∧
        (kind = 0 → (s.ctx x.ctx).st ≠ .destroyed → 2 ^ (s.ctx x.ctx).qcap ≤ lq.pidx - lq.cidx → ∃ s', marks (.enq t) s' ∧ sat s' ∧ s'.mem = s.mem ∧
          (s'.ctx x.ctx).launchQs = (s.ctx x.ctx).launchQs.modify ix (fun q => { q with ovf := true, drops := min (q.drops + 1) 0xFFFFFF })) ∧
        (1 ≤ kind → ((s.scanRings x.ctx).ctx x.ctx).freeSlot = none → ∃ s', marks (.enq t) s' ∧ sat s' ∧ s'.ctxs = s.ctxs ∧ s'.mem = s.mem) ∧
        (∀ slot s1, kind = 1 → s.newRecord x.ctx 0 0 0 { r with prio := qpri } = some (slot, s1) → ((s.ctx x.ctx).kernel r.kslot).isSome = true → (s1.record x.ctx slot).prio = qpri →
          qpri < (s1.ctx x.ctx).ready.length → ∃ s', marks (.enq t) s' ∧ (s'.ctx x.ctx).ready.getD qpri [] = (s1.ctx x.ctx).ready.getD qpri [] ++ [slot]) ∧
        (∀ slot s1, kind = 2 → s.newRecord x.ctx 0 0 0 r = some (slot, s1) → ((s.ctx x.ctx).kernel r.kslot).isSome = true →
          ∃ s', marks (.enq t) s' ∧ SMap.get (s'.ctx x.ctx).tileQ [] ix = SMap.get (s1.ctx x.ctx).tileQ [] ix ++ [slot]) ∧
        (∀ slot s1, 3 ≤ kind → s.newRecord x.ctx 0 0 0 r = some (slot, s1) →
          let park := decide (kind = 4)
          (s1.ringFull x.ctx park = true ∨ ((s.ctx x.ctx).held.any fun h => h.park == park) = true → ∃ s', marks (.enq t) s' ∧ sat s' ∧ s'.ctxs = s.ctxs ∧ s'.mem = s.mem) ∧
          (s1.ringFull x.ctx park = false → ((s.ctx x.ctx).held.any fun h => h.park == park) = false → ∃ s', marks (.enq t) s' ∧
            s'.mem = (s1.putEntry x.ctx ⟨park, (s.ctx x.ctx).recVa slot, 0, 0xFFFF, []⟩).mem))))

/-- For every state. RECORD_ARRIVAL at a tile that holds a kernel: the strand is RESIDENT with the record's identifier, carried values,
kernel slot, index and priority, the kernel's widths and the extents it was sent with, its other registers at reset; while the tile
still loads, the record comes again a tick on, and a tile that neither holds nor loads a kernel begins its load. CODE_LOAD_DONE of a
segment of an installed kernel whose image reads: the tile holds the kernel, bundle i is 24 bytes of the code, and no load is under
way; a load that fails, or whose kernel has left its slot meanwhile, leaves the tile without a kernel. STRAND_RELEASE of an ended run
with nothing outstanding and no capsule: the strand is FREE with its registers at reset, and a run that ended by exit has freed its
record's pool slot. LAUNCH_COMPLETION of a launch with no generator, record or spawn entry left: the launch is gone, its context has
one more done, and its kernel one live launch less, INSTALLED after the last. -/
def Obligations.RunEventEffects : Prop :=
  ∀ (s : State),
    let o := s.ev
    let t := o.tile
    (∀ q, (s.tile t).stopped = false → SMap.lookup s.sends o.id = some q →
      (∀ k, (s.tile t).kernel = some k →
        let r := s.record q.ctx q.slot
        ∃ s', exec .recordArrival s = .next s' ∧ SMap.lookup s'.sends o.id = none ∧
          (let x := s'.strand q.tile q.strand;
            x.st = .resident ∧ x.wid = BitVec.ofNat 64 r.wid ∧ x.metaWord = BitVec.ofNat 64 r.head ∧ x.widths = k.2.widths ∧ x.ctx = q.ctx ∧ x.kslot = r.kslot ∧ x.prio = r.prio ∧ x.pins = q.pins ∧
            x.extents = q.extents ∧ x.extSlots = q.slots ∧ x.stream.fetchIdx = List.replicate 8 r.idx ∧ x.stream.slotSeq = List.replicate 8 0 ∧ x.keys = List.replicate 8 Key.empty ∧ x.depth = 0 ∧ x.causes = [] ∧
            (∀ j, j < 4 → SMap.get x.regs 0 (0x080 + j) = if j ≤ r.nc then BitVec.ofNat 1024 (r.c.getD j 0) else 0) ∧ SMap.get x.regs 0 codeKsel = BitVec.ofNat 1024 r.kslot ∧
            (∀ reg, reg < 0x080 → SMap.get x.regs 0 reg = 0)) ∧ s'.mem = s.mem) ∧
      (∀ l, (s.tile t).kernel = none → (s.tile t).loading = some l → exec .recordArrival s = .next (s.atTick (s.tick + 1) 0 .recordArrival o)) ∧
      (∀ h, (s.tile t).kernel = none → (s.tile t).loading = none → s.headerOf q.ctx q.slot = some h → ∃ s', exec .recordArrival s = .next s' ∧ (s'.tile t).loading = some (q.ctx, h) ∧
        s'.DueAfter s.tick .codeLoadDone o ∧ s'.Due (s.tick + 1) .recordArrival o)) ∧
    (∀ ctx h, (s.tile t).stopped = false → (s.tile t).loading = some (ctx, h) →
      let here : Bool := ((s.ctx ctx).kernel h.kslot).any fun k => decide (k.hdr = h)
      (∀ code image, here = true → s.imageRead (dieOf t) ctx h.codeAt .code 4 (24 * h.nbun) = .ok code → s.imageRead (dieOf t) ctx h.base .read 4 (0x1000 + 0x1000 * h.nslt) = .ok image →
        (∀ i, i < 2 → ((s.tile t).capSlots.getD i none).any (fun x => !x.ready) = false) →
        ∃ s', exec .codeLoadDone s = .next s' ∧ (s'.tile t).kernel = some (ctx, h) ∧ (s'.tile t).loading = none ∧ (s'.tile t).nbun = h.nbun ∧
          ∀ i, i < h.nbun → SMap.lookup (s'.tile t).code i = some (BitVec.ofNat 192 (leNat ((code.drop (24 * i)).take 24)))) ∧
      (∀ code, here = false ∨ s.imageRead (dieOf t) ctx h.codeAt .code 4 (24 * h.nbun) = .failed code → o.flag = false → SMap.lookup s.sends o.id = none →
        ∃ s', exec .codeLoadDone s = .next s' ∧ (s'.tile t).kernel = none ∧ (s'.tile t).loading = none ∧ (s'.tile t).nbun = 0)) ∧
    (let n := o.strand; let x := s.strand t n;
      s.releasable t n = true → x.capVisit = none → ∃ s', exec .strandRelease s = .next s' ∧ (s'.strand t n).st = .free ∧ (s'.strand t n).regs = Strand.reset.regs ∧ (s'.strand t n).ending = none ∧
        (s'.strand t n).pins = [] ∧ (∀ e, x.ending = some e → e.kind = .exit → SMap.lookup (s'.ctx x.ctx).pool ((x.recAddr - (s.ctx x.ctx).poolBase) / 64) = none)) ∧
    (∀ l, s.launch o.id = some l → l.gen = false → l.recs = 0 → (s.spawns.any fun e => decide (e.launch = o.id + 1)) = false →
      ∃ s', exec .launchCompletion s = .next s' ∧ SMap.lookup s'.launches o.id = none ∧ (s'.ctx l.ctx).done = (s.ctx l.ctx).done + 1 ∧
        ∀ k, (s.ctx l.ctx).kernel l.kslot = some k → l.counted = true → ∃ k', (s'.ctx l.ctx).kernel l.kslot = some k' ∧ k'.live = k.live - 1 ∧ (k.live ≤ 1 → k'.st = .installed))

/-- For every state. LAUNCH_DEQUEUE of an open queue with an entry: the queue moves on; an accepted entry opens a launch of the fields it
gives and counts at its kernel, a refused one goes to the fault ring with its code in a pool slot. RECORD_GENERATE of a plain launch a
strand may take: a record of its next identifier joins the ready queue, and the next identifier rises by the step within the range.
DISPATCH of a die whose 4 ticks are over: the first choice whose pages are stable is sent to its strand, which is taken, and the die's
next choice is 4 ticks off. GANG_DISPATCH of a waiting gang whose every member has a place on dies that may send no single record of a
higher priority: it is RESIDENT with its members' strands reserved and its barrier, a block of its home Mordant with as many expected
arrivals as members. AGING_PROMOTION: a record that has waited for the interval moves to the tail of the queue one priority higher.
FAULT_RING_RECHECK: a held entry is written once its ring has space and is looked at again 1,024 ticks on otherwise. -/
def Obligations.DispatcherEventEffects : Prop :=
  ∀ (s : State),
    let o := s.ev
    (let c := s.ctx o.node
     let lq := c.launchQs.getD o.arg LaunchQ.reset
     let bs := (s.ctxRead o.node (c.launchBase o.arg + 64 * (lq.cidx % 2 ^ c.qcap)) 64).getD (List.replicate 64 0)
     let w := wordAt bs 0
     c.paused = false → lq.fw = false → lq.cidx < lq.pidx → o.arg < c.launchQs.length →
      (∀ k, s.launchRefusal o.node bs = none → c.kernel (w % 2 ^ 16) = some k →
        let first := wordAt bs 1 / k.hdr.inc * k.hdr.inc
        let last := wordAt bs 2 / k.hdr.inc * k.hdr.inc
        ∃ s' l, exec .launchDequeue s = .next s' ∧ s'.launch s.ids = some l ∧ l.ctx = o.node ∧ l.kslot = w % 2 ^ 16 ∧ l.prio = (if w.testBit 60 then k.hdr.prio else w / 2 ^ 57 % 8) ∧
          l.nc = w / 2 ^ 55 % 4 ∧ l.entry = w / 2 ^ 16 % 2 ^ 12 ∧ l.last = last ∧ l.inc = k.hdr.inc ∧ l.next = (if first ≤ last then some first else none) ∧
          (s'.ctx o.node).launchQs = c.launchQs.modify o.arg (fun q => { q with cidx := q.cidx + 1 }) ∧
          (first ≤ last → ∃ k', (s'.ctx o.node).kernel (w % 2 ^ 16) = some k' ∧ k'.live = k.live + 1)) ∧
      (∀ code slot s1, s.launchRefusal o.node bs = some code → s.takeSlot o.node 0 0 = some (slot, s1) →
        ∃ s', exec .launchDequeue s = .next s' ∧ (s'.ctx o.node).launchQs = c.launchQs.modify o.arg (fun q => { q with cidx := q.cidx + 1 }) ∧ s'.launches = s.launches ∧
          (SMap.lookup (s'.ctx o.node).pool slot).isSome = true ∧
          s'.mem = ((s1.ctxWrite o.node ((s1.ctx o.node).recVa slot) bs).ringEntry o.node ⟨false, (s1.ctx o.node).recVa slot, 1, code, []⟩).mem)) ∧
    (∀ l k w slot s2, o.id ≠ 0 → s.launch o.id = some l → (s.ctx l.ctx).paused = false → l.gen = true → (s.ctx l.ctx).kernel l.kslot = some k → k.hdr.res = false → k.hdr.isGang = false →
      l.next = some w → (s.ctx l.ctx).ahead o.id = false → (s.spread o.id k.hdr w).strandFor l.ctx (o.id + 1) k.hdr w l.prio = true →
      (s.spread o.id k.hdr w).newRecord l.ctx (o.id + 1) 0 o.id (l.record w l.entry) = some (slot, s2) →
      let p := (s2.record l.ctx slot).prio
      p < (s2.ctx l.ctx).ready.length → (s2.launch o.id).isSome = true →
      ∃ s' l', exec .recordGenerate s = .next s' ∧ (s'.ctx l.ctx).ready.getD p [] = (s2.ctx l.ctx).ready.getD p [] ++ [slot] ∧ s'.launch o.id = some l' ∧
        l'.next = if w + l.inc ≤ l.last ∧ w + l.inc < 2 ^ 64 then some (w + l.inc) else none) ∧
    (let s1 := s.dropOrphans
     SMap.get s.dispNext 0 o.node ≤ s.tick →
      (s1.cands o.node = [] → exec .dispatch s = .next s1) ∧
      (∀ d rest es xs ps, s1.cands o.node = d :: rest → s1.pinPlan d.ctx o.node d.hdr (s1.record d.ctx d.slot).xl = .ok es xs ps →
        ∃ s' k, exec .dispatch s = .next s' ∧ SMap.lookup s'.sends k = some ⟨d.ctx, d.slot, d.tile, d.strand, es, xs, ps.map Prod.fst⟩ ∧ (s'.strand d.tile d.strand).sent = true ∧
          SMap.get s'.dispNext 0 o.node = s.tick + 4 ∧ s'.Sends vnConfig (edgeTile (dieOf d.tile)) d.tile .recordArrival (opTileId d.tile k))) ∧
    (∀ g bar pins q rest, SMap.lookup s.gangs o.id = some g → g.st = .waiting → (s.ctx g.ctx).paused = false → s.gangPlan o.id g = q :: rest →
      (∀ p ∈ q :: rest, (s.readyAbove (dieOf p.2.1) g.prio).any (fun d => s.sendable (dieOf p.2.1) d) = false) →
      s.freeBarrier (dieOf q.2.1) = some bar → s.planPins g.ctx (q :: rest) = .ok pins → (∀ p ∈ pins, ∃ es xs ps, p = .ok es xs ps) →
      ∃ s', exec .gangDispatch s = .next s' ∧ SMap.lookup s'.gangs o.id = some { g with st := .resident, bar := bar } ∧ bar ∈ s'.barBusy ∧ (∀ p ∈ q :: rest, (s'.strand p.2.1 p.2.2).rsv = o.id + 1) ∧
        (∀ bs, (s.physWrite bar (newBarrier g.recs.length (if (q :: rest).all fun q' => decide (dieOf q'.2.1 = dieOf q.2.1) then 1 else 2)) false).1.barBytes bar = some bs →
          (Bar.ofBytes bs).bst = 1 ∧ (Bar.ofBytes bs).e = g.recs.length % 2 ^ 20 ∧ (Bar.ofBytes bs).a = 0 ∧ (Bar.ofBytes bs).phase = 0)) ∧
    (let r := s.record o.node o.id
     let iv := 2 ^ (s.ctx o.node).aging / 1024
     let s1 := (s.readyRemove o.node r.prio o.id).writeRecord o.node o.id { r with prio := r.prio + 1, age := r.age + 1, etk := s.etk, link := 0 }
     ((s.ctx o.node).ready.getD r.prio []).contains o.id = true → r.age < 2 → r.prio < 7 → iv ≤ (s.etk + 2 ^ 23 - r.etk) % 2 ^ 23 → (s.ctx o.node).st = .running →
     (s.ctx o.node).ready.length = 8 → (s1.record o.node o.id).prio = r.prio + 1 →
      ∃ s', exec .agingPromotion s = .next s' ∧ (s'.ctx o.node).ready.getD r.prio [] = ((s.ctx o.node).ready.getD r.prio []).erase o.id ∧
        (s'.ctx o.node).ready.getD (r.prio + 1) [] = (s.ctx o.node).ready.getD (r.prio + 1) [] ++ [o.id]) ∧
    (∀ e, (s.ctx o.node).held = [e] →
      let s1 := s.scanRings o.node
      (s1.ringFull o.node e.park = false → ∃ s', exec .faultRingRecheck s = .next s' ∧ (s'.ctx o.node).held = [] ∧ s'.mem = (s1.putEntry o.node e).mem) ∧
      (s1.ringFull o.node e.park = true → ∃ s', exec .faultRingRecheck s = .next s' ∧ (s'.ctx o.node).held = [e] ∧ s'.mem = s.mem ∧ s'.Due (s.tick + 1024) .faultRingRecheck o))

/-- For every state in which the trigger issues. capnew: a fresh head at buf with the tile's next identifier, NSTP and CUR 0, FCNT 1 and
the descriptor and kernel slot given is stored, buf is current and emerges 2 steps on. On the current capsule's head: capins moves
stops p to NSTP - 1 up, stores o1:o0 as stop p and adds 1 to NSTP; capdel moves the later stops down, zeroes the last and subtracts 1;
capset stores the selector's field when it accepts the value; caprd's field emerges 2 steps on. capfork stores FCNT in the original
and a copy with its FIDX and a new identifier at its buffer, which becomes current. capsend of a sound head with its module release
done sends the capsule, marked with the context, to the stop CUR: over the capsule network to a VISIT, MEET or RETURN, into memory for
a STORE. capnxt and capfin of the arrival head end the visit once nothing is outstanding. With no current capsule, a bad position,
selector, value, address or head: cause 2 with DETAIL 0x0601, 0x0602, 0x0604; of the arrival head 0x0603; off a visit 0x0600; another
head in a visit cause 14; nothing issues. -/
def Obligations.CapsuleTriggerEffects : Prop :=
  ∀ (s : State) (c : Issuer) (t : Trig) (o : Opnds),
    let v := (low64 o.t).toNat
    let w := (low64 o.o0).toNat
    let x := s.strand c.tile c.strand
    let bs := s.capRead c x.ccap 320
    let n := capStops bs
    let f := s.oweBanks c.tile false (granulesAt x.ccap 320)
    let marks (i : Instr) (s' : State) : Prop := exec i s = .next ((s'.commitMark c { commit := true }).advance c)
    let raises (i : Instr) (detail : Nat) : Prop := exec i s = .next (s.raiseHere c 2 (BitVec.ofNat 64 (x.stream.idxOf c.seq c.slot)) (BitVec.ofNat 16 detail))
    let refuses (i : Instr) (detail : Nat) : Prop := exec i s = .next (f.raiseHere c 2 (BitVec.ofNat 64 (x.stream.idxOf c.seq c.slot)) (BitVec.ofNat 16 detail))
    (s.Issues c 9 { capNeed true false with result := some 9 } t o →
      (v % 64 ≠ 0 ∨ descriptorOk w = false ∨ 2 ^ 19 < v + 256 + w % 2 ^ 15 → raises (.capnew t) 0x0604) ∧
      (v % 64 = 0 → descriptorOk w = true → v + 256 + w % 2 ^ 15 ≤ 2 ^ 19 → regReady (s.core c.tile) c.strand x codeKsel c.seq c.step = true →
        ∃ (h : List Byte) (s' : State), h.length = 256 ∧ capId h = c.tile % 2 ^ 13 * 2 ^ 19 + (s.tile c.tile).capCount % 2 ^ 19 ∧ capStops h = 0 ∧ capCur h = 0 ∧ capPrio h = 0 ∧ capFpol h = 0 ∧ wordAt h 1 = w ∧
          wordAt h 2 = 0x3F80_0000_3F80_0000 ∧ wordAt h 3 = c.tile % 2 ^ 33 * 2 ^ 31 ∧ capTag h = 0 ∧ capFork h = 0 ∧ capForks h = 1 ∧ capKernel h = (x.regAt codeKsel c.seq).toNat % 2 ^ 16 ∧ wordAt h 6 = 0 ∧ wordAt h 7 = 0 ∧
          marks (.capnew t) (s'.result c 9 2 t.w (BitVec.ofNat 1024 v) 0 0) ∧ (s'.strand c.tile c.strand).stores = ((s.capWrite c [(v, h)]).strand c.tile c.strand).stores ∧
          s'.mem = (s.capWrite c [(v, h)]).mem ∧ (s'.strand c.tile c.strand).ccap = v ∧ (s'.tile c.tile).capCount = ((s.tile c.tile).capCount + 1) % 2 ^ 19)) ∧
    (s.Issues c 9 (capNeed true true) t o → (x.ccap = 0 → raises (.capins t) 0x0601) ∧
      (x.ccap ≠ 0 → v < x.lowStop bs ∨ n < v ∨ 12 ≤ n → refuses (.capins t) 0x0602) ∧
      (x.ccap ≠ 0 → x.lowStop bs ≤ v → v ≤ n → n < 12 → marks (.capins t) ((f.capWrite c [(x.ccap + 64 + 16 * v,
        leBytes 8 w ++ leBytes 8 (low64 o.o1).toNat ++ (bs.drop (64 + 16 * v)).take (16 * (n - v)))]).capWrite c [(x.ccap, leBytes 8 (wordAt bs 0 + 2 ^ 11))]))) ∧
    (s.Issues c 9 (capNeed false false) t o → (x.ccap = 0 → raises (.capdel t) 0x0601) ∧
      (x.ccap ≠ 0 → v < x.lowStop bs ∨ n ≤ v → refuses (.capdel t) 0x0602) ∧
      (x.ccap ≠ 0 → x.lowStop bs ≤ v → v < n → marks (.capdel t) ((f.capWrite c [(x.ccap + 64 + 16 * v,
        (bs.drop (80 + 16 * v)).take (16 * (n - 1 - v)) ++ List.replicate 16 0)]).capWrite c [(x.ccap, leBytes 8 (wordAt bs 0 - 2 ^ 11))])) ∧
      (let cap := s.capsuleAt c (v / 64 * 64);
        (headOk cap v = false → raises (.capsend t) 0x0604) ∧ (headOk cap v = true → some v = x.arrivalHead → raises (.capsend t) 0x0603) ∧
        (headOk cap v = true → some v ≠ x.arrivalHead → s.moduleRelease c = true → s.capsulesQueued c.tile < 16 → (s.ctx x.ctx).st ≠ .destroyed →
          let sent := setHead cap 0 20 12 x.ctx
          let i := capCur cap
          let op : Operand := { Operand.zero with id := x.ctx, arg := i, bytes := setHead sent 0 20 12 x.ctx }
          (stopRefusal (s.ctx x.ctx) (setHead sent 0 20 12 x.ctx) i = none →
            (stopKind cap i = 0 → ∃ s', marks (.capsend t) s' ∧ s'.Sends vnCapsule c.tile (stopDest cap i) .capsuleArrival { op with tile := stopDest cap i }) ∧
            (stopKind cap i = 1 → let d := stopDest cap i / 1024; ∃ s', marks (.capsend t) s' ∧ s'.Sends vnCapsule c.tile (edgeTile d) .meetArrival { op with tile := edgeTile d, node := d }) ∧
            (stopKind cap i = 2 → ∃ s', marks (.capsend t) s' ∧ s'.DueAfter s.tick .hbmWrite
              { Operand.zero with tile := c.tile, id := x.ctx, arg := 5, word := BitVec.ofNat 64 ((capAux cap + stopArg cap i) % 2 ^ 52), bytes := op.bytes }) ∧
            (stopKind cap i = 3 → ∃ s', marks (.capsend t) s' ∧ s'.Sends vnCapsule c.tile (stopDest cap i) .capsuleReturnDelivery { op with tile := stopDest cap i })) ∧
          (∀ code, stopRefusal (s.ctx x.ctx) (setHead sent 0 20 12 x.ctx) i = some code → ∃ s', marks (.capsend t) s' ∧
            s'.mem = ((s.capWrite c [(v, leBytes 8 (wordAt sent 0))]).ringEntry x.ctx ⟨false, 0, 2, code, spillHead (setHead sent 0 20 12 x.ctx) code i⟩).mem)))) ∧
    (s.Issues c 9 (capNeed true false) t o → (x.ccap = 0 → raises (.capset t) 0x0601 ∧ raises (.capfork t) 0x0601) ∧
      (∀ k lo wd, x.ccap ≠ 0 → capField w = some (k, lo, wd) → capAccepts bs (decide (some x.ccap = x.arrivalHead)) w v = true →
        let m := if 16 ≤ w then 32 else wd
        ∃ word, marks (.capset t) (f.capWrite c [(x.ccap + 8 * k, leBytes 8 word)]) ∧ word < 2 ^ 64 ∧ ∀ j, j < 64 → word.testBit j = if lo ≤ j ∧ j < lo + m then v.testBit (j - lo) else (wordAt bs k).testBit j) ∧
      (x.ccap ≠ 0 → capField w = none ∨ capAccepts bs (decide (some x.ccap = x.arrivalHead)) w v = false → refuses (.capset t) 0x0602) ∧
      (let fi := w / 2 ^ 40 % 2 ^ 8; let nfc := w / 2 ^ 32 % 2 ^ 8; let buf := w % 2 ^ 19; let cap := s.capsuleAt c v;
       let bad := 2 ^ 48 ≤ w ∨ w / 2 ^ 19 % 2 ^ 13 ≠ 0 ∨ nfc = 0 ∨ 16 < nfc ∨ nfc ≤ fi;
        (x.ccap ≠ 0 → bad → raises (.capfork t) 0x0602) ∧ (x.ccap ≠ 0 → ¬ bad → v % 64 = 0 → nfc ≤ capFork cap → raises (.capfork t) 0x0602) ∧
        (x.ccap ≠ 0 → ¬ bad → v % 64 = 0 → capFork cap < nfc → buf % 64 ≠ 0 ∨ 2 ^ 19 < buf + 256 + capLen cap → raises (.capfork t) 0x0604) ∧
        (x.ccap ≠ 0 → ¬ bad → v % 64 = 0 → capFork cap < nfc → buf % 64 = 0 → buf + 256 + capLen cap ≤ 2 ^ 19 → v + 256 + capLen cap ≤ 2 ^ 19 →
          ∃ s' word copy, marks (.capfork t) s' ∧ copy.length = cap.length ∧ capForks copy = nfc ∧ capFork copy = fi ∧ capId copy = (c.tile * 2 ^ 19 + (s.tile c.tile).capCount % 2 ^ 19) % 2 ^ 32 ∧
            copy.drop 40 = cap.drop 40 ∧ word / 2 ^ 16 % 2 ^ 8 = nfc ∧ (s'.strand c.tile c.strand).ccap = buf ∧
            (s'.strand c.tile c.strand).stores = (((s.capWrite c [(v + 32, leBytes 8 word)]).capWrite c [(buf, copy)]).strand c.tile c.strand).stores ∧
            s'.mem = ((s.capWrite c [(v + 32, leBytes 8 word)]).capWrite c [(buf, copy)]).mem))) ∧
    (s.Issues c 9 { access := true, loads := true, result := some 9 } t o → (x.ccap = 0 → raises (.caprd t) 0x0601) ∧
      (∀ k lo wd, x.ccap ≠ 0 → capField v = some (k, lo, wd) → exec (.caprd t) s = .next ((f.result c 9 2 t.w (BitVec.ofNat 1024 (wordAt bs k / 2 ^ lo % 2 ^ wd)) 0 0).advance c)) ∧
      (x.ccap ≠ 0 → capField v = none → refuses (.caprd t) 0x0602)) ∧
    (s.Issues c 9 { capNeed false false with commit := false } t o →
      (x.visits = false → raises (.capnxt t) 0x0600 ∧ raises (.capfin t) 0x0600) ∧
      (x.visits = true → some v ≠ x.arrivalHead → exec (.capnxt t) s = .next (s.raiseHere c 14 (BitVec.ofNat 64 x.ccap) 2) ∧ exec (.capfin t) s = .next (s.raiseHere c 14 (BitVec.ofNat 64 x.ccap) 2)) ∧
      (x.visits = true → some v = x.arrivalHead → headOk (s.capRead c v 256) v = false → raises (.capnxt t) 0x0604) ∧
      (x.visits = true → some v = x.arrivalHead → s.mayEnd c = true → s.moduleRelease c = true → s.visitBusy c.tile = false →
        (headOk (s.capRead c v 256) v = true → exec (.capnxt t) s = .next ((s.endRun c ⟨.capNext (low64 o.t), 0, [], 0, 0⟩).advance c)) ∧
        exec (.capfin t) s = .next ((s.endRun c ⟨.capFinish (low64 o.t), 0, [], 0, 0⟩).advance c)))

/-- For every state. CAPSULE_ARRIVAL at a tile with a free slot whose kernel and handler suit the capsule: its head and data stand in the
lowest free slot, which is ready, and a visit may begin in the same tick; with both slots in use it waits behind the others.
CAPSULE_VISIT_START with strand 7 FREE and the oldest capsule ready: strand 7 is RESIDENT at the handler's bundle with the slot's
address in s0, words 0, 1 and 2 of the head, the stop's ARG, SLATE and HANDLER and AUX0 and AUX1 in s1 to s8, ksel the capsule's, and
the slot's head current. MEET_ARRIVAL: a fork that fits joins its entry; the last one takes the entry away and the combined capsule
goes on to the stop after its MEET; a misfit is diverted with code 6. CAPSULE_RETURN_DELIVERY: the bytes stand at the ARG's address in
the tile's scratchpad and the credit of its granules to the ARG's strand and key is due the tick after. CAPSULE_PARK_TIMEOUT: a
capsule that has stood 65,536 ticks at the head of one router input, or of a tile's wait, leaves for the park ring with code 0xFFFD,
one before a stopped tile with 0xFFFC. -/
def Obligations.CapsuleEventEffects : Prop :=
  ∀ (s : State),
    let o := s.ev
    let t := o.tile
    ((s.tile t).stopped = false → (s.ctx (capCtx o.bytes)).st ≠ .destroyed → o.flag = false → (s.tile t).capWait = [] →
      (∀ slot, (s.tile t).capSlots.findIdx? (fun q => q.isNone) = some slot →
        let m := memWrite s.mem (tileBase t + arrivalBase slot) (o.bytes.take 256 ++ capData o.bytes)
        let bs := (s.setMem m).slotCapsule t slot
        ∀ k, SMap.lookup (s.ctx (capCtx bs)).kernels (capKernel bs) = some k → (∃ h, (s.tile t).kernel = some (capCtx bs, h) ∧ h.kslot = k.hdr.kslot) → k.hdr.caps = true →
          ((s.tile t).handler (stopHandler bs (capCur bs))).isSome = true →
          ∃ s', exec .capsuleArrival s = .next s' ∧ s'.mem = m ∧ (s'.tile t).capSlots = (s.tile t).capSlots.set slot (some ⟨(s.tile t).capSeq, false, true⟩) ∧ s'.Due s.tick .capsuleVisitStart (opTile t)) ∧
      ((s.tile t).capSlots.findIdx? (fun q => q.isNone) = none → ∃ s' w, exec .capsuleArrival s = .next s' ∧ (s'.tile t).capWait = [w] ∧ w.bytes = o.bytes ∧ s'.mem = s.mem ∧
        ∃ w', w'.arg = 3 ∧ w'.tile = t ∧ s'.Due (s.tick + 65536) .capsuleParkTimeout w')) ∧
    (∀ slot h idx, (s.tile t).stopped = false → (s.strand t 7).st = .free → (s.strand t 7).sent = false → (s.tile t).oldestArrived = some slot → ((s.tile t).capSlots.getD slot none).any CapSlot.ready = true →
      let bs := s.slotCapsule t slot
      let i := capCur bs
      (s.tile t).kernel = some (capCtx bs, h) → h.kslot = capKernel bs → (s.tile t).handler (stopHandler bs i) = some idx →
      ∃ s', exec .capsuleVisitStart s = .next s' ∧ (((s.tile t).capSlots.getD (1 - slot) none).any (fun z => !z.ready && !z.visiting) = false → s'.mem = s.mem) ∧ (let x := s'.strand t 7; x.st = .resident ∧ x.capVisit = some slot ∧ x.ccap = 0x7_8000 + slot * 0x4000 ∧ x.ctx = capCtx bs ∧
        x.stream.fetchIdx = List.replicate 8 idx ∧ x.wid = BitVec.ofNat 64 (capId bs) ∧
        (∀ j, j < 9 → SMap.get x.regs 0 (0x080 + j) = BitVec.ofNat 1024 ([0x7_8000 + slot * 0x4000, wordAt bs 0, wordAt bs 1, wordAt bs 2, stopArg bs i, stopSlate bs i, stopHandler bs i, wordAt bs 6, wordAt bs 7].getD j 0)) ∧
        SMap.get x.regs 0 codeKsel = BitVec.ofNat 1024 (capKernel bs)) ∧ ∀ q, (s.tile t).capSlots[slot]? = some (some q) → (s'.tile t).capSlots[slot]? = some (some { q with visiting := true })) ∧
    (let bs := o.bytes
     let ctx := capCtx bs
     let mine (m : Meet) : Bool := decide (m.die = o.node) && decide (m.ctx = ctx) && decide (m.mtag = capTag bs)
     (s.ctx ctx).st ≠ .destroyed → o.flag = false →
      (meetFits bs (s.meets.find? mine) = false → ∃ s', exec .meetArrival s = .next s' ∧ s'.meets = s.meets ∧ s'.mem = ((s.tallyDivert (edgeTile o.node) true).ringEntry ctx ⟨false, 0, 2, 6, spillHead bs 6 (capCur bs)⟩).mem) ∧
      (∀ g w, meetFormat (capFmt bs) = some (g, w) → meetFits bs (s.meets.find? mine) = true →
        let old := (s.meets.find? mine).getD ⟨o.node, ctx, capTag bs, capForks bs, none, []⟩
        let m : Meet := { old with fcnt := capForks bs, n := some (capLen bs / w), forks := old.forks ++ [⟨capFork bs, bs.take 256, capData bs, none⟩] }
        (m.forks.length < capForks bs → exec .meetArrival s = .next { s with meets := m :: s.meets.filter fun q => !mine q }) ∧
        (capForks bs ≤ m.forks.length → ∃ s', exec .meetArrival s = .next s' ∧ s'.meets = s.meets.filter (fun q => !mine q) ∧
          (let out := setHead (m.combine (capForks bs)) 0 7 4 (capCur (m.combine (capForks bs)) + 1); let sent := setHead out 0 20 12 ctx;
            stopRefusal (s.ctx ctx) sent (capCur sent) = none → stopKind sent (capCur sent) = 0 →
            ((s.tile (edgeTile o.node)).stopped = false ∨ (s.ctx ctx).holds (edgeTile o.node) = false → s'.Sends vnCapsule (edgeTile o.node) (stopDest sent (capCur sent)) .capsuleArrival { Operand.zero with tile := stopDest sent (capCur sent), id := ctx, arg := capCur sent, bytes := sent }) ∧
            ((s.tile (edgeTile o.node)).stopped = true → (s.ctx ctx).holds (edgeTile o.node) = true →
              s' = ({ s with meets := s.meets.filter fun q => !mine q } : State).parkCapsule (edgeTile o.node) sent 0xFFFC))))) ∧
    (let arg := stopArg o.bytes (capCur o.bytes)
     let data := returnBytes o.bytes (capCur o.bytes)
     ∃ s', exec .capsuleReturnDelivery s = .next s' ∧ s'.mem = memWrite s.mem (tileBase t + arg % 2 ^ 19) data ∧
       s'.Due (s.tick + 1) .keyCredit { Operand.zero with tile := t, strand := arg / 2 ^ 27 % 8, node := arg / 2 ^ 24 % 8, id := t * 8 + 4, arg := (data.length + 15) / 16 }) ∧
    (∀ p, SMap.lookup s.pkts o.id = some p →
      let parks (code : Nat) : Prop := ∃ s', exec .capsuleParkTimeout s = .next s' ∧ SMap.lookup s'.pkts o.id = none ∧ s'.mem = ((((s.dropPacket o.id p).burstDropped p).tallyDivert p.at_ false).ringEntry (capCtx p.op.bytes) ⟨true, 0, 2, code, spillHead p.op.bytes code (capCur p.op.bytes)⟩).mem
      (o.arg = 1 → p.headAt = some o.word.toNat → p.queued = true → p.carrier = false → p.sent = 0 → (s.tile p.at_).stopped = false → parks 0xFFFD) ∧ (o.arg = 2 → p.frozenAhead s = true → parks 0xFFFC)) ∧
    (∀ w rest, o.arg = 3 → (s.tile t).capWait = w :: rest → w.strand = o.id → (s.tile t).stopped = false → ∃ s', exec .capsuleParkTimeout s = .next s' ∧ (s'.tile t).capWait = rest ∧
      s'.mem = ((s.tallyDivert t false).ringEntry (capCtx w.bytes) ⟨true, 0, 2, 0xFFFD, spillHead w.bytes 0xFFFD (capCur w.bytes)⟩).mem)

/-- For every state in which the trigger issues. push and pusha with a live slate, an exit credit on every lane, a token at every entry
lane and room after a slow push: an entry of the row, mode, active plane and scales with the tokens' elements enters, every lane gives
its token and a credit goes. drain and aclr likewise enter their row without tokens. shift only counts a beat. loadw with enough
tokens at the north port: row t modulo 32 of the retired plane takes its 32 weights and no other row changes; loadm: the row's index
registers take 2 or 3 bits a column. swap: the retired plane is active for later beats. amode, scala and scalw set the mode, the
override and the retired plane's scale. A reserved bit, no live slate, or a mode whose latency would change with entries inside raise
cause 2, and nothing issues. -/
def Obligations.ArrayTriggerEffects : Prop :=
  ∀ (s : State) (c : Issuer) (t : Trig) (o : Opnds),
    let v := (low64 o.t).toNat
    let a := s.arr c.tile
    let k := s.collar c.tile
    let marks (i : Instr) (s' : State) : Prop := exec i s = .next ((s'.commitMark c { commit := true }).advance c)
    let raises (i : Instr) : Prop := exec i s = .next (s.raiseHere c 2 (BitVec.ofNat 64 ((s.strand c.tile c.strand).stream.idxOf c.seq c.slot)) 0)
    let entry (kind : ArrKind) (row : Nat) (m : BitVec 3) (e : ArrEntry) : Prop := e.step = c.step ∧ e.kind = kind ∧ e.row = row ∧ e.marks = m ∧ e.mode = a.mode ∧ e.plane = a.turn ∧ e.strand = c.strand ∧
      e.h = (if a.mode = 5 ∨ a.mode = 6 then 2 else 1) ∧ e.sb = a.scales.getD a.turn 0 ∧ e.sums = List.replicate 32 0 ∧ e.nans = 0
    let entered (s' : State) (e : ArrEntry) : Prop := (s'.arr c.tile).inside = a.inside ++ [e] ∧ (s'.arr c.tile).credits = a.credits.map (· - 1) ∧ (s'.arr c.tile).weights = a.weights ∧ s'.mem = s.mem
    let arrOnly (i : Instr) (a' : Arr) : Prop := ∃ s', marks i s' ∧ s'.arr c.tile = a' ∧ s'.mem = s.mem ∧ s'.collar c.tile = k
    let old := 1 - a.turn
    (s.Issues c 14 (mtxNeed false) t o →
      (1024 ≤ v → raises (.push t) ∧ raises (.pusha t) ∧ raises (.aclr t)) ∧ (k.live = false → raises (.push t) ∧ raises (.pusha t) ∧ raises (.drain t) ∧ raises (.aclr t)) ∧
      (v < 1024 → k.live = true → a.hasCredit = true → s.tooClose c = false → k.lanes.any List.isEmpty = false →
        let toks := k.lanes.map fun l => l.headD (Tok.mk 0 false false false 0 0 0 0 0 false false)
        let pushed (i : Instr) (kind : ArrKind) : Prop := ∃ s' e, marks i s' ∧ entry kind v 0 e ∧ entered s' e ∧ (s'.collar c.tile).lanes = k.lanes.map (fun l => l.drop 1) ∧
          e.sa = (if a.ovEn then a.ovVal else (toks.map Tok.scl).headD 0) ∧ e.xs = pushXs a.mode toks
        pushed (.push t) .push ∧ pushed (.pusha t) .pusha) ∧
      (2 ^ 19 ≤ v ∨ v / 2 ^ 10 % 2 ^ 6 ≠ 0 → raises (.drain t)) ∧
      (v < 2 ^ 19 → v / 2 ^ 10 % 2 ^ 6 = 0 → k.live = true → a.hasCredit = true → ∃ s' e, marks (.drain t) s' ∧ entry .drain (v % 2 ^ 10) (BitVec.ofNat 3 (v / 2 ^ 16)) e ∧ entered s' e ∧ s'.collar c.tile = k) ∧
      (v < 1024 → k.live = true → a.hasCredit = true → ∃ s' e, marks (.aclr t) s' ∧ entry .aclr v 0 e ∧ entered s' e ∧ s'.collar c.tile = k) ∧
      arrOnly (.shift t) a ∧ arrOnly (.swap t) { a with turn := old, swaps := a.swaps ++ [(c.step, if a.mode = 5 ∨ a.mode = 6 then 2 else 1)] } ∧
      (let n := if a.mode = 5 ∨ a.mode = 6 then 4 else 2; let bits := if a.mode = 5 ∨ a.mode = 6 then 16 else 8;
        n ≤ k.wport.length → old < a.weights.length → ∃ s', marks (.loadw t) s' ∧ (s'.collar c.tile).wport = k.wport.drop n ∧ s'.mem = s.mem ∧
          (∀ r col, r < 32 → col < 32 → (s'.arr c.tile).weight old r col = if r = v % 32 then
            (((k.wport.getD (bits * col / 128) (Tok.mk 0 false false false 0 0 0 0 0 false false)).data.extractLsb' (bits * col % 128) bits).toNat) else a.weight old r col) ∧
          (∀ r col, (s'.arr c.tile).weight a.turn r col = if a.turn = old then (s'.arr c.tile).weight old r col else a.weight a.turn r col)) ∧
      (7 ≤ v → raises (.amode t)) ∧ (v < 7 → modeH v ≠ modeH a.mode → a.busyFor c.step = true → raises (.amode t)) ∧
      (v < 7 → modeH v = modeH a.mode ∨ a.busyFor c.step = false → arrOnly (.amode t) { a with mode := v }) ∧
      (2 ^ 33 ≤ v → raises (.scala t)) ∧ (v < 2 ^ 33 → arrOnly (.scala t) { a with ovEn := v.testBit 32, ovVal := BitVec.ofNat 32 v }) ∧
      arrOnly (.scalw t) { a with scales := a.scales.set old (o.t.setWidth 32) }) ∧
    (s.Issues c 14 (mtxNeed true) t o → old < a.meta_.length → ∃ s', marks (.loadm t) s' ∧ s'.mem = s.mem ∧ (s'.arr c.tile).weights = a.weights ∧
      ∀ r col, r < 32 → col < 32 → (s'.arr c.tile).index old r col = if r = (low64 o.o0).toNat % 32 then
        (if a.mode = 2 then (o.t.extractLsb' (512 + 3 * col) 3).toNat else (o.t.extractLsb' (2 * col) 2).toNat) else a.index old r col)

/-- For every state. SWAP_AT_PE turns the active plane of its PE alone. At an exit lane's PROMOTE that is active with its plane whole,
whose oldest entry is e: PROMOTE_ENTRY of a push replaces, of a pusha adds to, the four accumulators of e's row by the columns' sums,
other rows staying as they are, and an exit credit of the lane returns. DRAIN_AT_PROMOTE emits the row's four accumulators as an FP32
token with the drain's head and tail marks towards the next node, one step on at the earliest, and with its clear mark sets the row to
0. ACLR_AT_PROMOTE sets the row to 0 and returns the credit. At a PROMOTE that is off the entry is discarded and its credit returns.
In every case the entry is gone. -/
def Obligations.ArrayEventEffects : Prop :=
  ∀ (s : State),
    let o := s.ev
    let t := o.tile
    let n := o.node
    let nd := s.node t n
    let lane := (n - 12) / 4
    let credit (s' : State) : Prop := (s'.arr t).credits = (s.arr t).credits.modify lane (· + 1)
    (∃ s', exec .swapAtPe s = .next s' ∧ (∀ i, i < 1024 → (s'.arr t).pes.getLsbD i = if i = 32 * o.node + o.arg then !(s.arr t).pes.getLsbD i else (s.arr t).pes.getLsbD i) ∧
      (s'.arr t).weights = (s.arr t).weights ∧ (s'.arr t).turn = (s.arr t).turn ∧ s'.mem = s.mem) ∧
    (∀ e rest, nd.entries = e :: rest → nd.st = .off →
      let gone (i : Instr) : Prop := ∃ s', exec i s = .next s' ∧ (s'.node t n).entries = rest ∧ (s'.node t n).store = nd.store ∧ credit s'
      (e.kind = .push ∨ e.kind = .pusha → gone .promoteEntry) ∧ (e.kind = .drain → gone .drainAtPromote) ∧ (e.kind = .aclr → gone .aclrAtPromote)) ∧
    (∀ e rest, nd.entries = e :: rest → nd.st = .active ∨ nd.st = .aligning → nd.active.bad = false →
      (e.kind = .push ∨ e.kind = .pusha → ∃ s', exec .promoteEntry s = .next s' ∧ (s'.node t n).entries = rest ∧ credit s' ∧
        (∀ m, m < 4 → SMap.get (s'.node t n).store 0 (4 * e.row + m) = (accUpdate e (4 * lane + m) (if e.kind = .push then 0 else SMap.get nd.store 0 (4 * e.row + m))).1) ∧
        (∀ i, i / 4 ≠ e.row → SMap.get (s'.node t n).store 0 i = SMap.get nd.store 0 i)) ∧
      (e.kind = .drain → ∃ s' x ready, exec .drainAtPromote s = .next s' ∧ (s'.node t n).entries = rest ∧ (s'.node t n).out = nd.out ++ [⟨ready, x, [laneNext], true⟩] ∧ (s.core t).stepc + 1 ≤ ready ∧
        x.kind = 0 ∧ x.fmt = 0 ∧ x.mask = 0xF ∧ x.h = e.marks.getLsbD 1 ∧ x.t = e.marks.getLsbD 2 ∧
        (∀ m, m < 4 → (x.data.extractLsb' (32 * m) 32).toNat = SMap.get nd.store 0 (4 * e.row + m) % 2 ^ 32) ∧
        (∀ m, m < 4 → 4 * e.row + m < 4096 → SMap.get (s'.node t n).store 0 (4 * e.row + m) = if e.marks.getLsbD 0 then 0 else SMap.get nd.store 0 (4 * e.row + m))) ∧
      (e.kind = .aclr → ∃ s', exec .aclrAtPromote s = .next s' ∧ (s'.node t n).entries = rest ∧ credit s' ∧
        ∀ i, SMap.get (s'.node t n).store 0 i = if i / 4 = e.row then 0 else SMap.get nd.store 0 i))

/-- For every state in which the trigger issues. sload and spart of a valid slot with no load under way: LIDX is the slot, and the named
nodes' shadows begin to load, LOADING, none ready to flip; with bit 8 of t the other tiles of the region are asked; a spart that names
none only sets LIDX. fire: the slate is active, PASS is t, and a switch token with the format-table word of lc0's low four bits is
injected on both sides, its marker entering the array; swtok injects the latest one again on the sides asked for. cdrain marks the
nodes of t. cres lets the raised node go on, ACTIVE and no longer held. cabort: no load, no token in the collar's lanes or at the
north port, nothing raised, and its end is due. npar sets a shadow parameter, READY to flip, or clears the node status bits named.
ctrap and cstat emerge 2 steps on. Reserved bits raise cause 2 with DETAIL 0, an invalid slot 0x12, a load under way 0x11, a failed
one 0x10, no slate 0x13, no token 0x16, another node or value 0x14, a cause that cannot be resumed 0x15; nothing issues. -/
def Obligations.CollarTriggerEffects : Prop :=
  ∀ (s : State) (c : Issuer) (t : Trig) (o : Opnds),
    let v := (low64 o.t).toNat
    let w := (low64 o.o0).toNat
    let k := s.collar c.tile
    let x := s.strand c.tile c.strand
    let marks (i : Instr) (s' : State) : Prop := exec i s = .next ((s'.commitMark c { commit := true }).advance c)
    let raises (i : Instr) (detail : Nat) : Prop := exec i s = .next (s.raiseHere c 2 (BitVec.ofNat 64 (x.stream.idxOf c.seq c.slot)) (BitVec.ofNat 16 detail))
    let busy := k.sst = .loading ∨ k.sst = .prepared
    let bad := 2 ^ 9 ≤ v ∨ v / 2 ^ 5 % 8 ≠ 0
    let loads (i : Instr) (mask : Nat) : Prop := ∃ s', marks i s' ∧ (s'.collar c.tile).sst = .loading ∧ (s'.collar c.tile).lidx = v % 32 ∧ s'.mem = s.mem ∧
      (∀ n, n < 52 → (s'.node c.tile n).sval = (if mask.testBit n then false else (s.node c.tile n).sval) ∧ (s'.node c.tile n).active = (s.node c.tile n).active) ∧
      (∃ l, (s'.collar c.tile).load = some l ∧ l.id = s.ids ∧ l.slot = v % 32 ∧ l.names = (List.range 52).filter fun n => mask.testBit n) ∧
      (if v.testBit 8 then s.ids ∈ (s'.collar c.tile).barred ∧ ∀ d ∈ (s.ctx x.ctx).tiles, d ≠ c.tile → s'.Sends vnConfig c.tile d .regionLoadRequest
          { Operand.zero with tile := d, id := s.ids, arg := v % 32, node := c.tile, word := BitVec.ofNat 64 mask }
        else s'.DueAfter s.tick .slateLoadDone { Operand.zero with tile := c.tile, id := s.ids })
    (s.Issues c 15 (colNeed false true) t o →
      (bad → raises (.sload t) 0) ∧ (¬ bad → (k.slate (v % 32)).valid = false → raises (.sload t) 0x12) ∧ (¬ bad → (k.slate (v % 32)).valid = true → busy → raises (.sload t) 0x11) ∧
      (¬ bad → (k.slate (v % 32)).valid = true → ¬ busy → loads (.sload t) (2 ^ 52 - 1)) ∧
      (4 ≤ v ∨ v = 0 → raises (.swtok t) 0) ∧ (1 ≤ v → v ≤ 3 → s.switchHeld c 0 = false → k.sst = .failed → raises (.swtok t) 0x10) ∧
      (1 ≤ v → v ≤ 3 → s.switchHeld c 0 = false → k.sst ≠ .failed → k.act = false ∨ k.last = none → raises (.swtok t) 0x16) ∧
      (∀ l, 1 ≤ v → v ≤ 3 → s.switchHeld c v = false → k.sst ≠ .failed → k.act = true → k.last = some l → ∃ s' y, marks (.swtok t) s' ∧ y.kind = 1 ∧ y.snap = l.snap ∧ y.pass = l.pass ∧ y.fstr = l.fstr ∧
        (s'.collar c.tile).inject = k.inject ++ [(c.step + 1, y, v)] ∧ (s'.collar c.tile).last = some y ∧ ((s'.arr c.tile).inside.length = (s.arr c.tile).inside.length + if v.testBit 1 then 1 else 0)) ∧
      (2 ^ 52 ≤ v → raises (.cdrain t) 0) ∧
      (v < 2 ^ 52 → ∃ s', marks (.cdrain t) s' ∧ s'.mem = s.mem ∧ ∀ n, (s'.node c.tile n).drain = (if n < 52 ∧ v.testBit n = true then true else (s.node c.tile n).drain) ∧ (s'.node c.tile n).st = (s.node c.tile n).st) ∧
      (∃ s', marks (.cabort t) s' ∧ (s'.collar c.tile).sst = .empty ∧ (s'.collar c.tile).load = none ∧ (s'.collar c.tile).inject = [] ∧ (s'.collar c.tile).lanes = [[], [], [], []] ∧ (s'.collar c.tile).wport = [] ∧
        (s'.collar c.tile).raised = none ∧ s'.mem = s.mem ∧ s'.DueAfter s.tick .cabortComplete (opTile c.tile))) ∧
    (s.Issues c 15 { colNeed false true with loads := true, access := true } t o →
      (2 ^ 16 ≤ v → raises (.fire t) 0) ∧ (v < 2 ^ 16 → s.switchHeld c 0 = false → k.sst = .failed → raises (.fire t) 0x10) ∧
      (v < 2 ^ 16 → s.switchHeld c 0 = false → k.sst = .empty → k.act = false → raises (.fire t) 0x13) ∧
      (∀ lc base, v < 2 ^ 16 → s.switchHeld c 3 = false → k.sst ≠ .failed → ¬ (k.act = false ∧ k.sst = .empty) → s.specialValue c .lc0 = some lc → s.formatBase c = some base →
        ∃ s' y, marks (.fire t) s' ∧ (s'.collar c.tile).act = true ∧ (s'.collar c.tile).pass = v ∧ (s'.collar c.tile).last = some y ∧ (s'.collar c.tile).inject = k.inject ++ [(c.step + 1, y, 3)] ∧
          y.kind = 1 ∧ y.pass = v ∧ (c.strand < 8 → y.fstr = c.strand) ∧ y.snap = BitVec.ofNat 64 (leNat (s.readPieces c [(base + 8 * (lc.toNat % 16), 8)])) ∧
          (∃ e, (s'.arr c.tile).inside = (s.arr c.tile).inside ++ [e] ∧ e.kind = .marker ∧ e.tok = some y) ∧ (s'.arr c.tile).credits = (s.arr c.tile).credits.map (· - 1) ∧ s'.mem = s.mem)) ∧
    (s.Issues c 15 (colNeed true true) t o →
      (bad ∨ 2 ^ 52 ≤ w → raises (.spart t) 0) ∧ (¬ bad → w < 2 ^ 52 → (k.slate (v % 32)).valid = true → ¬ busy → 0 < w → loads (.spart t) w) ∧
      (¬ bad → (k.slate (v % 32)).valid = true → ¬ busy → w = 0 → marks (.spart t) (s.modCollar c.tile fun k => { k with lidx := v % 32 })) ∧
      (k.raised ≠ some (w % 64) → raises (.cres t) 0x14) ∧
      (∀ h, k.raised = some (w % 64) → (s.node c.tile (w % 64)).hold = some h →
        (h.cause = 3 ∨ h.cause = 5 ∨ h.cause = 6 → raises (.cres t) 0x15) ∧ (h.cause = 4 ∨ h.cause = 7 → 1 < v → raises (.cres t) 0x14) ∧
        (h.cause = 1 ∨ h.cause = 2 → nodeKind (w % 64) ≠ .port → ∃ s', marks (.cres t) s' ∧ (s'.node c.tile (w % 64)).st = .active ∧ (s'.node c.tile (w % 64)).hold = none ∧ s'.mem = s.mem)) ∧
      (let sel := w % 64; let rsv := 2 ^ 16 ≤ w ∨ w / 2 ^ 11 % 16 ≠ 0 ∨ w / 2 ^ 6 % 4 ≠ 0 ∨ 51 < sel;
        (rsv → raises (.npar t) 0) ∧ (¬ rsv → w.testBit 15 = false → busy → raises (.npar t) 0x11) ∧
        (¬ rsv → w.testBit 15 = false → ¬ busy → (s.node c.tile sel).shadow.p.length = 8 → ∃ s', marks (.npar t) s' ∧ (s'.collar c.tile).sst = .ready ∧ (s'.node c.tile sel).sval = true ∧ (s'.node c.tile sel).shadow.ovl = true ∧
          (∀ r, r < 8 → (s'.node c.tile sel).shadow.p.getD r 0 = if r = w / 2 ^ 8 % 8 then low64 o.t else (s.node c.tile sel).shadow.p.getD r 0) ∧ (∀ n, n ≠ sel → s'.node c.tile n = s.node c.tile n) ∧ s'.mem = s.mem) ∧
        (¬ rsv → w.testBit 15 = true → ∃ s', marks (.npar t) s' ∧ (∀ i, i < 64 → (s'.node c.tile sel).ns.getLsbD i =
            ((s.node c.tile sel).ns.getLsbD i && !(decide (i < 6) && v.testBit i) && !(decide (8 ≤ i ∧ i < 16) && v.testBit 8))) ∧ (∀ n, n ≠ sel → s'.node c.tile n = s.node c.tile n)))) ∧
    (s.Issues c 15 { colNeed false false with result := some 15 } t o →
      (∃ word, exec (.ctrap t) s = .next ((s.result c 15 2 t.w (widen word) 0 0).advance c) ∧ (k.raised = none → word = 0) ∧
        (∀ n h, k.raised = some n → (k.node n).hold = some h → n < 64 → h.cause < 256 → word.toNat % 64 = n ∧ word.getLsbD 7 = true ∧ word.toNat / 2 ^ 8 % 2 ^ 8 = h.cause ∧ word.toNat / 2 ^ 16 = h.detail % 2 ^ 48 ∧
          word.getLsbD 6 = decide (1 < k.heldNodes.length))) ∧
      (∃ word, exec (.cstat t) s = .next ((s.result c 15 2 t.w (widen word) 0 0).advance c) ∧ (k.lidx < 32 → k.rcnt < 2 ^ 16 → k.pass < 2 ^ 16 →
        word.getLsbD 63 = k.act ∧ word.toNat / 2 ^ 60 % 8 = (match k.sst with | .empty => 0 | .loading => 1 | .prepared => 2 | .ready => 3 | .failed => 4) ∧ word.getLsbD 59 = !k.heldNodes.isEmpty ∧
        word.toNat / 2 ^ 48 % 32 = k.lidx ∧ word.toNat / 2 ^ 32 % 2 ^ 16 = k.rcnt ∧ word.toNat / 2 ^ 16 % 2 ^ 16 = k.pass)))

/-- For every state and a collar node that may work (ACTIVE or ALIGNING, its plane whole). DECODE, GATE, AFFINE, ACTIVATE and CONVERT with
a data token at the input and a free pipeline: the token is gone from the input; under BYP it follows the node's outputs as it is,
else the tokens of the node's rule follow them, or a token that the rule refuses holds the node with its cause and detail, the token
staying. AFFINE's element m is x·scale + bias of its block with one rounding, or x with both off; ACTIVATE's is the function of each
element; marks and masks are the token's. GATE without a function passes the token, counting its elements. NORM with a whole row, a
divisor and no token to take emits the row's elements scaled and forgets the row. CORNER takes a token into its block, and with a
whole block and no token to take emits it transposed as soon as the block before has gone out; SMAX with the row's last token emits
the row's softmax. With no input at a switch token, REDUCE across its inputs and JOIN's sum take one token of each when all agree and
emit one; REDUCE along emits at a burst's end; JOIN in turn passes on the token of the input whose turn it is. -/
def Obligations.CollarTokenEffects : Prop :=
  ∀ (s : State),
    let t := s.ev.tile
    let n := s.ev.node
    let nd := s.node t n
    let step := (s.core t).stepc
    let emits (i : Instr) (gone : List Nat) (outs : List Tok) : Prop := ∃ s', exec i s = .next s' ∧ (∀ j, j < 4 → (s'.node t n).input j = if j ∈ gone then (nd.input j).drop 1 else nd.input j) ∧
      (s'.node t n).out.map OutTok.tok = nd.out.map OutTok.tok ++ outs ∧ (s'.node t n).st = nd.st ∧ s'.mem = s.mem
    let held (i : Instr) (cause detail : Nat) : Prop := ∃ s', exec i s = .next s' ∧ (s'.node t n).st = .held ∧ (s'.node t n).hold = some ⟨cause, detail, false⟩ ∧ (s'.node t n).ins = nd.ins ∧
      (s'.node t n).ns.toNat / 2 ^ 8 % 2 ^ 8 = cause % 2 ^ 8
    nd.st = .active ∨ nd.st = .aligning → nd.active.bad = false → nd.ins.length = 4 →
    (∀ x, nd.headOf 0 = some x → x.kind = 0 → nd.flows step (nodeSteps n nd.active) = true →
      let byp := (nodeKind n).bypasses && nd.active.byp
      let takes (i : Instr) (f : Node → Tok → NodeStep) : Prop := (byp = true → emits i [0] [x]) ∧ (byp = false → (∀ nd' outs, f nd x = .ok (nd', outs) → emits i [0] outs) ∧ (∀ e d, f nd x = .error (e, d) → held i e d))
      takes .decodeToken (fun nd x => nd.decodeToken (n / 3) (s.scratchWord t) (Config.freeWord s.fresh) x) ∧ takes .gateToken Node.gateToken ∧ takes .affineToken Node.affineToken ∧
      takes .activateToken Node.activateToken ∧ takes .convertToken Node.convertToken ∧
      (byp = false → nd.active.fld 0 0 2 = 0 → emits .gateToken [0] [x]) ∧
      (byp = false → x.fmt = 0 →
        let sen := nd.active.flag 0 1; let ben := nd.active.flag 0 0
        let j := if x.h then 0 else nd.cnt
        let b := if nd.active.flag 0 2 then (nd.active.fld 0 12 9 + j) % 512 else nd.active.fld 0 12 9
        (sen = false → ben = false → emits .affineToken [0] [x]) ∧
        (sen = true ∨ ben = true → ∃ y, emits .affineToken [0] [y] ∧ y.h = x.h ∧ y.t = x.t ∧ y.mask = x.mask ∧ y.fmt = x.fmt ∧ ∀ m, m < 4 → (y.data.extractLsb' (32 * m) 32).toNat =
          (fp32.fma (x.elem 32 m) (if sen then nd.word (32 * b + 4 * m) else 0x3F800000) (if ben then nd.word (32 * b + 16 + 4 * m) else 0)).1 % 2 ^ 32) ∧
        (∃ y, emits .activateToken [0] [y] ∧ y.h = x.h ∧ y.t = x.t ∧ y.mask = x.mask ∧ ∀ m, m < 4 → (y.data.extractLsb' (32 * m) 32).toNat = (nd.activateElem (x.elem 32 m)).1 % 2 ^ 32))) ∧
    (nd.active.byp = false → nd.rowWhole = true → nd.active.coop = false →
      (∀ r f, nd.normScale nd.normSquares.1.toNat = (some r, f) → (∀ x, nd.headOf 0 = some x → x.kind ≠ 0) → ∃ s', exec .normRow s = .next s' ∧ (s'.node t n).row = [] ∧ (s'.node t n).out.map OutTok.tok = nd.out.map OutTok.tok ++ (nd.normRow r).1) ∧
      (∀ f, nd.normScale nd.normSquares.1.toNat = (none, f) → held .normRow 1 0)) ∧
    (nd.row.length = cornerTokens nd.active → nd.out.length ≤ routeSteps n → (∀ x, nd.headOf 0 = some x → x.kind ≠ 0) → ∃ s', exec .cornerBlock s = .next s' ∧ (s'.node t n).row = [] ∧
      (s'.node t n).out.map OutTok.tok = nd.out.map OutTok.tok ++ nd.cornerEmit (Config.freeWord s.fresh)) ∧
    (∀ x, nd.headOf 0 = some x → x.kind = 0 → x.t = false → nd.row.length + 1 < cornerTokens nd.active → ∃ s', exec .cornerBlock s = .next s' ∧ (s'.node t n).row = nd.row ++ [x] ∧
      (s'.node t n).input 0 = (nd.input 0).drop 1 ∧ (s'.node t n).out = nd.out) ∧
    (∀ x, nd.headOf 0 = some x → x.kind = 0 → x.fmt = 0 → x.t = true → nd.row.length + nd.out.length < 2048 →
      ∃ s', exec .smaxBurst s = .next s' ∧ (s'.node t n).row = [] ∧ (s'.node t n).out.map OutTok.tok = nd.out.map OutTok.tok ++ ({ nd with row := nd.row ++ [x] } : Node).smaxRow) ∧
    (let ins := (List.range 4).filter fun i => nd.active.inm.testBit i
     ∀ toks : List Tok, nd.flows step (nodeSteps n nd.active) = true → nd.forced = false → (∀ i y, i < 4 → nd.headOf i = some y → y.kind ≠ 1) →
      (nd.active.along = false → toks = ins.filterMap nd.headOf → toks.length = ins.length → toks ≠ [] → (∀ x ∈ toks, x.kind = 0 ∧ x.fmt = 0) → marksAgree toks = true →
        emits .reduceToken ins [reduceAcross nd.active.rop toks (Config.freeWord s.fresh)]) ∧
      (∀ x i rest, nd.active.along = true → ins = i :: rest → nd.headOf i = some x → x.kind = 0 → x.fmt = 0 → ((nd.burst || x.h) && !x.t) = false →
        emits .reduceToken [i] [(((nd.reduceAlong x).popInput i).noteTaken x false).reduceEmit (Config.freeWord s.fresh) |>.2]) ∧
      (∀ a b, nd.active.jm = 2 → nd.headOf 0 = some a → nd.headOf 1 = some b → a.kind = 0 → b.kind = 0 → a.fmt = 0 → b.fmt = 0 → a.h = b.h → a.t = b.t →
        emits .joinToken [0, 1] [joinSum a b (Config.freeWord s.fresh)]) ∧
      (∀ x, nd.active.jm ≠ 2 → nd.headOf (nd.cnt % 2) = some x → x.kind = 0 → emits .joinToken [nd.cnt % 2] [x]))

/-- For every state. A PORT that may work: a scratchpad read that reaches past its next element moves on to the element reached, taking
from memory the bytes of its elements and, before a token that has one there, its scale; a write puts the token's elements reached
into the scratchpad, and with the last of the token takes it; a network source emits its oldest token, passes over the place of a
skipped burst, and gives its slot's notice after either's end; a network sink puts its token into its burst, sent at a tail or at BLEN
tokens; a data token beyond a sink's walk holds it with cause 2. SWITCH_TOKEN_TAKE at a node that is offered a token: already taken,
it is dropped; without a shadow to flip a node that is off takes its number and snapshot and passes it on along its lane; with a good
one its shadow becomes its active plane; a refusal holds the node. PARITY_REPAIR_DONE: the plane as its slot gives it, or cause 6.
SLATE_LOAD_DONE: the named shadows stand, READY to flip, or FAILED over a bad word; for a region, PREPARED, with a report to the
coordinator, whose last report has every tile commit, or withhold when any was bad. CABORT_COMPLETE: no active slate. While its tile
is stopped such an event is kept with its operand. -/
def Obligations.PortAndSlateEffects : Prop :=
  ∀ (s : State),
    let o := s.ev
    let t := o.tile
    let n := o.node
    let nd := s.node t n
    let k := s.collar t
    (nd.st = .active → nd.active.bad = false → nd.ins.length = 4 → ∀ w, nd.walk = some w →
      (let r := nd.walkReach w fun b => o.arg.testBit b;
        let done := ((List.range (r.1 - w.elem)).map (· + w.elem)).foldl (fun (acc : Walk × List Tok) i => let q := acc.1.addElem i (s.portByte t w.blk i) (s.scratchWord t); (q.1, acc.2 ++ q.2)) (w, []);
        s.portGoes t n = true → o.flag = false → w.elem < r.1 ∨ (r.1 = w.elem ∧ r.2.2 = true ∧ w.scl = none) → done.1.elem = r.1 ∧ ∃ s', exec .portScratchpadRead s = .next s' ∧
          (s'.node t n).walk = some (if r.2.2 then { done.1.readScale r.1 (s.scratchWord t) with begun := true } else done.1) ∧
          (s'.node t n).out.map OutTok.tok = nd.out.map OutTok.tok ++ done.2 ∧ s'.mem = s.mem) ∧
      (∀ x, nd.headOf 0 = some x → x.kind = 0 →
        let q := nd.walkSpan w
        let r := nd.walkReach w fun b => o.arg.testBit b
        (w.blk.tokens ≤ w.tok → nd.forced = false → ∃ s', exec .portScratchpadWrite s = .next s' ∧ (s'.node t n).st = .held ∧ (s'.node t n).hold = some ⟨2, 0, false⟩) ∧
        (w.tok < w.blk.tokens → s.portGoes t n = true → o.flag = false → r.1 ≠ q.1 → ∃ s', exec .portScratchpadWrite s = .next s' ∧
          s'.mem = ((List.range (r.1 - q.1)).map (· + q.1)).foldl (fun m i => if 2 ^ 19 ≤ w.blk.addr i then m else
            memWrite m (tileBase t + w.blk.addr i) (((leBytes 16 x.data.toNat).drop (i * w.blk.bytes % 16)).take w.blk.bytes)) s.mem ∧
          (r.1 = q.2 → (s'.node t n).input 0 = (nd.input 0).drop 1 ∧ ∃ w', (s'.node t n).walk = some w' ∧ w'.tok = w.tok + 1)) ∧
        (w.closed = false → w.begun = true → nd.holdsTail x.t = false → x.t = false → w.buf.length + 1 < w.blk.blen → ∃ s' w', exec .portNetworkOut s = .next s' ∧ (s'.node t n).walk = some w' ∧
          w'.buf = w.buf ++ [x] ∧ w'.got = w.got + 1 ∧ (s'.node t n).input 0 = (nd.input 0).drop 1) ∧
        (w.closed = false → w.begun = true → nd.holdsTail x.t = false → x.t = true → nd.active.ordt = false → 1 ≤ w.blk.pep → w.blk.pep ≤ 4 → ∃ s' w', exec .portNetworkOut s = .next s' ∧
          (s'.node t n).walk = some w' ∧ w'.buf = [] ∧ w'.sent = w.sent + 1 ∧ s'.Sends vnCopy t w.blk.peer .streamBurstArrival
            { Operand.zero with tile := w.blk.peer, arg := w.blk.pep, node := n - 48 + 1, word := BitVec.ofNat 64 t, bytes := toksBytes (w.buf ++ [x]) })) ∧
      (∀ x rest, nd.out = [] → w.sent = 0 → w.buf = x :: rest → x.kind = 0 → w.begun = true → nd.holdsTail x.t = false → tokenMisfits w.blk w.got x = false → nd.forced = false → ∃ s' w', exec .portNetworkIn s = .next s' ∧
        (s'.node t n).walk = some w' ∧ w'.buf = rest ∧ w'.got = w.got + 1 ∧ w'.sent = (if x.t then 1 else 0) ∧ (s'.node t n).out.map OutTok.tok = [x]) ∧
      (∀ x rest, nd.out = [] → w.sent = 0 → w.buf = x :: rest → x.kind = 3 → ∃ s', exec .portNetworkIn s = .next s' ∧ (s'.node t n).walk = some { w with buf := rest, got := w.got + x.num, sent := 1 } ∧ (s'.node t n).out = [])) ∧
    (∀ x, o.arg = 2 → k.offers.find? (fun q => decide (q.1 = n)) = some (n, x) →
      let dropped (s' : State) : Prop := ∀ y, (n, y) ∈ (s'.collar t).offers → y.num ≠ x.num
      (x.num ≤ nd.took → ∃ s', exec .switchTokenTake s = .next s' ∧ dropped s' ∧ s'.node t n = nd) ∧
      (nd.took < x.num → nd.st = .off → nodeKind n ≠ .port →
        (nd.sval = false → ∃ s', exec .switchTokenTake s = .next s' ∧ dropped s' ∧ (s'.node t n).took = x.num ∧ (s'.node t n).snap = x.snap ∧ (s'.node t n).fstr = x.fstr ∧ (s'.node t n).st = .off ∧
          (s'.node t n).out.map OutTok.tok = nd.out.map OutTok.tok ++ (if offDst n = [] then [] else [x])) ∧
        (nd.sval = true → s.switchRefusal t n nd x = none → nd.shadow.bad = false → ∃ s', exec .switchTokenTake s = .next s' ∧ dropped s' ∧ (s'.node t n).active = nd.shadow ∧ (s'.node t n).sval = false ∧
          (s'.node t n).st = .active ∧ (s'.node t n).took = x.num) ∧
        (∀ e d, s.switchRefusal t n nd x = some (e, d) → ∃ s', exec .switchTokenTake s = .next s' ∧ (s'.node t n).st = .held ∧ (s'.node t n).hold = some ⟨e, d, true⟩ ∧ (s'.collar t).offers = k.offers))) ∧
    ((s.tile t).stopped = false →
      (nd.st = .repairing →
        (nd.active.ovl = false → nd.since ≤ 64 → (k.slate nd.active.slot).badFor n = false → ∃ s', exec .parityRepairDone s = .next s' ∧ (s'.node t n).st = .active ∧
          (s'.node t n).active = (k.slate nd.active.slot).plane nd.active.slot n ∧ (s'.collar t).rcnt = (k.rcnt + 1) % 2 ^ 16) ∧
        (nd.active.ovl = true ∨ 64 < nd.since ∨ (k.slate nd.active.slot).badFor n = true → ∃ s' d, exec .parityRepairDone s = .next s' ∧ (s'.node t n).st = .held ∧ (s'.node t n).hold = some ⟨6, d, false⟩)) ∧
      (∀ l, k.load = some l → k.sst = .loading → l.id = o.id →
        (l.coord = 0 → k.queued = [] → ∃ s', exec .slateLoadDone s = .next s' ∧ (s'.collar t).load = none ∧ (s'.collar t).sst = (if l.names.any (k.slate l.slot).badFor then .failed else .ready) ∧
          ∀ m ∈ l.names, (s'.node t m).shadow = (k.slate l.slot).plane l.slot m ∧ ((l.names.any (k.slate l.slot).badFor) = false → (s'.node t m).sval = true)) ∧
        (0 < l.coord → ∃ s', exec .slateLoadDone s = .next s' ∧ (s'.collar t).sst = .prepared ∧ s'.Sends vnConfig t (l.coord - 1) .regionLoadReport
          { Operand.zero with tile := l.coord - 1, id := l.id, word := BitVec.ofNat 64 t, flag := l.names.any (k.slate l.slot).badFor })) ∧
      (k.sst ≠ .loading → k.sst ≠ .prepared → (k.slate o.arg).valid = true → ∃ s' l, exec .regionLoadRequest s = .next s' ∧ (s'.collar t).sst = .loading ∧ (s'.collar t).lidx = o.arg ∧ o.id ∈ (s'.collar t).barred ∧
        (s'.collar t).load = some l ∧ l.id = o.id ∧ l.coord = n + 1) ∧
      (∀ g, k.regions.find? (fun h => decide (h.id = o.id)) = some g →
        ((g.left.filter fun d => decide (d ≠ o.word.toNat)) ≠ [] → ∃ s', exec .regionLoadReport s = .next s' ∧ (s'.collar t).regions = k.regions.map fun h => if h.id = g.id then { g with left := g.left.filter fun d => decide (d ≠ o.word.toNat), bad := g.bad || o.flag } else h) ∧
        ((g.left.filter fun d => decide (d ≠ o.word.toNat)) = [] → ∃ s', exec .regionLoadReport s = .next s' ∧ (s'.collar t).regions = (k.regions.filter fun h => decide (h.id ≠ g.id)) ∧ ∀ d ∈ g.tiles, s'.Sends vnConfig t d (if g.bad || o.flag then .regionWithhold else .regionCommit)
          { Operand.zero with tile := d, id := g.id })) ∧
      (∀ l, k.load = some l → l.id = o.id → k.sst = .prepared → k.queued = [] → (∃ s', exec .regionCommit s = .next s' ∧ (s'.collar t).sst = .ready ∧ (s'.collar t).load = none ∧ (∀ m ∈ l.names, (s'.node t m).sval = true) ∧
          o.id ∉ (s'.collar t).barred) ∧
        (∃ s', exec .regionWithhold s = .next s' ∧ (s'.collar t).sst = .failed ∧ (s'.collar t).load = none ∧ o.id ∉ (s'.collar t).barred)) ∧
      (k.abort = true → ∃ s', exec .cabortComplete s = .next s' ∧ (s'.collar t).act = false ∧ (s'.collar t).abort = false ∧ s'.mem = s.mem)) ∧
    ((s.tile t).stopped = true → ∀ i ∈ [Instr.parityRepairDone, .slateLoadDone, .regionLoadRequest, .regionLoadReport, .regionCommit, .regionWithhold, .cabortComplete, .recordArrival, .codeLoadDone, .bundleReloadDone, .capsuleArrival,
      .capsuleVisitStart, .barrierWake, .doneToken, .orderingToken, .walkBurst, .walkCommandStart, .freedSlotNotice, .closeAck, .promiseWatchExpiry],
      exec i s = .next (s.modTile t fun y => { y with chan := y.chan ++ [(i, o)] }))

/-- For every state. ROUTER_FORWARD of a packet of another network than the capsules', with one destination, at the head of its buffer,
its output free: one whose turn is not come waits a tick; at its destination, with none of its stream before it, it leaves the router
and its event, or its stamped burst's application, is due in that tick; elsewhere it moves one hop in X and then in Y and takes the
output for a cycle per 1,024 bits; at a die's edge its first flit goes over a link that carries under the next number of its plane, or
into the tunnel of an X link that does not; at a Y or DOWN link that does not carry it may not leave. FLIT_RECEIVE in order with a
good CRC: the number expected rises, an idle flit takes the acknowledgement back, and with its last flit the packet stands at the far
router; with a bad CRC, or at a Z port in an uncorrectable codeword, it is discarded and a replay asked for. REPLAY_REQUEST_RECEIVE
sends again what its ACKN leaves; past the threshold REPLAY_THRESHOLD_FENCE fences the link. LANE_FAILING of a lane in use retrains an
UP link and fences a DEGRADED one; LINK_TRAINING_DONE ends in UP, DEGRADED, another try or, after three failures or with no half left,
FENCED; LINK_DRAIN_ACKNOWLEDGED fences a drained link. BURST_APPLY applies a burst whose stamp its die's clock satisfies and tells the
other dies, and else keeps it; APPLIED_NOTICE waits at a Y link that carries nothing, ends the burst at its origin and raises the
clock entry elsewhere; ZPORT_BURST_SEND stamps a burst for the next module, sends its next flit once its stamp is satisfied, the die's
earlier bursts have ended and the port is reached (which needs a ring of more modules than one), or waits, and stamps one from outside
afresh. -/
def Obligations.NetworkEventEffects : Prop :=
  ∀ (s : State),
    let o := s.ev
    let i := o.id
    (∀ p, SMap.lookup s.pkts i = some p → p.flit = none → p.tunnel = [] → p.more = [] → p.sent = 0 → p.inn < 5 → p.carrier = false → p.vn ≠ vnCapsule → s.atHead i p = true → SMap.get s.linkTick 0 p.key ≤ s.tick →
      let d := routeDir p.at_ p.dst
      let turn : Prop := s.pickPacket p.key = some i
      (¬ turn → exec .routerForward s = .next (s.after 1 .routerForward o)) ∧
      (turn → p.at_ = p.dst → s.outOfOrder p = false →
        ∃ s', exec .routerForward s = .next s' ∧ SMap.lookup s'.pkts i = none ∧ (s'.tile p.dst).poked = true ∧ (p.burst = none → s'.Due s.tick p.act p.op) ∧
          (∀ n, p.burst = some n → p.act ≠ .copyDelivery → s'.Due s.tick .burstApply (opId n))) ∧
      (turn → p.at_ ≠ p.dst → crossesDie p.at_ d = false →
        ∃ s' q, exec .routerForward s = .next s' ∧ SMap.lookup s'.pkts i = some q ∧ q.at_ = neighbour p.at_ d ∧ q.inn = d.opposite.code ∧ q.dst = p.dst ∧ q.src = p.src ∧ q.act = p.act ∧ q.op = p.op ∧ q.since = s.tick ∧
          s'.DueAfter s.tick .routerForward (opId i) ∧ SMap.get s'.linkTick 0 p.key = s.tick + max 1 (((s.payload p).length + 127) / 128)) ∧
      (p.at_ ≠ p.dst → crossesDie p.at_ d = true →
        let id := (linkOut p.at_ d).1
        let dp := (linkOut p.at_ d).2 * 2 + p.plane
        let x := (s.link id).dir dp
        (turn → linkIsZ id = false → (s.link id).carries = true → x.restart = false → dp < (s.link id).dirs.length → ∃ s' x', exec .routerForward s = .next s' ∧ (s'.link id).dir dp = x' ∧ x'.unacked = x.unacked ++ [(x.nextSeq, i)] ∧
          x'.nextSeq = (x.nextSeq + 1) % 4096 ∧ s'.DueAfter s.tick .flitReceive { Operand.zero with id := id, node := dp, arg := x.nextSeq, strand := x.wire, word := BitVec.ofNat 64 i, tile := (s.link id).ackn (reverseDir dp) } ∧
          ∃ q, SMap.lookup s'.pkts i = some q ∧ q.flit = some (id, dp, x.nextSeq) ∧ q.at_ = p.at_ ∧ q.sent = (if s.packetFlits p = 1 then 0 else 1)) ∧
        (turn → (s.link id).carries = false → ∃ s' q, exec .routerForward s = .next s' ∧ SMap.lookup s'.pkts s.ids = some q ∧ q.carrier = true ∧ q.tunnel = longWay p.at_ d 127 ∧ q.dst = neighbour p.at_ d ∧
          q.op = { Operand.zero with id := id, node := dp, arg := x.nextSeq, word := BitVec.ofNat 64 i, strand := 1, bytes := (s.payload p).take 120, flag := decide (s.packetFlits p = 1) } ∧ s'.Due (s.tick + 1) .routerForward (opId s.ids)) ∧
        ((s.link id).carries = false → linkIsY id = true ∨ (s.link id).st = .down → s.mayLeave p = false))) ∧
    (let l := s.link i;
     let d := l.dir o.node;
     let asks : Prop := ∃ s', exec .flitReceive s = .next s' ∧ s'.pkts = s.pkts ∧ s'.bursts = s.bursts ∧ ((s'.link i).dir o.node).asked = true ∧ ((s'.link i).dir o.node).expected = d.expected ∧
       (d.asked = false ∨ o.arg = d.expected → s'.DueAfter s.tick .replayRequestReceive { Operand.zero with id := i, node := o.node, bytes := flitBytes (flitHeader 0 (l.ackn o.node) 2 0 false false) [] });
     o.flag = false → o.bytes = [] → l.passes = true → (o.arg, o.word.toNat) ∈ d.unacked → o.node < l.dirs.length →
      (∀ p ph pt type seq vn bs, linkIsZ i = false → SMap.lookup s.pkts o.word.toNat = some p → s.flitOf i o.arg o.word.toNat = some (ph, pt, type, seq, vn, bs) →
        let good := flitSound (leBytes 128 (BitVec.ofNat 1024 (leNat (flitBytes (flitHeader seq o.tile type vn ph pt) bs)) ^^^ Config.corrupt s.fresh).toNat) ph pt
        (good = true → o.arg = d.expected → ∃ s', exec .flitReceive s = .next s' ∧ ((s'.link i).dir o.node).expected = (d.expected + 1) % 4096 ∧ ((s'.link i).dir o.node).asked = false ∧
          s'.DueAfter s.tick .flitReceive { Operand.zero with id := i, node := reverseDir o.node, bytes := flitBytes (flitHeader 0 ((s'.link i).ackn o.node) 0 0 false false) [] } ∧
          (pt = false → type ≠ 4 → s'.pkts = s.pkts) ∧
          (pt = true ∨ type = 4 → ∃ q, SMap.lookup s'.pkts o.word.toNat = some q ∧ q.flit = none ∧ q.dst = p.dst ∧ s'.DueAfter s.tick .routerForward (opId o.word.toNat) ∧
            q.at_ = neighbour p.at_ (if linkIsY i then (if o.node / 2 % 2 = 0 then .south else .north) else (if o.node / 2 % 2 = 0 then .east else .west)))) ∧
        (good = false → asks)) ∧
      (∀ b, linkIsZ i = true → o.node < 4 → SMap.lookup s.bursts o.word.toNat = some b → (codewordsOf o.strand).any (fun w => decide (1 < Config.codeword i o.node w)) = true → asks)) ∧
    (let l := s.link i;
      (l.passes = true → o.node < 4 → ∃ s', exec .replayRequestReceive s = .next s' ∧ s.tick ∈ (s'.link i).replays ∧ (∀ u ∈ (l.dir o.node).unacked, 2048 ≤ (flitAckn o.bytes + 4096 - u.1) % 4096 → ∃ w, s'.DueAfter s.tick .flitReceive
        { Operand.zero with id := i, node := o.node, arg := u.1, strand := w, word := BitVec.ofNat 64 u.2, tile := l.ackn (reverseDir o.node) }) ∧ (l.rthr < (s'.link i).replays.length → s'.Due s.tick .replayThresholdFence (opId i))) ∧
      (l.rthr < (l.replays.filter fun t => decide (s.tick < t + l.rwin)).length → l.carries = true ∨ l.st = .draining → ∃ s', exec .replayThresholdFence s = .next s' ∧ (s'.link i).st = .fenced) ∧
      (l.laneUsed (linkIsZ i) o.node o.arg = false → exec .laneFailing s = .next s) ∧
      (l.laneUsed (linkIsZ i) o.node o.arg = true → (l.st = .up → ∃ s', exec .laneFailing s = .next s' ∧ (s'.link i).st = .training ∧ (o.node, o.arg) ∈ (s'.link i).failing ∧ s'.DueAfter s.tick .linkTrainingDone (opId i)) ∧
        (l.st = .degraded → ∃ s', exec .laneFailing s = .next s' ∧ (s'.link i).st = .fenced)) ∧
      (l.st = .training →
        let r := ({ l with failing := l.failing ++ l.foundFailing (linkIsZ i) s.fresh } : Link).retire (linkIsZ i)
        (Config.trainingFails s.fresh = true → l.fails < 2 → ∃ s', exec .linkTrainingDone s = .next s' ∧ (s'.link i).st = .training ∧ (s'.link i).fails = l.fails + 1 ∧ s'.DueAfter s.tick .linkTrainingDone (opId i)) ∧
        (Config.trainingFails s.fresh = true → 2 ≤ l.fails → ∃ s', exec .linkTrainingDone s = .next s' ∧ (s'.link i).st = .fenced) ∧
        (Config.trainingFails s.fresh = false → r.2 = false → ∃ s', exec .linkTrainingDone s = .next s' ∧ (s'.link i).st = .fenced) ∧
        (Config.trainingFails s.fresh = false → r.2 = true → ∃ s', exec .linkTrainingDone s = .next s' ∧ (s'.link i).fails = 0 ∧ (s'.link i).halves = r.1.halves ∧ (s'.link i).spares = r.1.spares ∧
          (∀ dp, dp < 8 → s.tunnelled i dp = false → (s'.link i).dir dp = .fresh) ∧ (s'.link i).st = (if r.1.halves.any Option.isSome then .degraded else .up))) ∧
      (l.st = .draining → l.dirs.all (fun d => d.unacked.isEmpty) = true → ∃ s', exec .linkDrainAcknowledged s = .next s' ∧ (s'.link i).st = .fenced ∧ s'.pkts = s.pkts)) ∧
    (∀ b, SMap.lookup s.bursts i = some b →
      (b.done = false → stampOk (s.clock b.dest) b = true → ∃ s', exec .burstApply s = .next s' ∧ SMap.lookup s'.bursts i = some { b with done := true } ∧ s'.Due s.tick b.act b.op ∧
        ∀ d, d < 8 → d ≠ b.dest → s'.DueAfter s.tick .appliedNotice { Operand.zero with node := d, arg := b.origin, id := b.num, strand := b.dest }) ∧
      (b.done = false → stampOk (s.clock b.dest) b = false → exec .burstApply s = .next { s with bursts := SMap.set s.bursts i { b with here := true } }) ∧
      (b.done = true → exec .burstApply s = .next s) ∧
      (o.flag = true → b.zport = true → ∃ s', exec .appliedNotice s = .next s' ∧ ∀ d, d < 8 → d ≠ b.origin → s'.DueAfter s.tick .appliedNotice { Operand.zero with node := d, arg := b.origin, id := b.num, strand := b.dest }) ∧
      (let l := s.link (zPort b.dest);
       o.flag = false → o.arg ≠ 1 → b.zport = true → b.here = false → b.sent = 0 →
        (stampOk (s.clock b.dest) b = false ∨ s.zReaches b.dest = false ∨ s.predecessor i b = true → exec .zportBurstSend s = .next (s.after 1 .zportBurstSend o)) ∧
        (stampOk (s.clock b.dest) b = true → s.zReaches b.dest = true → s.predecessor i b = false → l.carries = true → l.dirs ≠ [] → (∀ u ∈ (l.dir 0).unacked, u.2 ≠ i) → (l.dir 0).unacked.length < 256 →
          (∀ q ∈ s.bursts, q.1 ≠ i → q.2.zport = true → q.2.dest = b.dest → q.2.sent = 0) → ∃ s', exec .zportBurstSend s = .next s' ∧
            ((s'.link (zPort b.dest)).dir 0).unacked = (l.dir 0).unacked ++ [((l.dir 0).nextSeq, i)] ∧
            s'.DueAfter s.tick .flitReceive { Operand.zero with id := zPort b.dest, node := 0, arg := (l.dir 0).nextSeq, strand := (l.dir 0).wire, word := BitVec.ofNat 64 i, tile := l.ackn 2 }))) ∧
    (o.flag = false → (s.noticeHeld o.strand o.node = true → exec .appliedNotice s = .next (s.after 1 .appliedNotice o)) ∧
      (s.noticeHeld o.strand o.node = false → o.node = o.arg → exec .appliedNotice s = .next { s with bursts := s.bursts.filter fun q => !(q.2.done && decide (q.2.origin = o.arg) && decide (q.2.num = i)) }) ∧
      (s.noticeHeld o.strand o.node = false → o.node ≠ o.arg → o.arg < 8 → (s.clock o.node).length = 8 → ((s.clock o.node).getD o.arg 0 + 1) % 2 ^ 32 = i → SMap.get s.noticed [] (o.node * 8 + o.arg) = [] → i < 2 ^ 32 - 1 →
        ∃ s', exec .appliedNotice s = .next s' ∧ (s'.clock o.node).getD o.arg 0 = i ∧ ∀ k, k ≠ o.arg → (s'.clock o.node).getD k 0 = (s.clock o.node).getD k 0)) ∧
    (let stamp (die : Nat) : List Nat := (s.clock die).set die (((s.clock die).getD die 0 + 1) % 2 ^ 32);
      (o.flag = true → ∃ s' b p n, exec .zportBurstSend s = .next s' ∧ SMap.lookup s'.bursts s.ids = some b ∧ b.origin = o.node ∧ b.dest = homeDie o.word.toNat ∧ b.stamp = stamp o.node ∧
        SMap.lookup s'.pkts n = some p ∧ p.burst = some s.ids ∧ p.dst = homeTile o.word.toNat) ∧
      (o.flag = false → o.arg = 1 → ∃ s' b, exec .zportBurstSend s = .next s' ∧ SMap.lookup s'.bursts s.ids = some b ∧ b.zport = true ∧ b.dest = o.node % 8 ∧ b.stamp = stamp (o.node % 8) ∧ b.op.bytes = o.bytes ∧
        b.op.word = o.word ∧ s'.Due (s.tick + 1) .zportBurstSend (opId s.ids)))

/-- For every state. MODULE_RESET gives the state after reset (the count of free values, the model's own, goes on). PORT_B_RESET clears
port B's link and function only, when the port exists. BRINGUP_STEP_DONE begins a phase's step, and at its end goes to the next phase,
its links training, or, where it fails or a die link is fenced, to phase 15; phase 5 opens the election. ELECTION_WINDOW_END: the
lowest claimant owns the module. OWNER_LOST, HOST_LINK_DOWN and HOST_LINK_UP as the port's link goes. REGISTER_WRITE writes WBASE, a
request word or a word of the MSI-X table, sending a pending vector that it unmasks, and nothing else. HOST_MEMORY_READ of BAR0 gives
MSTAT, MBST, request and response words, of BAR2 QSTAT, of BAR4 the bytes behind WBASE, zeros before phase 5. HOST_MEMORY_WRITE of the
owner writes them. MBGO_WRITE queues the master's command as busy, or sets OVR. HOST_ENQUEUE puts 64 bytes at a ring's tail; a full
ring sets OVF, a malformed write MAL, and each dropped one counts. QSTAT_WRITE clears what is written one. -/
def Obligations.HostEventEffects : Prop :=
  ∀ (s : State),
    let o := s.ev
    let m := o.node
    let x := s.master m
    exec .moduleReset s = .next { State.reset with fresh := s.fresh + 1, bifurcated := Config.strap s.fresh } ∧
    (∃ s', exec .portBReset s = .next s' ∧ (s.bifurcated = false → s' = s) ∧ (s.bifurcated = true → (∀ p, p ∈ s'.upPorts ↔ p ∈ s.upPorts ∧ p ≠ 1) ∧ s'.master 1 = Master.reset ∧ SMap.get s'.wbase 0 1 = 0 ∧
      (∀ w, w < 4096 → s'.msixWord 0 w = s.msixWord 0 w ∧ s'.msixWord 1 w = (msixReset w).toNat) ∧ (∀ v, v ∈ s'.pba ↔ v ∈ s.pba ∧ v < 2048) ∧ (1 ∈ s.upPorts → SMap.lookup s'.downAt 1 = some s.tick ∧ s'.Due (s.tick + 2 ^ 31) .ownerLost { Operand.zero with node := 1 }) ∧
      (∀ c, c ∈ s'.mcpQ ∨ c ∈ s'.waiting → c.master ≠ 1) ∧ (∀ c, s.mcp = some c → s'.mcp = some (if c.master = 1 then { c with gone := true } else c)) ∧
      (∀ n, n ≠ 1 → s'.master n = s.master n ∧ SMap.get s'.wbase 0 n = SMap.get s.wbase 0 n) ∧ s'.mem = s.mem ∧ s'.owner = s.owner)) ∧
    (5 ≤ s.phase → exec .bringupStepDone s = .next s) ∧
    (s.phase < 5 → o.flag = false → ∃ s', exec .bringupStepDone s = .next s' ∧ s'.phase = s.phase ∧ s'.DueAfter s.tick .bringupStepDone { o with flag := true }) ∧
    (s.phase < 5 → o.flag = true → let fail := if s.phase = 4 then none else Config.bringupFailure s.fresh s.phase; ∃ s', exec .bringupStepDone s = .next s' ∧
      (∀ code, fail = some code → s'.phase = 15 ∧ s'.fcode = code % 256) ∧
      (fail = none → (s.phase ≠ 3 → s'.phase = s.phase + 1) ∧ (s.phase < 4 → s'.owner = s.owner ∧ (s'.phase = 15 ∨ s'.DueAfter s.tick .bringupStepDone { o with flag := true })) ∧
        (s.phase = 2 → ∀ i, (∀ d, d < 8 → i ≠ zPort d) → SMap.lookup s.links i = none → (s'.link i).st = .training) ∧
        (s.phase = 3 → (s'.phase = 4 ∧ (∀ i ∈ dieLinks, (s'.link i).st ≠ .fenced) ∧ ∀ d, d < 8 → (s'.link (zPort d)).st = .training) ∨ (s'.phase = 15 ∧ ∃ i ∈ dieLinks, (s'.link i).st = .fenced)) ∧
        (s.phase = 4 → s'.owner = .electing [] ∧ s'.Due (s.tick + 2100000) .electionWindowEnd Operand.zero ∧ ∀ d, d < 8 → (s'.link (zPort d)).st = .up ∨ (s'.link (zPort d)).st = .degraded ∨ (s'.link (zPort d)).st = .fenced))) ∧
    (∀ cl, s.owner = .electing cl → let cs := s.waiting.filter fun c => decide (c.opcode = 1);
      (cs = [] → exec .electionWindowEnd s = .next { s with owner := .unowned }) ∧
      (cs ≠ [] → (∀ c ∈ cs, c.gone = false) → ∃ s' n, exec .electionWindowEnd s = .next s' ∧ s'.owner = .owned n ∧ (∃ c, c ∈ cs ∧ c.master = n) ∧ (∀ c, c ∈ cs → n ≤ c.master ∧ (s'.master c.master).mbst.getLsbD 0 = true ∧
        (s'.master c.master).response = (0 : W64) :: BitVec.ofNat 64 n :: List.replicate 30 0) ∧ s'.waiting = s.waiting.filter fun c => decide (c.opcode ≠ 1))) ∧
    ((s.owner = .owned m → m < 2 → o.flag = true ∨ m ∈ s.d3hot ∨ s.linkLost m = true → ∃ s', exec .ownerLost s = .next s' ∧ s'.owner = .unowned ∧ s'.log = s.log ++ [⟨3, s.tick, [m]⟩] ∧ s'.mem = s.mem ∧ (o.flag = true → m ∈ s'.d3hot)) ∧
      (s.owner ≠ .owned m → m < 2 → o.flag = true → ∃ s', exec .ownerLost s = .next s' ∧ s'.owner = s.owner ∧ s'.log = s.log ∧ m ∈ s'.d3hot) ∧
      (o.flag = false → s.owner ≠ .owned m ∨ 2 ≤ m ∨ (m ∉ s.d3hot ∧ s.linkLost m = false) → exec .ownerLost s = .next s)) ∧
    (m ∈ s.upPorts → ∃ s', exec .hostLinkDown s = .next s' ∧ m ∉ s'.upPorts ∧ SMap.lookup s'.downAt m = some s.tick ∧ s'.Due (s.tick + 2 ^ 31) .ownerLost { Operand.zero with node := m } ∧ s'.owner = s.owner) ∧
    (m < 2 → s.masterPresent m = true → exec .hostLinkUp s = .next { s with upPorts := if s.upPorts.contains m then s.upPorts else s.upPorts ++ [m], downAt := SMap.erase s.downAt m, d3hot := s.d3hot.filter fun q => q ≠ m }) ∧
    (let off := o.id / 8 * 8; let w := (off - 0x8000) / 8; let port := portOf m; let v := w / 2; let word : W64 := if o.arg = 4 then dwordInto (BitVec.ofNat 64 (s.bar0 m off)) o.id o.word else o.word;
      let s1 := { s with msix := SMap.setD s.msix (msixReset w) (port * 4096 + w) word };
      (s.reaches m off = false → exec .registerWrite s = .next s) ∧
      (s.reaches m off = true →
        (off = 8 → exec .registerWrite s = .next { s with wbase := SMap.set s.wbase port (word &&& 0xFFF000000000) }) ∧
        (0x1000 ≤ off → off < 0x1100 → exec .registerWrite s = .next (s.modMaster m fun x => { x with request := x.request.set ((off - 0x1000) / 8) word })) ∧
        (0x8000 ≤ off → off < 0x10000 → port * 2048 + v ∉ s.pba ∨ (s1.msixWord port (2 * v + 1)).testBit 32 = true → exec .registerWrite s = .next s1) ∧
        (0x8000 ≤ off → off < 0x10000 → port * 2048 + v ∈ s.pba → (s1.msixWord port (2 * v + 1)).testBit 32 = false → ∃ s', exec .registerWrite s = .next s' ∧ port * 2048 + v ∉ s'.pba ∧
          s'.mem = memWrite s.mem (hostCell port (hostBase + s1.msixWord port (2 * v) % 2 ^ 47)) (leBytes 4 (s1.msixWord port (2 * v + 1) % 2 ^ 32))) ∧
        (off ≠ 8 → ¬(0x1000 ≤ off ∧ off < 0x1100) → ¬(0x8000 ≤ off ∧ off < 0x10000) → exec .registerWrite s = .next s))) ∧
    (let n := o.word.toNat; let gives (d : Option (List Byte)) : Prop := exec .hostMemoryRead s = .next { s with completions := s.completions ++ [(m, d)] };
      s.masterPresent m = true →
      (o.arg = 0 → s.reaches m o.id = true → n = 8 →
        (o.id = 0 → gives (some (leBytes 8 (s.phase * 2 ^ 60 + s.fcode * 2 ^ 52 + (match s.owner with | .owned k => k | _ => 7) * 2 ^ 49 + (match s.owner with | .electing _ => 2 ^ 48 | _ => 0) + m * 2 ^ 45 +
          (if (s.ctxs.any fun p => !p.2.held.isEmpty) = true ∨ s.stallY ≠ [] then 2 ^ 44 else 0) + if s.log = [] then 0 else 2 ^ 43)))) ∧
        (o.id = 0x18 → gives (some (leBytes 8 x.mbst.toNat))) ∧ (∀ k, k < 32 → o.id = 0x1000 + 8 * k → gives (some (leBytes 8 (x.request.getD k 0).toNat))) ∧ (∀ k, k < 32 → o.id = 0x1100 + 8 * k → gives (some (leBytes 8 (x.response.getD k 0).toNat)))) ∧
      (o.arg = 0 → s.reaches m o.id = false → gives none) ∧
      (∀ ctx q, o.arg = 2 → m < 2 → n = 8 → s.aperture o.id = some (ctx, q) → o.id % 0x1000 = 0x40 → let c := s.ctx ctx; let l := c.launchQs.getD q LaunchQ.reset;
        gives (some (leBytes 8 ((if l.ovf then 2 ^ 63 else 0) + (if l.mal then 2 ^ 62 else 0) + (if (c.paused || l.fw) && decide (c.st ≠ .destroyed) then 2 ^ 61 else 0) + (if c.st = .destroyed then 2 ^ 60 else 0) + min l.drops 0xFFFFFF * 2 ^ 32 + (2 ^ c.qcap - (l.pidx - l.cidx)))))) ∧
      (o.arg = 4 → m < 2 → 2 ^ 36 < o.id + n → gives none) ∧
      (o.arg = 4 → m < 2 → o.id + n ≤ 2 ^ 36 → s.phase ≠ 5 → gives (some (List.replicate n 0))) ∧
      (∀ f : Nat → Byte, o.arg = 4 → m < 2 → o.id + n ≤ 2 ^ 36 → s.phase = 5 → (∀ i, i < n → if windowReaches (s.windowPa m o.id + i) then s.physRead (s.windowPa m o.id + i) 1 = some [f i] else f i = 0) → gives (some ((List.range n).map f)))) ∧
    (let pa := s.windowPa m o.id; (s.phase ≠ 5 ∨ s.owner ≠ .owned m ∨ 2 ^ 36 < o.id + o.bytes.length → exec .hostMemoryWrite s = .next s) ∧
      (s.phase = 5 → s.owner = .owned m → m < 2 → s.masterPresent m = true → o.id + o.bytes.length ≤ 2 ^ 36 → (∀ i, i < o.bytes.length → windowReaches (pa + i) = true) → exec .hostMemoryWrite s = .next (s.homeWrite pa o.bytes false false).1)) ∧
    (s.masterPresent m = true →
      (x.mbst.getLsbD 1 = true → exec .mbgoWrite s = .next (s.modMaster m fun x => { x with mbst := x.mbst ||| 4 })) ∧
      (x.mbst.getLsbD 1 = false → let tag := o.word.toNat % 2 ^ 16; let c : Command := ⟨m, tag, x.request, false⟩;
        (s.mcp.isSome = true → ∃ s', exec .mbgoWrite s = .next s' ∧ (s'.master m).mbst = BitVec.ofNat 64 (tag * 2 ^ 48 + 2) ∧ s'.mcpQ = s.mcpQ ++ [c] ∧ s'.mcp = s.mcp) ∧
        (∀ i, s.mcp = none → s.mcpQ = [] → commandOf c = some i → ∃ s', exec .mbgoWrite s = .next s' ∧ (s'.master m).mbst = BitVec.ofNat 64 (tag * 2 ^ 48 + 2) ∧ s'.mcp = some c ∧ s'.mcpQ = [] ∧ s'.DueAfter s.tick i { Operand.zero with node := m }) ∧
        (s.mcp = none → s.mcpQ = [] → commandOf c = none → ∃ s', exec .mbgoWrite s = .next s' ∧ (s'.master m).mbst = BitVec.ofNat 64 (tag * 2 ^ 48 + (if s.phase = 5 then 1 else 3) * 2 ^ 24 + 1) ∧ s'.mcp = none))) ∧
    (∀ ctx q, s.aperture o.id = some (ctx, q) → let c := s.ctx ctx; let l := c.launchQs.getD q LaunchQ.reset; let put (f : LaunchQ → LaunchQ) : State := s.modCtx ctx fun c => { c with launchQs := c.launchQs.modify q f };
      let dropped (l : LaunchQ) : LaunchQ := { l with drops := min (l.drops + 1) 0xFFFFFF };
      (2 ≤ m ∨ s.masterPresent m = false → exec .hostEnqueue s = .next s ∧ exec .qstatWrite s = .next s) ∧
      (m < 2 → s.masterPresent m = true →
      (s.owner ≠ .owned m → o.id % 0x1000 < 0x40 → exec .hostEnqueue s = .next (put dropped)) ∧ (s.owner ≠ .owned m → exec .qstatWrite s = .next (put dropped)) ∧
      (s.owner = .owned m →
        (o.id % 0x1000 = 0 → o.bytes.length = 64 → c.st ≠ .destroyed → l.pidx - l.cidx < 2 ^ c.qcap → ∃ s', exec .hostEnqueue s = .next s' ∧ (s'.ctx ctx).launchQs = c.launchQs.modify q (fun l => { l with pidx := l.pidx + 1 }) ∧
          s'.mem = (s.ctxWrite ctx (c.launchBase q + 64 * (l.pidx % 2 ^ c.qcap)) o.bytes).mem) ∧
        (o.id % 0x1000 = 0 → o.bytes.length = 64 → c.st ≠ .destroyed → 2 ^ c.qcap ≤ l.pidx - l.cidx → exec .hostEnqueue s = .next (put fun l => { dropped l with ovf := true })) ∧
        (o.id % 0x1000 < 0x40 → o.id % 0x1000 ≠ 0 ∨ o.bytes.length ≠ 64 → exec .hostEnqueue s = .next (put fun l => { dropped l with mal := true })) ∧
        exec .qstatWrite s = .next (put fun l => { l with ovf := l.ovf && !o.word.getLsbD 63, drops := if o.word.getLsbD 63 then 0 else l.drops, mal := l.mal && !o.word.getLsbD 62 }))))

/-- For every state and page job under the event's number. PAGE_WALK_COMPLETE: the walk is over; a valid leaf gets its A bit, and for a
write its D bit, and stands in the TLB, in place of another of a full one, and what waited is performed again; with no valid leaf what
waited is told so, and a stalled slot finds it. PAGE_FAULT_REPORT of a request whose landing entry stands: pending in the frame of a
strand in a handler of a later level, else cause 8 with the address; a handler's own request loses its entry; an arrival's record and
wait end (log 49). REVIVAL_DONE: every line of the page and of its copies reads zero, the page has left every TLB and what was held is
performed again, a write of the hardware's own at once. RECLAIM_DONE: V 0 is written; the job ends when no request to the frame is
left. MIGRATION_COPY_START: while pins or earlier writes stand it waits; then MIG becomes 2. MIGRATION_COPY_DONE: the data is copied,
the entry has the new frame and MIG 0, the TLBs drop the page, held writes go on and the command ends. SHOOTDOWN_COMPLETE: no TLB
entry of the context's pages is left, and the command ends. -/
def Obligations.PageEventEffects : Prop :=
  ∀ (s : State),
    let o := s.ev
    let i := o.id
    let again (s' : State) (e : Instr × Operand) (b : Bool) : Prop := s'.Due s.tick e.1 { e.2 with flag := b }
    let own (e : Instr × Operand) : Bool := decide (e.1 = .hbmWrite) && decide (e.2.arg = 6)
    let plain (leaf : Nat) : Prop := ∀ h, h ∈ s.held → h.1 = leaf → own h.2 = false
    let free (s' : State) (leaf : Nat) : Prop := SMap.lookup s'.pageJobs i = none ∧ (∀ h, h ∈ s'.held ↔ h ∈ s.held ∧ h.1 ≠ leaf) ∧ ∀ h, h ∈ s.held → h.1 = leaf → again s' h.2 false
    let drops (s' : State) (leaf : Nat) : Prop := s'.tlb = s.tlb.filter fun e => e.leaf ≠ leaf
    let ends (s' : State) (test : Command → Bool) : Prop := s'.waiting = s.waiting ∧ ∀ c, s.mcp = some c → (test c = false → s'.mcp = some c) ∧
      (test c = true → c.gone = false → (s'.master c.master).mbst.getLsbD 0 = true ∧ (s'.master c.master).mbst.getLsbD 1 = false)
    (∀ w, SMap.lookup s.walks i = some w →
      let s1 := { s with walks := SMap.erase s.walks i }
      (∀ leaf word level, s1.pageWalk w.ctx w.va = some (leaf, word, level) →
        let bits := 2 ^ 9 + (if w.write then 2 ^ 10 else 0)
        ∃ s', exec .pageWalkComplete s = .next s' ∧ SMap.lookup s'.walks i = none ∧ s'.mem = (s1.physWrite leaf (leBytes 8 (s1.physWord leaf 8 ||| bits)) false).1.mem ∧
          (∀ p, s1.walks.find? (fun p => decide (p.2.die = w.die) && !p.2.begun) = some p → s'.DueAfter s.tick .pageWalkComplete (opId p.1)) ∧
          (∃ e, (let mine := s.tlb.filter fun d => decide (d.die = w.die); if mine.length < 65536 then s'.tlb = e :: s.tlb else ∃ g, g ∈ mine ∧ s'.tlb = e :: s.tlb.filter fun d => some d ≠ some g) ∧ e.die = w.die ∧ e.ctx = w.ctx ∧ e.va = w.va / levelSize level * levelSize level ∧ e.size = levelSize level ∧ e.leaf = leaf ∧ e.word = word ||| BitVec.ofNat 64 bits) ∧ ∀ e, e ∈ w.waiters → again s' e false) ∧
      (s1.pageWalk w.ctx w.va = none → ∃ s', exec .pageWalkComplete s = .next s' ∧ SMap.lookup s'.walks i = none ∧ s'.mem = s.mem ∧ s'.tlb = s.tlb ∧ (∀ e, e ∈ w.waiters → again s' e true) ∧
        ∀ p, p ∈ w.slots → (s'.strand p.1 p.2).noLeaf = some w.va)) ∧
    (∀ r, SMap.lookup s.reqs i = some r →
      let x := s.strand r.tile r.strand
      let live := (s.core r.tile).lands.any fun a => decide (some a.lid = r.lid) && decide (a.strand = r.strand)
      let raised (s' : State) : Prop := (s'.strand r.tile r.strand).causes = if x.causes.any (fun d => decide (d.cause = 8)) then x.causes else x.causes ++ [⟨8, BitVec.ofNat 64 r.va, 0, r.slot⟩]
      let waits := x.barWaits.any fun w => decide (w.rid = i)
      (live = false → waits = false → exec .pageFaultReport s = .next { s with reqs := SMap.erase s.reqs i }) ∧
      (live = true ∨ waits = true → r.kind.replyKind ≠ 0 → ∃ s', exec .pageFaultReport s = .next s' ∧ SMap.lookup s'.reqs i = none ∧ (∀ a, (s'.strand r.tile r.strand).arrival = some a → a.rid ≠ i) ∧
        ∀ w ∈ (s'.strand r.tile r.strand).barWaits, w.rid = i → w.out = some 0) ∧
      (live = true → r.kind.replyKind = 0 → r.level < x.depth → ∃ s', exec .pageFaultReport s = .next s' ∧ SMap.lookup s'.reqs i = none ∧ (s'.strand r.tile r.strand).causes = x.causes ∧
        s'.mem = memWrite s.mem (tileBase r.tile + frameAddr r.strand) (leBytes 8 (leNat (memRead s.mem (tileBase r.tile + frameAddr r.strand) 8) ||| 2 ^ 40))) ∧
      (live = true → r.kind.replyKind = 0 → x.depth ≤ r.level → ∃ s', exec .pageFaultReport s = .next s' ∧ SMap.lookup s'.reqs i = none ∧ raised s' ∧ s'.mem = s.mem ∧
        (s'.core r.tile).lands = if r.level = 0 then (s.core r.tile).lands else (s.core r.tile).lands.filter fun a => decide (some a.lid ≠ r.lid))) ∧
    (∀ j, SMap.lookup s.pageJobs i = some j →
      let leaf := j.leaf
      let w := s.leafWord leaf
      let pa := leafFrame w * 2 ^ 16
      (j.kind = .revive → plain leaf → ∃ s', exec .revivalDone s = .next s' ∧ free s' leaf ∧ drops s' leaf ∧ s'.mem = s.mem ∧ ∀ d l, d ∈ pageCopies w → (pa + d) / 128 ≤ l → l < (pa + d + j.size) / 128 → s'.readLine l = some (List.replicate 128 0)) ∧
      (∀ ctx va bs, j.kind = .revive → va < 2 ^ 52 → s.held = [(leaf, ctxHeld ctx va bs)] → exec .revivalDone s =
        .next (({ ({ s.zeroPage pa j.size w with pageJobs := SMap.erase s.pageJobs i } : State).dropTlb leaf with held := [] } : State).ctxWrite ctx va bs)) ∧
      (j.kind = .reclaim → leafV w = true → plain leaf →
        (s.reqsIn w j.size false = false → ∃ s', exec .reclaimDone s = .next s' ∧ free s' leaf ∧ drops s' leaf ∧ s'.mem = (s.writeLeaf leaf (setField w 0 1 0)).mem) ∧
        (s.reqsIn w j.size false = true → ∃ s', exec .reclaimDone s = .next s' ∧ SMap.lookup s'.pageJobs i = some j ∧ drops s' leaf ∧ s'.mem = (s.writeLeaf leaf (setField w 0 1 0)).mem ∧ s'.DueAfter s.tick .reclaimDone (opId i))) ∧
      (j.kind = .drain →
        (SMap.get s.pins 0 leaf ≠ 0 ∨ s.reqsIn w j.size true = true → ∃ s', exec .migrationCopyStart s = .next s' ∧ SMap.lookup s'.pageJobs i = some j ∧ s'.mem = s.mem ∧ s'.DueAfter s.tick .migrationCopyStart (opId i)) ∧
        (SMap.get s.pins 0 leaf = 0 → s.reqsIn w j.size true = false → ∃ s', exec .migrationCopyStart s = .next s' ∧ SMap.lookup s'.pageJobs i = some { j with kind := .copy } ∧
          s'.mem = ({ s with pageJobs := SMap.set s.pageJobs i { j with kind := .copy } }.writeLeaf leaf (setField w 56 3 2)).mem ∧ s'.DueAfter s.tick .migrationCopyDone (opId i))) ∧
      (j.kind = .copy → plain leaf → let s1 := { (pageCopies w).foldl (fun s d => s.copyPage (pa + d) (j.frame * 2 ^ 16 + d) (leafC w) (j.size / 128)) s with pageJobs := SMap.erase s.pageJobs i };
        ∃ s', exec .migrationCopyDone s = .next s' ∧ free s' leaf ∧ drops s' leaf ∧ ends s' (fun c => decide (c.opcode = 0x0032) && decide (some c.master = j.cmd)) ∧
          s'.mem = (s1.writeLeaf leaf (setField (setField (setField w 56 3 0) 16 32 j.frame) 11 1 (if j.host then 1 else 0))).mem)) ∧
    (∃ s', exec .shootdownComplete s = .next s' ∧ s'.mem = s.mem ∧ ends s' (fun c => decide (c.opcode = 0x0031) && decide (c.master = o.node)) ∧
      ∀ e, e ∈ s'.tlb ↔ e ∈ s.tlb ∧ ¬(e.ctx = o.id ∧ (o.arg = 0 ∨ (e.va < o.word.toNat + o.arg * 2 ^ 16 ∧ o.word.toNat < e.va + e.size))))

/-- For every state. CLOCK_GATE gates a tile quiet for 64 ticks. WAKE_REQUEST ends a hold and queues a gated tile at its cluster's
arbiter; INRUSH_ADMIT admits eight in order, each waking at a later tick, and stands again 4 ticks on for those left. CURRENT_SAMPLE
raises each cluster's level at its threshold and lowers it by one after 16 samples below 0.9 of it in a row. SENSOR_SAMPLE takes each
reading, marks one out of range or apart from its fellows by more than 8 degrees until 256 good ones, gives the value that stands for
it, forces a cluster at two marks or 105 degrees and releases it below 100, and logs each mark set or cleared and each forcing.
BOOST_CLAIM_ARRIVAL enters a claim that still stands or ends one. BOOST_BOUNDARY: a grant with no claim left or forced ends at once;
one in its last interval ends and cancels its claims; one with balance pays 1; one without falls; a lone candidate is granted and the
rail rises; four nominal intervals without a claim refill 1; and the candidate chosen is the one of highest priority, then greatest
balance, then lowest number. RAIL_SETTLED raises granted clusters, those in a last interval half way. -/
def Obligations.PowerEventEffects : Prop :=
  ∀ (s : State),
    let o := s.ev
    let t := o.tile
    let y := s.tile t
    let K (i : Nat) := s.cluster i
    ((64 ≤ y.quiet → y.gated = false → y.poked = false → exec .clockGate s = .next (s.modTile t fun y => { y with gated := true, gatedAt := s.tick })) ∧ (y.quiet < 64 ∨ y.gated = true ∨ y.poked = true → exec .clockGate s = .next s)) ∧
    ((y.gated = false → exec .wakeRequest s = .next (s.modTile t fun y => { y with poked := false, quiet := 0 })) ∧
      (y.gated = true → y.wakeAt = none → t ∉ SMap.get s.inrush [] (clusterOf t) → ∃ s', exec .wakeRequest s = .next s' ∧ (s'.tile t).poked = false ∧ SMap.get s'.inrush [] (clusterOf t) = SMap.get s.inrush [] (clusterOf t) ++ [t] ∧
        s'.Due ((s.tick / 4 + 1) * 4) .inrushAdmit { Operand.zero with node := clusterOf t })) ∧
    (∃ s', exec .inrushAdmit s = .next s' ∧ SMap.get s'.inrush [] o.node = (SMap.get s.inrush [] o.node).drop 8 ∧ (∀ u ∈ (SMap.get s.inrush [] o.node).take 8, ∃ w, (s'.tile u).wakeAt = some w ∧ s.tick < w) ∧
      (∀ u, u ∉ (SMap.get s.inrush [] o.node).take 8 → s'.tile u = s.tile u) ∧ (8 < (SMap.get s.inrush [] o.node).length → s'.Due (s.tick + 4) .inrushAdmit o)) ∧
    (∃ s', exec .currentSample s = .next s' ∧ s'.Due (s.tick + 64) .currentSample o ∧ ∀ i, i < 32 →
      let v := Config.sensorReading (s.fresh + i) 4
      let raised := if Config.splitThreshold 2 ≤ v then 2 else if Config.splitThreshold 1 ≤ v then max 1 (K i).level else (K i).level
      let low := if raised = (K i).level ∧ 0 < (K i).level ∧ 10 * v < 9 * Config.splitThreshold (K i).level then (K i).low + 1 else 0
      let floor := if ((K i).sensors.getD 4 Sensor.reset).suspect then 1 else 0
      (s'.cluster i).level = max floor (if 16 ≤ low then (K i).level - 1 else raised) ∧ (s'.cluster i).low = (if 16 ≤ low then 0 else low) ∧ (s'.cluster i).grant = (K i).grant) ∧
    (∃ s', exec .sensorSample s = .next s' ∧ s'.Due (s.tick + 2100) .sensorSample o ∧ ∀ i, i < 32 → (K i).sensors.length = 8 →
      let n := s'.cluster i
      let v (j : Nat) : Int := Config.sensorReading (s.fresh + 8 * i + j) j
      (∀ j, j < 8 →
        let x := (K i).sensors.getD j Sensor.reset
        let z := n.sensors.getD j Sensor.reset
        let lo : Int := if j < 4 then -20000 else 0
        let hi : Int := if j < 4 then 125000 else Config.railMax (j - 4)
        z.raw = v j ∧ (z.range.isSome = true ↔ (v j < lo ∨ hi < v j) ∨ ∃ m, x.range = some m ∧ m < 255) ∧
        (j < 4 → (z.apart.isSome = true ↔ 8000 < (v j - medianOthers v j).natAbs ∨ ∃ m, x.apart = some m ∧ m < 255)) ∧
        (z.suspect = false → z.value = v j) ∧ (v j < lo → z.value = lo) ∧ (lo ≤ v j → hi < v j → z.value = hi) ∧
        (j < 4 → z.range = none → z.suspect = true → z.value = medianOthers v j + 3000) ∧ (∀ m, m < 3 → x.mark m ≠ z.mark m → ⟨1, s.tick, [i, j, m, if z.mark m then 1 else 0]⟩ ∈ s'.log)) ∧
      n.forced = (if 2 ≤ n.suspects ∨ 105000 ≤ n.temperature then true else if n.temperature < 100000 then false else (K i).forced) ∧
      (n.forced ≠ (K i).forced → ⟨2, s.tick, [i, if n.forced then 1 else 0]⟩ ∈ s'.log)) ∧
    (o.strand ≠ 8 → let c : BoostClaim := ⟨o.tile, o.strand, o.id, o.arg⟩;
      (o.flag = true → ((K o.node).claims.any fun d => d.sameAs c) = true → exec .boostClaimArrival s = .next (s.modCluster o.node fun k => { k with seen := (k.seen.filter fun d => !d.sameAs c) ++ [c] })) ∧
      (o.flag = false ∨ ((K o.node).claims.any fun d => d.sameAs c) = false → exec .boostClaimArrival s = .next (s.modCluster o.node fun k => { k with seen := k.seen.filter fun d => !d.sameAs c }))) ∧
    (o.strand = 8 → let c : BoostClaim := ⟨0, 8, o.id, o.arg⟩; let rest (l : List BoostClaim) := l.filter fun d => !d.sameAs c;
      exec .boostClaimArrival s = .next (s.modCluster o.node fun k => { k with claims := rest k.claims ++ (if o.flag then [c] else []), seen := rest k.seen ++ (if o.flag then [c] else []) })) ∧
    (∃ s', exec .boostBoundary s = .next s' ∧ s'.Due (s.tick + 10500) .boostBoundary o ∧ s'.grants ≤ max 16 s.grants ∧ (∀ i, i < 32 →
        let k := K i
        let k' := s'.cluster i
        (k.grant = true → k.seen = [] ∨ k.forced = true → k'.grant = false ∧ k'.freq = 0) ∧
        (k.grant = true → k.seen ≠ [] → k.forced = false → k.fall = true → k.raised = true → k'.grant = false ∧ k'.freq = 0 ∧ k'.claims = [] ∧ k'.seen = [] ∧ k'.exh = true) ∧
        (k.grant = true → k.seen ≠ [] → k.forced = false → k.fall = false → 1 ≤ k.balance → k.raised = true → k'.grant = true ∧ k'.fall = false ∧ k'.balance = k.balance - 1 ∧ k'.freq = (if s.rail = .high then 2 else k.freq)) ∧
        (k.grant = true → k.seen ≠ [] → k.forced = false → k.fall = false → k.balance = 0 → k.raised = true → k'.grant = true ∧ k'.fall = true ∧ k'.freq = (if s.rail = .high then 1 else k.freq) ∧ k'.balance = 0) ∧
        (k.grant = false → k.seen = [] → k.raised = false → k'.grant = false ∧ (3 ≤ k.streak → k'.balance = min 64 (k.balance + 1) ∧ k'.exh = false) ∧ (k.streak < 3 → k'.balance = k.balance ∧ k'.streak = k.streak + 1))) ∧
      ((∀ j, j < 32 → (K j).grant = false) → ((∀ j, j < 32 → (K j).seen = []) → s'.rail = .low) ∧
        ∀ i, i < 32 → (K i).seen ≠ [] → 1 ≤ (K i).balance → (K i).forced = false → s.clusterGated i = false → (∀ j, j < 32 → j ≠ i → (K j).seen = []) →
          (s'.cluster i).grant = true ∧ (s'.cluster i).balance = (K i).balance - 1 ∧ (s.rail = .low → s'.rail = .rising s.tick ∧ s'.DueAfter s.tick .railSettled (opId s.tick)))) ∧
    (∀ i, s.bestClaimant = some i → ((K i).seen ≠ [] ∧ (K i).grant = false ∧ 1 ≤ (K i).balance ∧ (K i).forced = false) ∧ ∀ j, j < 32 → j ≠ i → (K j).seen ≠ [] → (K j).grant = false → 1 ≤ (K j).balance → (K j).forced = false →
      s.claimPriority (K j) < s.claimPriority (K i) ∨ (s.claimPriority (K j) = s.claimPriority (K i) ∧ ((K j).balance < (K i).balance ∨ ((K j).balance = (K i).balance ∧ i < j)))) ∧
    (s.rail = .rising o.id → ∃ s', exec .railSettled s = .next s' ∧ s'.rail = .high ∧ ∀ i, i < 32 → s'.cluster i = if (K i).grant then { K i with freq := if (K i).fall then 1 else 2, raised := true } else K i)

/-- For every state and command that the mailbox carries out for the owner. CTX_CREATE of a number that is not live, with fields in range:
the context is CREATED with them. CTX_BIND of a CREATED one to free clusters: BOUND, its epoch one more; to taken ones: code 5.
CTX_FREEZE of a RUNNING one: its wave is due at the tick it gives, its resident strands get cause 7 unless it is now, and the command
stays busy. FREEZE_START sends a marker to each tile; FREEZE_MARKER stops a tile, whose capsules in its router are captured (every
other packet stays), and the last one completes the wave; FREEZE_COMPLETE, once nothing of the context is under way, makes it FROZEN,
or destroys it. CTX_EVICT of a FROZEN one begins, and EVICT_DONE writes the image, keeps the tiles and releases the clusters: EVICTED.
CTX_THAW of a BOUND or FROZEN one: RUNNING, its stopped tiles run and their channel state is performed first; memory is as before
unless one from BOUND has still to set the rings' control blocks. CTX_DESTROY: at once, or by a wave of a RUNNING one, and with no
effect on a DESTROYED one. Each of them from another state ends with status 3. MEET_ENTRY_CLEAR removes the entry. -/
def Obligations.ContextLifecycleEffects : Prop :=
  ∀ (s : State) (c : Command) (n : Nat),
    let x := s.ctx n
    let o := s.ev
    let own (i : Instr) (ms : List Nat) : Prop := s.Commands c i true ms
    let wrong (i : Instr) : Prop := exec i s = .next (s.finish 3 0 [])
    (own .ctxCreate [0x7FFF, 0x1F3F, 0x1F1F, mask64, mask64, mask64, mask64, mask64] → n = c.arg 1 % 2 ^ 12 → n ≠ 0 →
      let nq := c.arg 2 % 2 ^ 6 + 1; let qcap := c.arg 2 / 2 ^ 8 % 2 ^ 5; let fcap := c.arg 3 % 2 ^ 5; let pcap := c.arg 3 / 2 ^ 8 % 2 ^ 5;
      (∀ k ∈ [qcap, fcap, pcap], 6 ≤ k ∧ k ≤ 16) → c.arg 4 % 2 ^ 16 = 0 → c.arg 4 + ringAreaSize nq qcap fcap pcap ≤ 2 ^ 52 → c.arg 5 % 64 = 0 → 1 ≤ c.arg 6 → c.arg 6 ≤ 2 ^ 24 → c.arg 5 + 64 * c.arg 6 ≤ 2 ^ 52 →
      c.arg 7 + 0x4000 * (2 ^ fcap + 2 ^ pcap) ≤ 2 ^ 52 → c.arg 8 = 0 ∨ 12 ≤ c.arg 8 → c.arg 8 ≤ 30 →
      (x.st ≠ .none → x.st ≠ .destroyed → wrong .ctxCreate) ∧
      (x.st = .none ∨ x.st = .destroyed → (∀ p ∈ s.pkts, p.2.ctx ≠ n) → ∃ (s' : State), exec .ctxCreate s = .next (s'.finish 0 0 []) ∧
        (let y := s'.ctx n; y.st = .created ∧ y.cpri = c.arg 1 / 2 ^ 12 % 2 ^ 3 ∧ y.launchQs = List.replicate nq LaunchQ.reset ∧ y.qcap = qcap ∧ y.fcap = fcap ∧ y.pcap = pcap ∧ y.ringBase = c.arg 4 ∧ y.poolBase = c.arg 5 ∧
          y.poolCount = c.arg 6 ∧ y.spillBase = c.arg 7 ∧ y.aging = (if c.arg 8 = 0 then 20 else c.arg 8) ∧ y.region = none ∧ y.kernels = [] ∧ y.pool = []) ∧ (∀ k, k ≠ n → s'.ctx k = s.ctx k) ∧ s'.mem = s.mem)) ∧
    (own .ctxBind [mask64, 0x3737, mask64] → n = c.arg 1 → 1 ≤ n → n < 4096 → c.arg 3 = 0 →
      let a := c.arg 2; let r : Region := ⟨a % 2 ^ 3, a / 2 ^ 4 % 2 ^ 2, a / 2 ^ 8 % 2 ^ 3 + 1, a / 2 ^ 12 % 2 ^ 2 + 1⟩; r.ox + r.w ≤ 8 → r.oy + r.h ≤ 4 →
      (x.st = .created → s.regionTaken r = false → exec .ctxBind s = .next ((s.modCtx n fun x => { x with st := .bound, region := some r, epoch := (x.epoch + 1) % 2 ^ 16 }).finish 0 0 [])) ∧
      (x.st = .created → s.regionTaken r = true → exec .ctxBind s = .next (s.finish 7 5 [])) ∧ (x.st ≠ .created → wrong .ctxBind)) ∧
    (own .ctxFreeze [mask64, mask64] → n = c.arg 1 → 1 ≤ n → n < 4096 → c.arg 2 ≤ 2 ^ 24 →
      (x.st ≠ .running → wrong .ctxFreeze) ∧
      (x.st = .running → s.waveOf n = none → ∃ s', exec .ctxFreeze s = .next s' ∧ s'.waves = s.waves ++ [⟨n, s.tick + c.arg 2, false, [], false⟩] ∧ s'.Due (s.tick + c.arg 2) .freezeStart (opId n) ∧ c ∈ s'.waiting ∧
        (c.arg 2 ≠ 0 → ∀ p ∈ s.tiles, x.holds p.1 = true → ∀ k, k < 8 → (s.strand p.1 k).st ≠ .free → ∃ r, r ∈ (s'.strand p.1 k).causes ∧ r.cause = 7))) ∧
    (∀ w, s.waveOf o.id = some w → w.begun = false → ∃ s', exec .freezeStart s = .next s' ∧ (s'.ctx o.id).waving = true ∧ s'.waveOf o.id = some { w with begun := true, left := (s.ctx o.id).tiles } ∧
      ∀ t, t ∈ (s.ctx o.id).tiles → s'.Sends vnConfig (edgeTile (s.ctx o.id).home) t .freezeMarker (opTileId t o.id)) ∧
    (let t := o.tile; let mine (p : Packet) : Prop := p.at_ = t ∧ p.vn = vnCapsule ∧ p.carrier = false ∧ p.queued = true ∧ p.sent = 0 ∧ p.ctx = o.id;
      (s.tile t).stopped = false → ∃ s', exec .freezeMarker s = .next s' ∧ (s'.tile t).stopped = true ∧ (s'.tile t).stoppedAt = s.tick ∧ (s'.tile t).strands = (s.tile t).strands ∧ (s'.tile t).core = (s.tile t).core ∧
        (∀ i, SMap.lookup s'.pkts i ≠ none ↔ SMap.lookup s.pkts i ≠ none ∧ ∀ q ∈ s.pkts, q.1 = i → ¬mine q.2) ∧ (∀ q ∈ s'.pkts, ∃ p ∈ s.pkts, p.1 = q.1 ∧ { q.2 with headAt := p.2.headAt } = p.2) ∧ (∀ q, q ∈ s.pkts → mine q.2 → { q.2 with burst := none } ∈ (s'.tile t).capHeld) ∧
        ∀ w, s.waveOf o.id = some w → s'.waveOf o.id = some { w with left := w.left.filter fun u => u ≠ t } ∧ (w.begun = true → (∀ u, u ∈ w.left → u = t) → s'.Due s.tick .freezeComplete (opId o.id))) ∧
    (∀ w r, s.waveOf o.id = some w → (s.ctx o.id).region = some r → w.begun = true → w.left = [] →
      (s.underWay o.id = true → ∃ s', exec .freezeComplete s = .next s' ∧ s'.ctx o.id = s.ctx o.id ∧ s'.Due (s.tick + 1) .freezeComplete (opId o.id)) ∧
      (s.underWay o.id = false → ∃ s', exec .freezeComplete s = .next s' ∧ (s'.ctx o.id).st = (if w.destroy then .destroyed else .frozen) ∧ (s'.ctx o.id).ftick = s.tick ∧ (s'.ctx o.id).waving = false ∧ s'.waveOf o.id = none ∧
        ∀ d ∈ s.waiting, d.opcode = 0x0012 → d.arg 1 = o.id → d.gone = false → d ∉ s'.waiting ∧ (s'.master d.master).mbst.getLsbD 0 = true)) ∧
    (own .ctxEvict [mask64, mask64] → n = c.arg 1 → 1 ≤ n → n < 4096 → c.arg 2 % 2 ^ 16 = 0 → c.arg 2 ≠ 0 → c.arg 2 < 2 ^ 52 →
      (x.st ≠ .frozen → wrong .ctxEvict) ∧ (x.st = .frozen → ∃ s', exec .ctxEvict s = .next s' ∧ s'.ctx n = x ∧ s'.mcp = s.mcp ∧ s'.DueAfter s.tick .evictDone { opId n with word := BitVec.ofNat 64 (c.arg 2) })) ∧
    (∀ r, (s.ctx o.id).st = .frozen → (s.ctx o.id).region = some r → ∃ (s' : State) (g : Image), exec .evictDone s = .next (s'.finish 0 0 []) ∧ (s'.ctx o.id).st = .evicted ∧ (s'.ctx o.id).region = none ∧
      SMap.lookup s'.images s.ids = some g ∧ g.ctx = o.id ∧ g.region = r ∧ g.tiles = r.sections.map (fun t => s.tile t) ∧ s'.mem = ({ s with ids := s.ids + 1 }.writeImage o.id o.word.toNat s.ids r).mem ∧
      (∀ t k, r.holds t = true → (s'.strand t k).st = .free ∧ (s'.tile t).stopped = false) ∧ ∀ t, r.holds t = false → s'.tile t = s.tile t) ∧
    (own .ctxThaw [mask64] → n = c.arg 1 → 1 ≤ n → n < 4096 → (x.st ≠ .bound → x.st ≠ .frozen → wrong .ctxThaw) ∧
      ∀ r, x.st = .bound ∨ x.st = .frozen → x.region = some r → ∃ (s' : State), exec .ctxThaw s = .next (s'.finish 0 0 []) ∧ (s'.ctx n).st = .running ∧ (x.st = .frozen ∨ x.ringsSet = true → s'.mem = s.mem) ∧ ∀ t, t ∈ r.tiles → (s'.tile t).stopped = false ∧
        ((s.tile t).stopped = true → (s'.tile t).capHeld = [] ∧ ∀ q, q ∈ (s.tile t).chan → q.1 ≠ .capsuleParkTimeout → s'.Due s.tick q.1 q.2)) ∧
    (own .ctxDestroy [mask64] → n = c.arg 1 → 1 ≤ n → n < 4096 →
      (x.st = .none → wrong .ctxDestroy) ∧ (x.st = .destroyed → exec .ctxDestroy s = .next (s.finish 0 0 [])) ∧
      (x.st ≠ .none → x.st ≠ .destroyed → x.st ≠ .running → ∃ (s' : State), exec .ctxDestroy s = .next (s'.finish 0 0 []) ∧ (s'.ctx n).st = .destroyed ∧ (s'.ctx n).region = none ∧ (s'.ctx n).kernels = [] ∧ (s'.ctx n).held = [] ∧
        (∀ p ∈ s'.launches, p.2.ctx ≠ n) ∧ (∀ p ∈ s'.reqs, p.2.ctx ≠ n) ∧ (∀ p ∈ s'.streams, p.2.ctx ≠ n) ∧ (∀ p ∈ s'.images, p.2.ctx ≠ n) ∧ (∀ m ∈ s'.meets, m.ctx ≠ n) ∧
        ∀ r, x.region = some r → ∀ t k, r.holds t = true → (s'.strand t k).st = .free) ∧
      (x.st = .running → s.waveOf n = none → ∃ s', exec .ctxDestroy s = .next s' ∧ s'.waves = s.waves ++ [⟨n, s.tick, false, [], true⟩] ∧ s'.Due s.tick .freezeStart (opId n) ∧ s'.mcp = some c)) ∧
    (s.phase = 5 → s.owner = .owned o.strand → ∃ s', exec .meetEntryClear s = .next s' ∧ s'.mem = s.mem ∧ ∀ m, m ∈ s'.meets ↔ m ∈ s.meets ∧ ¬(m.die = o.node ∧ m.ctx = o.id ∧ m.mtag = o.arg))

/-- For every state and command that the mailbox carries out. A command ends with its results after a zero word, DONE, its tag, detail and
status, OVR kept; a reserved bit gives status 1, a master without the right 2. CLAIM makes its master owner of an unowned module,
joins an election, or names the owner; HANDOVER passes ownership; RESET resets; STATUS tells of a context and zeroes its count;
QUEUE_PAUSE and QUEUE_RESUME set the mask's queues; PT_ROOT sets the table, and with it, once, the rings' control blocks;
TLB_SHOOTDOWN and PAGE_MIGRATE stay busy, the latter with MIG 1 written; PAGE_RECLAIM of an unpinned discarded page writes DS 2, a
pinned one gives 5; RAW_READ gives a line's tag and stored bytes, SENSOR_READ the readings in the form the model leaves free,
COUNTER_READ an energy account or a link counter, which it clears, EVENT_READ the oldest entry; KERNEL_INSTALL of an image that passes
the checks fills the lowest free slot, else the first code; KERNEL_REMOVE empties a slot; ATTEST, IDENTITY_CERT and OUTPUT_READ as the
report and the output buffer are. -/
def Obligations.MailboxCommandEffects : Prop :=
  ∀ (s : State) (c : Command),
    let n := c.arg 1
    let x := s.ctx n
    let run (i : Instr) (own : Bool) (ms : List Nat) : Prop := s.Commands c i own ms
    let ends (i : Instr) (t : State) (st d : Nat) (rs : List Nat) : Prop := exec i s = .next (t.finish st d rs)
    let live := x.st ≠ .none ∧ x.st ≠ .destroyed
    let ctxOk := 1 ≤ n ∧ n < 4096
    let owns (i : Instr) (m : Nat) (rs : List Nat) : Prop := ∃ (s' : State), ends i s' 0 0 rs ∧ s'.owner = .owned m ∧ (m ∈ s.d3hot ∨ s.linkLost m = true → s'.Due s.tick .ownerLost { Operand.zero with node := m }) ∧
      (m ∉ s.d3hot → s.linkLost m = false → s' = { s with owner := .owned m })
    (∀ st d rs, s.mcp = some c → c.gone = false → s.mcpQ = [] → s.finish st d rs = { s.modMaster c.master fun m => { m with
      response := ((0 : W64) :: rs.map (fun r => BitVec.ofNat 64 r) ++ List.replicate 32 0).take 32
      mbst := BitVec.ofNat 64 (c.tag * 2 ^ 48 + d % 2 ^ 16 * 2 ^ 32 + st % 2 ^ 8 * 2 ^ 24 + m.mbst.toNat / 4 % 2 * 4 + 1) } with mcp := none, mcpQ := [] }) ∧
    (s.mcp = some c → (commandOf c = some .handover → s.phase ≠ 5 → ends .handover s 3 0 []) ∧ (commandOf c = some .handover → s.phase = 5 → s.owner ≠ .owned c.master → ends .handover s 2 0 []) ∧
      (commandOf c = some .handover → s.phase = 5 → s.owner = .owned c.master → c.clean [mask64] = false → ends .handover s 1 0 [])) ∧
    (run .claim false [] → (s.owner = .unowned → owns .claim c.master [c.master]) ∧ (∀ m, s.owner = .owned m → ends .claim s 3 0 [m]) ∧
      (∀ e, s.owner = .electing e → ∃ s', exec .claim s = .next s' ∧ c ∈ s'.waiting ∧ s'.owner = s.owner)) ∧
    (run .handover true [mask64] → (s.masterPresent n = true → owns .handover n []) ∧ (s.masterPresent n = false → ends .handover s 4 0 [])) ∧
    (run .reset true [] → exec .reset s = .next { State.reset with fresh := s.fresh + 1, bifurcated := Config.strap s.fresh }) ∧
    (run .status false [mask64] → ctxOk → ends .status (if x.st = .none then s else s.modCtx n fun x => { x with done := 0 }) 0 0 [(Config.ctxStateWord x.st.index (!x.held.isEmpty)).toNat, x.done, x.lastErr.1, x.lastErr.2]) ∧
    (run .queuePause true [mask64, mask64] → ctxOk → live → c.arg 2 < 2 ^ x.launchQs.length → ends .queuePause (s.modCtx n fun x => { x with launchQs := x.launchQs.mapIdx fun i q => { q with fw := (c.arg 2).testBit i || q.fw } }) 0 0 []) ∧
    (run .queueResume true [mask64, mask64] → ctxOk → live → c.arg 2 < 2 ^ x.launchQs.length →
      ∃ (s' : State), ends .queueResume s' 0 0 [] ∧ s'.ctx n = { x with launchQs := x.launchQs.mapIdx fun i q => { q with fw := !(c.arg 2).testBit i && q.fw } } ∧ s'.mem = s.mem) ∧
    (run .ptRoot true [mask64, mask64] → ctxOk → live → (c.arg 2 % 4096 = 0 → isUsableHbm (c.arg 2) = true → ends .ptRoot ((s.modCtx n fun x => { x with root := c.arg 2 }).resetRings n) 0 0 []) ∧ (c.arg 2 % 4096 ≠ 0 → ends .ptRoot s 4 0 [])) ∧
    (run .tlbShootdown true [mask64, mask64, mask64] → ctxOk → live → c.arg 2 < 2 ^ 52 → c.arg 3 ≤ 2 ^ 36 → ∃ s', exec .tlbShootdown s = .next s' ∧ s'.mcp = some c ∧ s'.tlb = s.tlb ∧
      s'.DueAfter s.tick .shootdownComplete { Operand.zero with node := c.master, id := n, word := BitVec.ofNat 64 (c.arg 2), arg := c.arg 3 }) ∧
    (run .pageMigrate true [mask64, mask64, mask64] → ctxOk → live → c.arg 2 < 2 ^ 52 → c.arg 3 < 2 ^ 32 → ∀ leaf w level, s.pageWalk n (c.arg 2) = some (leaf, w, level) →
      let size := levelSize level; let pa := c.arg 3 * 2 ^ 16;
      (leafDS w ≠ 0 ∨ leafMig w ≠ 0 → ends .pageMigrate s 5 0 []) ∧
      (leafDS w = 0 → leafMig w = 0 → s.jobOf leaf = none → frameOk (c.arg 3) size = true → pa % size = 0 → leafP w = false → ∃ s' i, exec .pageMigrate s = .next s' ∧ s'.mcp = some c ∧ s'.DueAfter s.tick .migrationCopyStart (opId i) ∧
        SMap.lookup s'.pageJobs i = some ⟨.drain, n, c.arg 2 / size * size, leaf, size, c.arg 3, decide (hostBase ≤ pa), some c.master⟩ ∧ s'.mem = (s.writeLeaf leaf (setField w 56 3 1)).mem ∧ s'.tlb = s.tlb.filter fun e => e.leaf ≠ leaf)) ∧
    (run .pageReclaim true [mask64, mask64] → ctxOk → live → c.arg 2 < 2 ^ 52 → ∀ leaf w level, s.pageWalk n (c.arg 2) = some (leaf, w, level) →
      (SMap.get s.pins 0 leaf ≠ 0 → ends .pageReclaim s 5 0 []) ∧ (SMap.get s.pins 0 leaf = 0 → leafDS w ≠ 1 → ends .pageReclaim s 3 0 []) ∧
      (SMap.get s.pins 0 leaf = 0 → leafDS w = 1 → ∃ (s' : State) (i : Nat), ends .pageReclaim s' 0 0 [] ∧ s'.DueAfter s.tick .reclaimDone (opId i) ∧ s'.mem = (s.writeLeaf leaf (setField w 4 2 2)).mem ∧ s'.tlb = s.tlb.filter (fun e => e.leaf ≠ leaf) ∧
        (SMap.lookup s'.pageJobs i).map (fun j => (j.kind, j.leaf, j.size)) = some (.reclaim, leaf, levelSize level))) ∧
    (run .rawRead true [mask64] → (isUsableHbm n = true → n % 128 = 0 → ends .rawRead s 0 0 (s.tagOf (n / 128) :: (List.range 16).map fun k => leNat (memRead s.mem (n + 8 * k) 8))) ∧ (isUsableHbm n = false → ends .rawRead s 4 0 [])) ∧
    (run .sensorRead false [mask64] → (n < 32 → let k := s.cluster n; let marks := (k.sensors.map fun x => if x.suspect then 1 else 0) ++ [if k.forced then 1 else 0];
      ends .sensorRead s 0 0 ((k.sensors.map fun x => (Config.sensorWord x.raw).toNat) ++ [(Config.markWord marks).toNat])) ∧ (32 ≤ n → ends .sensorRead s 4 0 [])) ∧
    (run .counterRead false [mask64, mask64, mask64] → (n = 0 → c.arg 2 < 4096 → let a := SMap.get s.energy (0, 0) (c.arg 2); ends .counterRead s 0 0 [a.1 % 2 ^ 64, a.2 % 2 ^ 64]) ∧
      (∀ id k, n = 1 → canonicalLink (c.arg 2) = some id → c.arg 3 = k → k < 8 → k ≠ 5 → let e := if id = c.arg 2 then 0 else 1; ∃ (s' : State), ends .counterRead s' 0 0 [((s.link id).counts.getD e []).getD k 0] ∧
        ((s'.link id).counts.getD e []).getD k 0 = 0 ∧ (s'.link id).st = (s.link id).st) ∧ (1 < n → ends .counterRead s 4 0 [])) ∧
    (run .eventRead false [] → (s.log = [] → ends .eventRead s 0 0 [0, 0, 0, 0]) ∧ (∀ e r, s.log = e :: r → ends .eventRead { s with log := r } 0 0 ((List.range 4).map fun k => (Config.eventWord (e.kind :: e.tick :: e.data) k).toNat))) ∧
    (run .kernelInstall true [mask64, mask64, 0x7_7FF1_FF37] → ctxOk → live → ∀ raw, c.arg 2 % 4096 = 0 → c.arg 2 < 2 ^ 52 → s.ctxRead n (c.arg 2) 4096 = some raw →
      let va := c.arg 2; let page := stampHeader raw (c.arg 3); let s1 := s.ctxWrite n va (page.take 128); let h := headerOf page; let slates := (List.range h.nslt).all fun i => slateOk (s1.imageBytes n (va + 0x1000 * (i + 1)) 0x1000);
      (headerRefusal page ≠ 0 → ends .kernelInstall s1 7 (headerRefusal page) []) ∧ (headerRefusal page = 0 → slates = false → ends .kernelInstall s1 7 8 []) ∧
      (∀ k, headerRefusal page = 0 → slates = true → (s1.ctx n).freeKernel = some k → ∃ (s' : State) (e : Kernel), ends .kernelInstall s' 0 0 [k] ∧ SMap.lookup (s'.ctx n).kernels k = some e ∧ e.st = .installed ∧ e.va = va ∧ e.live = 0 ∧ e.hdr = { h with kslot := k, base := va } ∧
        (∀ j, j ≠ k → SMap.lookup (s'.ctx n).kernels j = SMap.lookup x.kernels j) ∧ s'.mem = (s1.ctxWrite n va (setWord (setWord (page.take 128) 0 (putBits (wordAt page 0) 0 16 k)) 2 va)).mem) ∧
      (headerRefusal page = 0 → slates = true → (s1.ctx n).freeKernel = none → ends .kernelInstall s1 7 9 [])) ∧
    (run .kernelRemove true [mask64, mask64] → ctxOk → (256 ≤ c.arg 2 → ends .kernelRemove s 4 0 []) ∧ (c.arg 2 < 256 → SMap.lookup x.kernels (c.arg 2) = none → ends .kernelRemove s 3 0 []) ∧
      (∀ k, c.arg 2 < 256 → SMap.lookup x.kernels (c.arg 2) = some k → (k.st ≠ .installed → ends .kernelRemove s 5 0 []) ∧ (k.st = .installed → ∃ (s' : State), ends .kernelRemove s' 0 0 [] ∧ SMap.lookup (s'.ctx n).kernels (c.arg 2) = none ∧
        ∀ t q, (s'.tile t).kernel = some q → ¬(q.1 = n ∧ q.2.kslot = c.arg 2)))) ∧
    (let out (i : Instr) (bs : List Byte) : Prop := ends i (s.modMaster c.master fun m => { m with output := bs }) 0 0 [bs.length];
      (run .attest false (List.replicate 6 mask64) → let ks := s.installedKernels;
        let body := leBytes 2 0x4154 ++ leBytes 2 1 ++ leBytes 4 (176 + 64 * ks.length + 96) ++ ((List.range 6).flatMap fun i => leBytes 8 (c.arg (i + 1))) ++ fitBytes 48 Config.romHash ++ fitBytes 48 Config.fuseHash ++ leBytes 8 s.tick ++
          leBytes 4 ks.length ++ List.replicate 12 0 ++ (ks.flatMap fun k => leBytes 2 k.1 ++ leBytes 2 k.2.1 ++ List.replicate 12 0 ++ fitBytes 48 k.2.2.digest);
        let sig := ecdsaSign Config.privateKey (beNat (sha384 body)) ((List.range 2).map fun i => Config.signingNonce (s.fresh + i));
        let bs := body ++ (beBytes 48 sig.1 ++ beBytes 48 sig.2);
        ends .attest (({ s with fresh := s.fresh + 2 } : State).modMaster c.master fun m => { m with output := bs }) 0 0 [bs.length]) ∧
      (run .identityCert false [] → out .identityCert Config.certificate)) ∧
    (run .outputRead false [mask64] → let bs := ((s.master c.master).output.drop n).take 240; ends .outputRead s 0 0 (bs.length :: (List.range 30).map fun i => leNat ((bs.drop (8 * i)).take 8)))

/-- For every state and link command that the mailbox carries out for the owner, on the link that the identifier's name stands for: a DOWN
link trains on action 0 and a FENCED one on 1 and 2, the latter with its four spare lanes a plane back and both halves in use; a link
that carries and is not a Y link becomes DRAINING on 3, and is fenced in this tick once every direction is acknowledged; 4 sets a
window of a power of two from 2 to the 16 to 2 to the 26 ticks and a threshold of 1 to 1024; 5 sets or clears the message vector (the
packing of both parameters is the model's choice, assumption 35). A link in another state gives status 3, a name of no link 4. -/
def Obligations.LinkCommandEffects : Prop :=
  ∀ (s : State) (c : Command) (id : Nat),
    let l := s.link id
    let run (i : Instr) (p : Nat) : Prop := s.Commands c i true [mask64, mask64, p]
    let ends (i : Instr) (t : State) (st : Nat) : Prop := exec i s = .next (t.finish st 0 [])
    let trains (i : Instr) (f : Link → Link) : Prop := ∃ (s' : State), ends i s' 0 ∧ s'.DueAfter s.tick .linkTrainingDone (opId id) ∧ (s'.link id).st = .training ∧ (s'.link id).since = s.tick ∧ (s'.link id).dirs = l.dirs ∧
      (s'.link id).spares = (f l).spares ∧ (s'.link id).halves = (f l).halves ∧ (s'.link id).failing = (f l).failing ∧ s'.pkts = s.pkts
    (canonicalLink (c.arg 1) = none → (run .linkTrain 0 → ends .linkTrain s 4) ∧ (run .linkDrain 0 → ends .linkDrain s 4) ∧ (run .linkSetRwinRthr mask64 → ends .linkSetRwinRthr s 4)) ∧
    (canonicalLink (c.arg 1) = some id →
      (run .linkTrain 0 → (l.st = .down → trains .linkTrain fun l => l) ∧ (l.st ≠ .down → ends .linkTrain s 3)) ∧
      (run .linkRetrain 0 → (l.st = .fenced → trains .linkRetrain fun l => l) ∧ (l.st ≠ .fenced → ends .linkRetrain s 3)) ∧
      (run .linkRetrainLaneReset 0 → (l.st = .fenced → trains .linkRetrainLaneReset fun l => { l with spares := [4, 4], halves := [none, none], failing := [] }) ∧ (l.st ≠ .fenced → ends .linkRetrainLaneReset s 3)) ∧
      (run .linkDrain 0 → (linkIsY id = true ∨ l.carries = false → ends .linkDrain s 3) ∧
        (linkIsY id = false → l.carries = true → ∃ (s' : State), ends .linkDrain s' 0 ∧ (s'.link id).st = .draining ∧ (s'.link id).dirs = l.dirs ∧ s'.pkts = s.pkts ∧ s'.log = s.log ∧
          ((∀ d ∈ l.dirs, d.unacked = []) → s'.Due s.tick .linkDrainAcknowledged (opId id)))) ∧
      (run .linkSetRwinRthr mask64 → let w := c.arg 3 % 2 ^ 32; let h := c.arg 3 / 2 ^ 32;
        ((∃ k, k ≤ 10 ∧ w = 2 ^ (16 + k)) → 1 ≤ h → h ≤ 1024 → ends .linkSetRwinRthr (s.modLink id fun l => { l with rwin := w, rthr := h }) 0) ∧
        ((∀ k, k ≤ 10 → w ≠ 2 ^ (16 + k)) ∨ h = 0 ∨ 1024 < h → ends .linkSetRwinRthr s 4)) ∧
      (run .linkEventMsixEnable 0xFFF → c.arg 2 ≤ 5 → ends .linkEventMsixEnable (s.modLink id fun l => { l with msix := if (c.arg 3).testBit 11 then some (c.arg 3 % 2048) else none, cmdFrom := some c.master }) 0))

/-- For every instruction and every state. An instruction that has a word (R55 to R63), which a slot issues, answers a next state whenever
a strand issues on the current tile, and the fault that says so when none does; an event or a command of the host answers a next state
in every state. The fault is the model's own: step never performs a move without an issuing strand. -/
def Obligations.InstructionsNeverRefused : Prop :=
  ∀ (i : Instr) (s : State),
    (isMove i = true → s.issuer ≠ none → ∃ t, exec i s = .next t) ∧
    (isMove i = true → s.issuer = none → exec i s = .fault .noIssuer) ∧
    (isMove i = false → ∃ t, exec i s = .next t)

/-- When the tile at its turn issues (pass 1 plain moves and control items, pass 2 triggers), slot k of its strand has not issued and
comes to a word of that kind that decodes to i, step is exec of i at that state, with k the slot at hand, the next slot or pass after
it, and the strand as the event's operand. Between tiles the first event of the agenda that is due is performed with its operand and
is no longer in the agenda; the events that a core performs at the start and end of its step are performed in turn. So every statement
about exec is one about step. -/
def Obligations.StepRunsDecoded : Prop :=
  ∀ (s : State),
    (∀ t n pass k w i, s.cur = some t → (s.core t).phase = .issue pass k → pass = 1 ∨ pass = 2 → (s.core t).issuing = some n → s.wordOf t n k = some w → isTriggerWord w = decide (pass = 2) → k ∉ (s.core t).issued → decodeMove w = .ok i →
      step s = exec i { (s.modCore t fun co => { co with slot := k, phase := nextIssue pass k }) with ev := opStrand t n }) ∧
    (∀ tick order i o rest, s.cur = none → s.agenda = (tick, order, i, o) :: rest → tick ≤ s.tick → step s = exec i { s with agenda := rest, ev := o }) ∧
    (∀ t i o rest, s.cur = some t → (s.core t).phase = .start ∨ (s.core t).phase = .finish → (s.core t).todo = (i, o) :: rest → step s = exec i { (s.modCore t fun co => { co with todo := rest }) with ev := o })

/-- Words written out bit by bit from the fields of R55 (form, S, source, W, destination), R61 and R62 decode to the instruction they
stand for, one for each unit and each kind of move, the three examples of R85 among them; and six words that break a rule of R56 to
R64 decode to the trap that the rule names. -/
def Obligations.WordsDecode : Prop :=
  (decodeMove 0b00_1_0000000101_0_0011000011 = .ok (.move true (.m 5) (.v 3)) ∧ decodeMove 0b00_0_1111111111_0_0010000010 = .ok (.move false (.imm 511) (.s 2)) ∧
    decodeMove 0b00_0_0011100001_0_1011000000 = .ok (.operandPortWrite false (.special .one) 6 0) ∧ decodeMove 0b00_0_0000000000_0_0011100001 = .ok (.loopCounterWrite false (.m 0) true) ∧
    decodeMove 0b01_0000000000000000000101 = .ok (.longImmediatePrefix 5) ∧ decodeMove 0b10_0_00001_0000000000000000 = .ok (.yield false) ∧ decodeMove 0b10_1_00010_0000000000_01_10_01 = .ok (.suspendF true 2 1) ∧
    decodeMove 0b10_0_00101_00000000_10000001 = .ok (.waitk false 0x81)) ∧
  (let t (w : Bool) : Trig := ⟨false, .special .one, w⟩
   decodeMove 0b00_0_0011100001_0_1000000100 = .ok (.br (t false)) ∧ decodeMove 0b00_0_0011100001_0_1000100101 = .ok (.rdsr (t false)) ∧ decodeMove 0b00_0_0011100001_1_1001000100 = .ok (.add (t true) false) ∧
    decodeMove 0b00_0_0011100001_0_1001100101 = .ok (.sub (t false) true) ∧ decodeMove 0b00_0_0011100001_0_1010001100 = .ok (.mad (t false)) ∧ decodeMove 0b00_0_0011100001_0_1010100100 = .ok (.xa (t false)) ∧
    decodeMove 0b00_0_0011100001_1_1011001010 = .ok (.ldd (t true)) ∧ decodeMove 0b00_0_0011100001_0_1011100100 = .ok (.send (t false)) ∧ decodeMove 0b00_0_0011100001_0_1100000100 = .ok (.aadd (t false)) ∧
    decodeMove 0b00_0_0011100001_0_1100101101 = .ok (.nextw (t false)) ∧ decodeMove 0b00_0_0011100001_0_1101000100 = .ok (.addF32 (t false)) ∧ decodeMove 0b00_0_0011100001_0_1101100100 = .ok (.cmpeqF32 (t false)) ∧
    decodeMove 0b00_0_0011100001_0_1110000101 = .ok (.rcp (t false)) ∧ decodeMove 0b00_0_0011100001_0_1110100101 = .ok (.trin (t false)) ∧ decodeMove 0b00_0_0011100001_0_1111000100 = .ok (.push (t false)) ∧
    decodeMove 0b00_0_0011100001_0_1111100110 = .ok (.fire (t false))) ∧
  (decodeMove 0x001A88 = .ok (.div ⟨false, .m 3, false⟩) ∧ decodeMove 0x062B84 = .ok (.rsq ⟨false, .v 5, false⟩) ∧ decodeMove 0x047B0E = .ok (.frd ⟨false, .s 15, false⟩)) ∧
  (decodeMove 0b11_0000000000000000000000 = .error .illegalForm ∧ decodeMove 0b00_0_0011110110_0_0000000000 = .error .illegalSource ∧ decodeMove 0b00_0_0000000000_0_0010010000 = .error .illegalDestination ∧
    decodeMove 0b00_0_0000000000_1_0000000000 = .error .illegalDestination ∧ decodeMove 0b10_0_00110_0000000000000000 = .error .illegalForm ∧ decodeMove 0b10_0_00010_0000000000_10_01_01 = .error .illegalForm)

/-- For every instruction and every 24-bit word: if the instruction is well formed and the word is its encoding, the word decodes to it,
with every operand (S, source, W, destination, port, payload, carried count, receive slot, key mask) as it was; and if the word
decodes to an instruction, that instruction is well formed and the word is its encoding. So no bit of a word is dropped, no two words
stand for one instruction and no reserved encoding falls through to a neighbour. -/
def Obligations.DecodeAndEncodeAgree : Prop :=
  ∀ (i : Instr) (w : MoveWord),
    (i.wellFormed = true → encode i = some w → decodeMove w = .ok i) ∧ (decodeMove w = .ok i → i.wellFormed = true ∧ encode i = some w)

/-- For every state whose memory is in its canonical form (addresses strictly rising, no cell that holds what an unlisted address reads
as), a step that answers a next state leaves memory in that form: every store, commit, line, atomic, record, frame, image and host
write keeps it, so that equal memories are equal data. The form is the model's own. -/
def Obligations.MemoryFormKept : Prop :=
  ∀ s s' : State, s.MemOk → step s = .next s' → s'.MemOk

/-- The state after reset: tick 0, PHASE 0, no owner, no context, no packet, no command; memory lists nothing, in canonical form, and
every HBM line reads 128 zero bytes; on every tile every strand is free with KFLT 0, the array has weights and indexes 0, plane scales
1.0, mode 0, no override and 192 credits a lane, every accumulator word 0, and no slate is active; every link is DOWN with a window of
2 to the 20 and threshold 32, sequence numbers 0; every cluster holds 64 permits, no grant and no claim, at nominal frequency; the
first boost boundary is due at tick 10,500. What the spec gives no reset value for is the model's (assumption 2) and is not stated. -/
def Obligations.ResetState : Prop :=
  let s := State.reset
  s.tick = 0 ∧ s.phase = 0 ∧ s.owner = .unowned ∧ s.mem = [] ∧ s.MemOk ∧ s.pkts = [] ∧ s.mcp = none ∧ s.rail = .low ∧ s.Due 10500 .boostBoundary Operand.zero ∧
  (∀ n, (s.ctx n).st = .none) ∧ (∀ l, s.readLine l = some (List.replicate 128 0)) ∧
  (∀ t n, (s.strand t n).st = .free ∧ (s.strand t n).kflt = List.replicate 8 0) ∧
  (∀ t, let a := s.arr t
    (∀ p i, SMap.get (a.weights.getD p []) 0 i = 0 ∧ SMap.get (a.meta_.getD p []) 0 i = 0) ∧ a.scales = [0x3F800000, 0x3F800000] ∧ a.mode = 0 ∧ a.ovEn = false ∧ a.ovVal = 0 ∧ a.credits = List.replicate 8 192 ∧ a.inside = []) ∧
  (∀ t n i, SMap.get (s.node t n).store 0 i = 0) ∧ (∀ t, (s.collar t).act = false ∧ (s.collar t).sst = .empty ∧ (s.collar t).lidx = 0 ∧ (s.collar t).rcnt = 0) ∧
  (∀ i, (s.link i).st = .down ∧ (s.link i).rwin = 2 ^ 20 ∧ (s.link i).rthr = 32 ∧ (s.link i).spares = [4, 4] ∧ (s.link i).halves = [none, none] ∧ ∀ d, ((s.link i).dir d).nextSeq = 0 ∧ ((s.link i).dir d).expected = 0) ∧
  (∀ k, (s.cluster k).balance = 64 ∧ (s.cluster k).grant = false ∧ (s.cluster k).claims = [] ∧ (s.cluster k).freq = 0)

/-- For every state and each trigger of INA, INB, IMD, ADR (but openx) and VEC, whether it issues or stalls: when exec answers a next
state, nothing outside the issuing tile changes, memory included; on the tile every other strand is as it was; of the issuing strand
only the slots' progress changes, so no register, flag, special register, extent, exception record or store; of the core only the
results on their way (at most one more, of its unit), the slots that have issued or stalled, and the mark that a log is full. The
last-result register is written when the result emerges. -/
def Obligations.ComputeFrame : Prop :=
  ∀ (s s' : State) (c : Issuer) (t : Trig) (inb : Bool), s.issuer = some c →
    let y := s.tile c.tile
    let x := s.strand c.tile c.strand
    let co := s.core c.tile
    let frame (u : Nat) : Prop := s' = { s with tiles := s'.tiles } ∧ (∀ k, k ≠ c.tile → s'.tile k = s.tile k) ∧ (∀ n, n ≠ c.strand → s'.strand c.tile n = s.strand c.tile n) ∧
      (∃ q, s'.strand c.tile c.strand = { x with stream := { x.stream with slotSeq := q } }) ∧
      (∃ p i l f, s'.core c.tile = { co with pipe := p, issued := i, stalled := l, fullLog := f } ∧ (p = co.pipe ∨ ∃ r, p = co.pipe ++ [r] ∧ r.unit = u)) ∧
      s'.tile c.tile = { y with core := (s'.tile c.tile).core, strands := (s'.tile c.tile).strands }
    (∀ i ∈ [Instr.add t inb, .sub t inb, .and t inb, .or t inb, .xor t inb, .andn t inb, .shl t inb, .shr t inb, .sar t inb, .rol t inb, .min t inb, .max t inb, .minu t inb, .maxu t inb, .ceq t inb, .cne t inb, .clt t inb,
      .cltu t inb, .cle t inb, .cleu t inb, .sel t inb, .mov t inb, .clz t inb, .popc t inb, .addw t inb, .subw t inb, .bfx t inb, .bfi t inb], exec i s = .next s' → frame (if inb then 3 else 2)) ∧
    (∀ i ∈ [Instr.mul t, .mulh t, .mulhu t, .mulw t, .div t, .divu t, .rem t, .remu t, .mad t], exec i s = .next s' → frame 4) ∧
    (∀ i ∈ [Instr.xa t, .xab t, .xlen t, .idx t, .hdl t], exec i s = .next s' → frame 5) ∧
    (∀ i ∈ [Instr.addF32 t, .subF32 t, .mulF32 t, .fmaF32 t, .minF32 t, .maxF32 t, .absF32 t, .addH t, .mulH t, .fmaH t, .mulwlH t, .mulwhH t, .addB t, .fmaB t, .addI32 t, .subI32 t, .mulI32 t, .dot4I8 t, .addsI8 t, .vecAnd t, .vecOr t,
      .vecXor t, .vecShl t, .vecShr t, .vecSar t, .vecSel t], exec i s = .next s' → frame 10)

/-- For every state whose memory is in canonical form in which a load or store of LDS issues. After a load memory, every strand's
registers, flags and stores are as before: only the slots' progress, the result on its way and the banks in use change. After a store
outside a handler memory is unchanged; in a handler every byte outside the bytes of its pieces that lie in the scratchpad reads as
before, the pieces computed from the trigger value as the store itself computes them (the low bits cleared, the vector's granules, the
stride, the lanes); of the strand only the slots' progress, its store list and its flags on their way change, and of the core a commit
is asked for only by a store behind which a releasing fence waits (R427). No other tile or strand changes. -/
def Obligations.LoadStoreFrame : Prop :=
  ∀ (s s' : State) (c : Issuer) (t : Trig) (o : Opnds), s.MemOk →
    let y := s.tile c.tile
    let x := s.strand c.tile c.strand
    let X := low64 o.t
    let rest : Prop := s' = { s with tiles := s'.tiles, mem := s'.mem } ∧ (∀ k, k ≠ c.tile → s'.tile k = s.tile k) ∧ (∀ n, n ≠ c.strand → s'.strand c.tile n = s.strand c.tile n) ∧
      (∃ p i l f b g m, s'.core c.tile = { s.core c.tile with pipe := p, issued := i, stalled := l, fullLog := f, banks := b, gather := g, markReq := m }) ∧
      s'.tile c.tile = { y with core := (s'.tile c.tile).core, strands := (s'.tile c.tile).strands }
    let loadFrame : Prop := rest ∧ s'.mem = s.mem ∧ (s'.core c.tile).markReq = (s.core c.tile).markReq ∧ ∃ q, s'.strand c.tile c.strand = { x with stream := { x.stream with slotSeq := q } }
    let storeFrame (ps : List (Piece × List Byte)) : Prop := rest ∧ ((s'.core c.tile).markReq = (s.core c.tile).markReq ∨ s.commits c (storeNeed false false) = true) ∧ (x.depth = 0 → s'.mem = s.mem) ∧
      (∀ a, (∀ p ∈ ps, p.1.1 < scratchSize → a < tileBase c.tile + p.1.1 ∨ tileBase c.tile + p.1.1 + p.2.length ≤ a) → memByte s'.mem a = memByte s.mem a) ∧
      ∃ q g f, s'.strand c.tile c.strand = { x with stream := { x.stream with slotSeq := q }, stores := g, flagEvs := f }
    (s.Issues c 6 (loadNeed false false) t o → ∀ i ∈ [Instr.ldb t, .ldbs t, .ldh t, .ldhs t, .ldw t, .ldws t, .ldd t, .ldv t], exec i s = .next s' → loadFrame) ∧
    (s.Issues c 6 (loadNeed false true) t o → exec (.ldvs t) s = .next s' → loadFrame) ∧ (s.Issues c 6 (loadNeed true false) t o → exec (.ldvg t) s = .next s' → loadFrame) ∧
    (s.Issues c 6 (storeNeed false false) t o → (∀ q ∈ [(Instr.stb t, 1), (.sth t, 2), (.stw t, 4), (.std t, 8)], exec q.1 s = .next s' → storeFrame [((X.toNat / q.2 * q.2, q.2), leBytes q.2 (low64 o.o0).toNat)]) ∧
      (exec (.stv t) s = .next s' → storeFrame (dealPieces (vectorPieces (X.toNat / 16 * 16)) (wideBytes o.o0)))) ∧
    (s.Issues c 6 (storeNeed false true) t o →
      (exec (.stvm t) s = .next s' → storeFrame ((List.range 32).filterMap fun i => if o.o2.getLsbD i then some (((X.toNat / 16 * 16 + 4 * i) % 2 ^ 64, 4), ((wideBytes o.o0).drop (4 * i)).take 4) else none)) ∧
      (exec (.stvs t) s = .next s' → storeFrame (dealPieces (stridePieces X (low64 o.o2)) (wideBytes o.o0)))) ∧
    (s.Issues c 6 (storeNeed true false) t o → exec (.stvx t) s = .next s' → storeFrame (dealPieces (lanePieces X o.o1) (wideBytes o.o0)))

/-- For every state with memory in canonical form, every usable HBM line and 128 bytes: after they are written whole, with or without
compression, a read of the line gives those bytes, whichever tag of R417 the line took; and every other line reads as it did before. -/
def Obligations.LineReadAfterWrite : Prop :=
  ∀ (s : State) (line : Nat) (bs : List Byte) (comp : Bool), s.MemOk → isUsableHbm (line * 128) = true → bs.length = 128 →
    let s' := (s.physWrite (line * 128) bs comp).1
    s'.physRead (line * 128) 128 = some bs ∧ s'.readLine line = some bs ∧ s'.tagOf line ≤ 8 ∧ (comp = false → s'.tagOf line = 0) ∧ ∀ l, l ≠ line → s'.readLine l = s.readLine l
end

