-- ==== Sys2Proof/Laws/Mem.lean ====
section
/-! SUPPORT. Memory as a canonical list: what a byte reads after a write, and that every write keeps the canonical form. -/

namespace Sys2Proof.Machine

/-! ### The cells of a run of bytes -/

theorem cellsOf_bounds {a : Nat} {bs : List Byte} {c : Host.Cell} (h : c ∈ cellsOf a bs) : a ≤ c.1 ∧ c.1 < a + bs.length ∧ c.2 ≠ 0 := by
  induction bs generalizing a with
  | nil => simp [cellsOf] at h
  | cons b r ih =>
    simp only [cellsOf] at h
    split at h
    · obtain ⟨h1, h2, h3⟩ := ih h
      exact ⟨by omega, by simp only [List.length_cons]; omega, h3⟩
    · rcases List.mem_cons.1 h with h | h
      · subst h
        exact ⟨Nat.le_refl _, by simp only [List.length_cons]; omega, ‹_›⟩
      · obtain ⟨h1, h2, h3⟩ := ih h
        exact ⟨by omega, by simp only [List.length_cons]; omega, h3⟩

theorem cellsOf_sorted (a : Nat) (bs : List Byte) : (cellsOf a bs).Pairwise fun c d => c.1 < d.1 := by
  induction bs generalizing a with
  | nil => simp [cellsOf]
  | cons b r ih =>
    simp only [cellsOf]
    split
    · exact ih (a + 1)
    · refine List.pairwise_cons.2 ⟨fun d hd => ?_, ih (a + 1)⟩
      have := cellsOf_bounds hd
      simp only; omega

/-! ### The canonical form -/

/-- A write keeps the canonical form. -/
theorem memWrite_wf {m : List Host.Cell} (a : Nat) (bs : List Byte) (h : Memory.wf m) : Memory.wf (memWrite m a bs) := by
  obtain ⟨hs, hn⟩ := h
  constructor
  · simp only [memWrite, List.append_assoc]
    refine List.pairwise_append.2 ⟨hs.filter _, List.pairwise_append.2 ⟨cellsOf_sorted a bs, hs.filter _, ?_⟩, ?_⟩
    · intro x hx y hy
      have h1 := cellsOf_bounds hx
      have h2 := of_decide_eq_true (List.mem_filter.1 hy).2
      omega
    · intro x hx y hy
      have h1 := of_decide_eq_true (List.mem_filter.1 hx).2
      rcases List.mem_append.1 hy with hy | hy
      · have h2 := cellsOf_bounds hy; omega
      · have h2 := of_decide_eq_true (List.mem_filter.1 hy).2; omega
  · intro c hc
    simp only [memWrite, List.append_assoc, List.mem_append] at hc
    rcases hc with hc | hc | hc
    · exact hn c (List.mem_filter.1 hc).1
    · exact (cellsOf_bounds hc).2.2
    · exact hn c (List.mem_filter.1 hc).1

/-! ### What a byte reads -/

theorem memByte_none {m : List Host.Cell} {a : Nat} (h : ∀ c ∈ m, c.1 ≠ a) : memByte m a = 0 := by
  induction m with
  | nil => rfl
  | cons c r ih =>
    have h1 := h c List.mem_cons_self
    simp only [memByte]
    split
    · omega
    · split
      · rfl
      · exact ih fun d hd => h d (List.mem_cons_of_mem _ hd)

/-- A byte of a list whose part before it lies wholly below its address. -/
theorem memByte_append_right {m n : List Host.Cell} {a : Nat} (h : ∀ c ∈ m, c.1 < a) : memByte (m ++ n) a = memByte n a := by
  induction m with
  | nil => rfl
  | cons c r ih =>
    have h1 := h c List.mem_cons_self
    have hn : a ≠ c.1 := by omega
    have hl : ¬ a < c.1 := by omega
    simp only [List.cons_append, memByte, hn, hl, if_false]
    exact ih fun d hd => h d (List.mem_cons_of_mem _ hd)

/-- A byte of a list whose part after lies wholly above its address. -/
theorem memByte_append_left {m n : List Host.Cell} {a : Nat} (h : ∀ c ∈ n, a < c.1) : memByte (m ++ n) a = memByte m a := by
  induction m with
  | nil => exact memByte_none fun c hc => by have := h c hc; omega
  | cons c r ih =>
    simp only [List.cons_append, memByte]
    split
    · rfl
    · split
      · rfl
      · exact ih

theorem memByte_cellsOf (a : Nat) (bs : List Byte) (i : Nat) (h : i < bs.length) : memByte (cellsOf a bs) (a + i) = bs[i] := by
  induction bs generalizing a i with
  | nil => simp at h
  | cons b r ih =>
    simp only [cellsOf]
    cases i with
    | zero =>
      split
      · rename_i hb
        rw [memByte_none fun c hc => by have := cellsOf_bounds hc; omega]
        simp only [List.getElem_cons_zero]; exact hb.symm
      · simp [memByte]
    | succ k =>
      have hk : k < r.length := by simpa using h
      have := ih (a + 1) k hk
      have he : a + (k + 1) = a + 1 + k := by omega
      split
      · rw [he, this]; rfl
      · have h1 : ¬ (a + 1 + k = a) := by omega
        have h2 : ¬ (a + 1 + k < a) := by omega
        rw [he]
        simp only [memByte, h1, h2, if_false, this]; rfl

theorem memByte_filter {m : List Host.Cell} (hs : m.Pairwise fun c d => c.1 < d.1) (p : Nat → Bool) {a : Nat} (h : p a = true) :
    memByte (m.filter fun c => p c.1) a = memByte m a := by
  induction m with
  | nil => rfl
  | cons c r ih =>
    obtain ⟨hc, hr⟩ := List.pairwise_cons.1 hs
    simp only [List.filter_cons]
    split
    · simp only [memByte, ih hr]
    · have hn : a ≠ c.1 := by rintro rfl; simp_all
      simp only [memByte, hn, if_false, ih hr]
      split
      · exact memByte_none fun d hd => by have := hc d hd; omega
      · rfl

/-- A byte within a run that has been written. -/
theorem memByte_memWrite_in {m : List Host.Cell} {a : Nat} {bs : List Byte} {i : Nat} (h : i < bs.length) :
    memByte (memWrite m a bs) (a + i) = bs[i] := by
  have low : ∀ c ∈ m.filter (fun c => decide (c.1 < a)), c.1 < a + i := fun c hc => by
    have := of_decide_eq_true (List.mem_filter.1 hc).2; omega
  have high : ∀ c ∈ m.filter (fun c => decide (a + bs.length ≤ c.1)), a + i < c.1 := fun c hc => by
    have := of_decide_eq_true (List.mem_filter.1 hc).2; omega
  rw [memWrite, List.append_assoc, memByte_append_right low, memByte_append_left high, memByte_cellsOf a bs i h]

/-- A byte outside a run that has been written. -/
theorem memByte_memWrite_out {m : List Host.Cell} (hs : Memory.wf m) {a b : Nat} {bs : List Byte} (h : b < a ∨ a + bs.length ≤ b) :
    memByte (memWrite m a bs) b = memByte m b := by
  rw [memWrite, List.append_assoc]
  rcases h with h | h
  · have high : ∀ c ∈ cellsOf a bs ++ m.filter (fun c => decide (a + bs.length ≤ c.1)), b < c.1 := fun c hc => by
      rcases List.mem_append.1 hc with hc | hc
      · have := cellsOf_bounds hc; omega
      · have := of_decide_eq_true (List.mem_filter.1 hc).2; omega
    rw [memByte_append_left high]
    exact memByte_filter hs.1 (fun x => decide (x < a)) (by simpa using h)
  · have low : ∀ c ∈ m.filter (fun c => decide (c.1 < a)), c.1 < b := fun c hc => by
      have := of_decide_eq_true (List.mem_filter.1 hc).2; omega
    have low2 : ∀ c ∈ cellsOf a bs, c.1 < b := fun c hc => by have := cellsOf_bounds hc; omega
    rw [memByte_append_right low, memByte_append_right low2]
    exact memByte_filter hs.1 (fun x => decide (a + bs.length ≤ x)) (by simpa using h)

/-! ### Runs of bytes -/

theorem memByte_dropWhile {m : List Host.Cell} (hs : m.Pairwise fun c d => c.1 < d.1) {a b : Nat} (h : a ≤ b) :
    memByte (m.dropWhile fun c => decide (c.1 < a)) b = memByte m b := by
  induction m with
  | nil => rfl
  | cons c r ih =>
    obtain ⟨hc, hr⟩ := List.pairwise_cons.1 hs
    simp only [List.dropWhile_cons]
    split
    · rename_i hlt
      have hlt := of_decide_eq_true hlt
      have hn : b ≠ c.1 := by omega
      have hl : ¬ b < c.1 := by omega
      simp only [memByte, hn, hl, if_false, ih hr]
    · rfl

/-- A run read is its bytes one by one. -/
theorem memRead_eq {m : List Host.Cell} (h : Memory.wf m) (a n : Nat) : memRead m a n = (List.range n).map fun i => memByte m (a + i) := by
  simp only [memRead]
  exact List.map_congr_left fun i _ => memByte_dropWhile h.1 (by omega)

@[simp] theorem memRead_length (m : List Host.Cell) (a n : Nat) : (memRead m a n).length = n := by simp [memRead]

/-- A run read where it was written is what was written. -/
theorem memRead_memWrite_same {m : List Host.Cell} (h : Memory.wf m) (a : Nat) (bs : List Byte) : memRead (memWrite m a bs) a bs.length = bs := by
  rw [memRead_eq (memWrite_wf a bs h)]
  apply List.ext_getElem
  · simp
  · intro i h1 h2
    simp only [List.getElem_map, List.getElem_range]
    exact memByte_memWrite_in h2

/-- A run read clear of a write is as before. -/
theorem memRead_memWrite_out {m : List Host.Cell} (h : Memory.wf m) {a b n : Nat} {bs : List Byte} (hd : b + n ≤ a ∨ a + bs.length ≤ b) :
    memRead (memWrite m a bs) b n = memRead m b n := by
  rw [memRead_eq (memWrite_wf a bs h), memRead_eq h]
  refine List.map_congr_left fun i hi => memByte_memWrite_out h ?_
  have := List.mem_range.1 hi
  omega

@[simp] theorem leBytes_length (n v : Nat) : (leBytes n v).length = n := by
  induction n generalizing v with
  | zero => rfl
  | succ k ih => simp [leBytes, ih]

/-- R2: the little-endian value of a value's bytes. -/
theorem leNat_leBytes (n v : Nat) : leNat (leBytes n v) = v % 256 ^ n := by
  induction n generalizing v with
  | zero => simp [leBytes, leNat, Nat.mod_one]
  | succ k ih =>
    have h : (BitVec.ofNat 8 v).toNat = v % 256 := rfl
    rw [leBytes, leNat, ih, h, Nat.pow_succ', Nat.mod_mul]

end Sys2Proof.Machine
end

