-- ==== Sys2Proof/Laws/Hbm.lean ====
section
/-! SUPPORT. What a write by physical address does: memory keeps its canonical form, and nothing changes but memory, the tags of lines and the marks of what cannot
be read. -/

namespace Sys2Proof.Machine

/-- A write by physical address leaves everything but memory, tags and error marks as it was, and memory in its canonical form if it was so. -/
def State.WrittenTo (s s' : State) : Prop :=
  s' = { s with mem := s'.mem, tags := s'.tags, badLines := s'.badLines, badWords := s'.badWords } ∧ (s.MemOk → s'.MemOk)

theorem State.WrittenTo.refl (s : State) : s.WrittenTo s := ⟨rfl, id⟩

theorem State.WrittenTo.trans {s t u : State} (h : s.WrittenTo t) (k : t.WrittenTo u) : s.WrittenTo u :=
  ⟨k.1.trans (by rw [h.1]), fun m => k.2 (h.2 m)⟩

/-- What each step of a fold keeps to, the fold keeps to. -/
theorem State.WrittenTo.fold {α : Type} {s : State} (f : State × Bool → α → State × Bool) (hf : ∀ (acc : State × Bool) (x : α), acc.1.WrittenTo (f acc x).1) (l : List α) (b : Bool) :
    s.WrittenTo (l.foldl f (s, b)).1 := by
  suffices ∀ acc : State × Bool, s.WrittenTo acc.1 → s.WrittenTo (l.foldl f acc).1 from this _ (.refl s)
  induction l with
  | nil => exact fun _ h => h
  | cons x r ih => exact fun acc h => ih _ (h.trans (hf acc x))

theorem State.writeLine_written (s : State) (line : Nat) (comp : Bool) (bs : List Byte) : s.WrittenTo (s.writeLine line comp bs) :=
  ⟨rfl, fun h => memWrite_wf _ _ h⟩

theorem State.writeInLine_written (s : State) (comp : Bool) (pa : Nat) (bs : List Byte) (line : Nat) : s.WrittenTo (s.writeInLine comp pa bs line).1 := by
  unfold State.writeInLine
  dsimp only
  split
  · exact s.writeLine_written ..
  · split
    · exact s.writeLine_written ..
    · exact .refl s

theorem State.writeHbm_written (s : State) (comp : Bool) (pa : Nat) (bs : List Byte) : s.WrittenTo (s.writeHbm comp pa bs).1 :=
  State.WrittenTo.fold (fun acc l => ((acc.1.writeInLine comp pa bs l).1, acc.2 && (acc.1.writeInLine comp pa bs l).2))
    (fun acc l => acc.1.writeInLine_written comp pa bs l) _ _

theorem State.physWriteIn_written (s : State) (pa : Nat) (bs : List Byte) (comp : Bool) : s.WrittenTo (s.physWriteIn pa bs comp).1 := by
  unfold State.physWriteIn
  split
  · exact s.writeHbm_written ..
  · exact s.writeHbm_written ..
  · exact .refl s
  · exact ⟨rfl, fun h => memWrite_wf _ _ h⟩
  · split
    · exact ⟨rfl, fun h => memWrite_wf _ _ h⟩
    · exact s.writeHbm_written ..
  · exact ⟨rfl, fun h => memWrite_wf _ _ h⟩
  · exact .refl s

/-- Every write by physical address. -/
theorem State.physWrite_written (s : State) (pa : Nat) (bs : List Byte) (comp : Bool) : s.WrittenTo (s.physWrite pa bs comp).1 := by
  unfold State.physWrite
  split
  · exact s.physWriteIn_written ..
  · exact State.WrittenTo.fold (fun acc (q : Nat × Nat) => let r := acc.1.physWriteIn (pa + q.1) ((bs.drop q.1).take q.2) comp; (r.1, acc.2 && r.2))
      (fun acc q => acc.1.physWriteIn_written (pa + q.1) ((bs.drop q.1).take q.2) comp) (physParts pa bs.length) true

theorem State.physWrite_wf {s : State} (pa : Nat) (bs : List Byte) (comp : Bool) (h : s.MemOk) : (s.physWrite pa bs comp).1.MemOk :=
  (s.physWrite_written pa bs comp).2 h

theorem State.orLeaf_wf {s : State} (leaf bits : Nat) (h : s.MemOk) : (s.orLeaf leaf bits).MemOk := State.physWrite_wf _ _ _ h

end Sys2Proof.Machine
end

