-- ==== Sys2Proof/Laws/Lanes.lean ====
section
/-! SUPPORT. The elements of a wide value that is built element by element (R177, R178). -/

namespace Sys2Proof.Machine

theorem fold_or_getLsbD (w : Nat) (f : Nat → BitVec w) (l : List Nat) (acc : Wide) (j : Nat) :
    (l.foldl (fun acc e => acc ||| ((f e).setWidth 1024 <<< (w * e))) acc).getLsbD j
      = (acc.getLsbD j || l.any fun e => decide (j < 1024) && (!decide (j < w * e) && (f e).getLsbD (j - w * e))) := by
  induction l generalizing acc with
  | nil => simp
  | cons e r ih =>
    rw [List.foldl_cons, ih]
    simp only [BitVec.getLsbD_or, BitVec.getLsbD_shiftLeft, BitVec.getLsbD_setWidth, List.any_cons, Bool.or_assoc]
    congr 1
    congr 1
    by_cases h1 : j < 1024
    · by_cases h2 : j < w * e
      · simp [h2]
      · have : j - w * e < 1024 := by omega
        simp [h1, h2, this]
    · simp [h1]

theorem any_lane (w n e : Nat) (f : Nat → BitVec w) (j : Nat) (he : e < n) (hj : j < w) (hn : w * n ≤ 1024) :
    ((List.range n).any fun k => decide (w * e + j < 1024) && (!decide (w * e + j < w * k) && (f k).getLsbD (w * e + j - w * k))) = (f e).getLsbD j := by
  have hle : w * (e + 1) ≤ w * n := Nat.mul_le_mul_left w he
  have hlt : w * e + j < 1024 := by rw [Nat.mul_add, Nat.mul_one] at hle; omega
  rw [Bool.eq_iff_iff, List.any_eq_true]
  constructor
  · rintro ⟨k, hk, h⟩
    simp only [hlt, decide_true, Bool.true_and, Bool.and_eq_true, Bool.not_eq_true', decide_eq_false_iff_not, Nat.not_lt] at h
    obtain ⟨h1, h2⟩ := h
    have hb : w * e + j - w * k < w := by
      rcases Nat.lt_or_ge (w * e + j - w * k) w with hb | hb
      · exact hb
      · rw [BitVec.getLsbD_of_ge _ _ hb] at h2; cases h2
    have hke : k = e := by
      rcases Nat.lt_trichotomy k e with hl | hl | hl
      · have := Nat.mul_le_mul_left w hl
        rw [Nat.succ_eq_add_one, Nat.mul_add, Nat.mul_one] at this
        omega
      · exact hl
      · have := Nat.mul_le_mul_left w hl
        rw [Nat.succ_eq_add_one, Nat.mul_add, Nat.mul_one] at this
        omega
    subst hke
    rwa [Nat.add_sub_cancel_left] at h2
  · intro h
    refine ⟨e, List.mem_range.2 he, ?_⟩
    have : ¬ w * e + j < w * e := by omega
    simp [hlt, this, h]

/-- Element e of a value built from n elements. -/
theorem elem_ofElems (w n e : Nat) (f : Nat → BitVec w) (he : e < n) (hn : w * n ≤ 1024) : elem w (ofElems w n f) e = f e := by
  apply BitVec.eq_of_getLsbD_eq
  intro j hj
  rw [elem, BitVec.getLsbD_extractLsb', ofElems, fold_or_getLsbD]
  have h0 : BitVec.getLsbD (0 : Wide) (w * e + j) = false := BitVec.getLsbD_zero
  rw [h0, Bool.false_or, any_lane w n e f j he hj hn]
  simp [hj]

theorem ofElemsFlags_fold (w : Nat) (f : Nat → Nat × BitVec 10) (l : List Nat) (acc : Wide × BitVec 10) :
    l.foldl (fun acc e => let r := f e; (acc.1 ||| ((BitVec.ofNat w r.1).setWidth 1024 <<< (w * e)), acc.2 ||| r.2)) acc
      = (l.foldl (fun a e => a ||| ((BitVec.ofNat w (f e).1).setWidth 1024 <<< (w * e))) acc.1, l.foldl (fun a e => a ||| (f e).2) acc.2) := by
  induction l generalizing acc with
  | nil => rfl
  | cons e r ih => simp only [List.foldl_cons]; rw [ih]

/-- Element e of a value built from n elements with flags. -/
theorem elem_ofElemsFlags (w n e : Nat) (f : Nat → Nat × BitVec 10) (he : e < n) (hn : w * n ≤ 1024) :
    elem w (ofElemsFlags w n f).1 e = BitVec.ofNat w (f e).1 := by
  rw [ofElemsFlags, ofElemsFlags_fold]
  exact elem_ofElems w n e (fun e => BitVec.ofNat w (f e).1) he hn

theorem fold_flags_getLsbD (f : Nat → Nat × BitVec 10) (l : List Nat) (acc : BitVec 10) (j : Nat) :
    (l.foldl (fun a e => a ||| (f e).2) acc).getLsbD j = (acc.getLsbD j || l.any fun e => (f e).2.getLsbD j) := by
  induction l generalizing acc with
  | nil => simp
  | cons e r ih => simp [ih, Bool.or_assoc]

/-- R177: the flags of n elements are the OR of each element's. -/
theorem flags_ofElemsFlags (w n : Nat) (f : Nat → Nat × BitVec 10) (j : Nat) :
    (ofElemsFlags w n f).2.getLsbD j = (List.range n).any fun e => (f e).2.getLsbD j := by
  rw [ofElemsFlags, ofElemsFlags_fold, fold_flags_getLsbD]
  simp

end Sys2Proof.Machine
end

