-- ==== Sys2Proof/Laws/SMap.lean ====
section
/-! SUPPORT. What a sparse table reads after an entry is put or taken away, and that its keys stay in order. -/

namespace Sys2Proof.Machine.SMap

variable {α : Type}

@[simp] theorem lookup_set_same (m : SMap α) (i : Nat) (x : α) : lookup (set m i x) i = some x := by
  induction m with
  | nil => simp [set, lookup]
  | cons p r ih =>
    obtain ⟨j, v⟩ := p
    simp only [set]
    split
    · simp [lookup]
    · split
      · simp [lookup]
      · simp_all [lookup]

theorem lookup_set_other (m : SMap α) {i k : Nat} (x : α) (h : k ≠ i) : lookup (set m i x) k = lookup m k := by
  induction m with
  | nil => simp [set, lookup, h]
  | cons p r ih =>
    obtain ⟨j, v⟩ := p
    simp only [set]
    split
    · subst_vars; simp [lookup, h]
    · split
      · simp [lookup, h]
      · simp only [lookup, ih]

@[simp] theorem get_set_same (m : SMap α) (d : α) (i : Nat) (x : α) : get (set m i x) d i = x := by simp [get]

theorem get_set_other (m : SMap α) (d : α) {i k : Nat} (x : α) (h : k ≠ i) : get (set m i x) d k = get m d k := by
  simp [get, lookup_set_other m x h]

theorem get_set (m : SMap α) (d : α) (i k : Nat) (x : α) : get (set m i x) d k = if k = i then x else get m d k := by
  split
  · subst_vars; simp
  · exact get_set_other m d x ‹_›

/-- The numbers of a table with an entry put are its own and the new one. -/
theorem mem_set {m : SMap α} {i : Nat} {x : α} {p : Nat × α} (h : p ∈ set m i x) : p = (i, x) ∨ p ∈ m := by
  induction m with
  | nil => simp [set] at h; exact .inl h
  | cons q r ih =>
    obtain ⟨j, v⟩ := q
    simp only [set] at h
    split at h
    · rcases List.mem_cons.1 h with h | h
      · exact .inl h
      · exact .inr (List.mem_cons_of_mem _ h)
    · split at h
      · rcases List.mem_cons.1 h with h | h
        · exact .inl h
        · exact .inr h
      · rcases List.mem_cons.1 h with h | h
        · exact .inr (h ▸ List.mem_cons_self)
        · exact (ih h).imp id (List.mem_cons_of_mem _)

theorem mem_erase {m : SMap α} {i : Nat} {p : Nat × α} (h : p ∈ erase m i) : p ∈ m := by
  induction m with
  | nil => simp [erase] at h
  | cons q r ih =>
    obtain ⟨j, v⟩ := q
    simp only [erase] at h
    split at h
    · exact List.mem_cons_of_mem _ (ih h)
    · rcases List.mem_cons.1 h with h | h
      · exact h ▸ List.mem_cons_self
      · exact List.mem_cons_of_mem _ (ih h)

theorem wf_iff (m : SMap α) : wf m = true ↔ m.Pairwise fun a b => a.1 < b.1 := by simp [wf]

theorem wf_set {m : SMap α} (i : Nat) (x : α) (h : wf m = true) : wf (set m i x) = true := by
  rw [wf_iff] at *
  induction m with
  | nil => simp [set]
  | cons q r ih =>
    obtain ⟨j, v⟩ := q
    obtain ⟨hj, hr⟩ := List.pairwise_cons.1 h
    simp only [set]
    split
    · subst_vars; exact List.pairwise_cons.2 ⟨hj, hr⟩
    · split
      · refine List.pairwise_cons.2 ⟨fun p hp => ?_, h⟩
        rcases List.mem_cons.1 hp with hp | hp
        · subst hp; assumption
        · have := hj p hp; simp only at *; omega
      · refine List.pairwise_cons.2 ⟨fun p hp => ?_, ih hr⟩
        rcases mem_set hp with hp | hp
        · subst hp; simp only; omega
        · exact hj p hp

theorem wf_erase {m : SMap α} (i : Nat) (h : wf m = true) : wf (erase m i) = true := by
  rw [wf_iff] at *
  induction m with
  | nil => simp [erase]
  | cons q r ih =>
    obtain ⟨j, v⟩ := q
    obtain ⟨hj, hr⟩ := List.pairwise_cons.1 h
    simp only [erase]
    split
    · exact ih hr
    · exact List.pairwise_cons.2 ⟨fun p hp => hj p (mem_erase hp), ih hr⟩

theorem wf_setD [DecidableEq α] {m : SMap α} (d : α) (i : Nat) (x : α) (h : wf m = true) : wf (setD m d i x) = true := by
  unfold setD
  split
  · exact wf_erase i h
  · exact wf_set i x h

@[simp] theorem lookup_erase_same (m : SMap α) (i : Nat) : lookup (erase m i) i = none := by
  induction m with
  | nil => rfl
  | cons q r ih =>
    obtain ⟨j, v⟩ := q
    simp only [erase]
    split
    · exact ih
    · simp [lookup, *]

theorem lookup_erase_other (m : SMap α) {i k : Nat} (hk : k ≠ i) : lookup (erase m i) k = lookup m k := by
  induction m with
  | nil => rfl
  | cons q r ih =>
    obtain ⟨j, v⟩ := q
    simp only [erase]
    split
    · subst_vars; simp [lookup, hk, ih]
    · simp only [lookup, ih]

/-- What a table reads after an entry is put. -/
theorem get_setD [DecidableEq α] (m : SMap α) (d : α) (i k : Nat) (x : α) :
    get (setD m d i x) d k = if k = i then x else get m d k := by
  unfold setD
  split
  · subst_vars
    split
    · subst_vars; simp [get]
    · simp [get, lookup_erase_other m ‹_›]
  · exact get_set m d i k x

end Sys2Proof.Machine.SMap
end

