-- ==== Sys2Proof/Laws/State.lean ====
section
/-! SUPPORT. One lemma per field of the state for each update that the operations of moves are built from: what the update leaves as it
was, and what it puts where. -/

namespace Sys2Proof.Machine

/-! ### `setTile` -/

@[simp] theorem State.setTile_tick (s : State) (t : Nat) (x : Tile) : (s.setTile t x).tick = s.tick := rfl
@[simp] theorem State.setTile_turn (s : State) (t : Nat) (x : Tile) : (s.setTile t x).turn = s.turn := rfl
@[simp] theorem State.setTile_cur (s : State) (t : Nat) (x : Tile) : (s.setTile t x).cur = s.cur := rfl
@[simp] theorem State.setTile_ev (s : State) (t : Nat) (x : Tile) : (s.setTile t x).ev = s.ev := rfl
@[simp] theorem State.setTile_agenda (s : State) (t : Nat) (x : Tile) : (s.setTile t x).agenda = s.agenda := rfl
@[simp] theorem State.setTile_fresh (s : State) (t : Nat) (x : Tile) : (s.setTile t x).fresh = s.fresh := rfl
@[simp] theorem State.setTile_mem (s : State) (t : Nat) (x : Tile) : (s.setTile t x).mem = s.mem := rfl
@[simp] theorem State.setTile_ids (s : State) (t : Nat) (x : Tile) : (s.setTile t x).ids = s.ids := rfl
@[simp] theorem State.setTile_pkts (s : State) (t : Nat) (x : Tile) : (s.setTile t x).pkts = s.pkts := rfl
@[simp] theorem State.setTile_linkTurn (s : State) (t : Nat) (x : Tile) : (s.setTile t x).linkTurn = s.linkTurn := rfl
@[simp] theorem State.setTile_inTurn (s : State) (t : Nat) (x : Tile) : (s.setTile t x).inTurn = s.inTurn := rfl
@[simp] theorem State.setTile_linkTick (s : State) (t : Nat) (x : Tile) : (s.setTile t x).linkTick = s.linkTick := rfl
@[simp] theorem State.setTile_links (s : State) (t : Nat) (x : Tile) : (s.setTile t x).links = s.links := rfl
@[simp] theorem State.setTile_linkBase (s : State) (t : Nat) (x : Tile) : (s.setTile t x).linkBase = s.linkBase := rfl
@[simp] theorem State.setTile_clocks (s : State) (t : Nat) (x : Tile) : (s.setTile t x).clocks = s.clocks := rfl
@[simp] theorem State.setTile_noticed (s : State) (t : Nat) (x : Tile) : (s.setTile t x).noticed = s.noticed := rfl
@[simp] theorem State.setTile_bursts (s : State) (t : Nat) (x : Tile) : (s.setTile t x).bursts = s.bursts := rfl
@[simp] theorem State.setTile_lamport (s : State) (t : Nat) (x : Tile) : (s.setTile t x).lamport = s.lamport := rfl
@[simp] theorem State.setTile_pairs (s : State) (t : Nat) (x : Tile) : (s.setTile t x).pairs = s.pairs := rfl
@[simp] theorem State.setTile_tags (s : State) (t : Nat) (x : Tile) : (s.setTile t x).tags = s.tags := rfl
@[simp] theorem State.setTile_badLines (s : State) (t : Nat) (x : Tile) : (s.setTile t x).badLines = s.badLines := rfl
@[simp] theorem State.setTile_badWords (s : State) (t : Nat) (x : Tile) : (s.setTile t x).badWords = s.badWords := rfl
@[simp] theorem State.setTile_tlb (s : State) (t : Nat) (x : Tile) : (s.setTile t x).tlb = s.tlb := rfl
@[simp] theorem State.setTile_walks (s : State) (t : Nat) (x : Tile) : (s.setTile t x).walks = s.walks := rfl
@[simp] theorem State.setTile_reqs (s : State) (t : Nat) (x : Tile) : (s.setTile t x).reqs = s.reqs := rfl
@[simp] theorem State.setTile_held (s : State) (t : Nat) (x : Tile) : (s.setTile t x).held = s.held := rfl
@[simp] theorem State.setTile_pins (s : State) (t : Nat) (x : Tile) : (s.setTile t x).pins = s.pins := rfl
@[simp] theorem State.setTile_pageJobs (s : State) (t : Nat) (x : Tile) : (s.setTile t x).pageJobs = s.pageJobs := rfl
@[simp] theorem State.setTile_ctxs (s : State) (t : Nat) (x : Tile) : (s.setTile t x).ctxs = s.ctxs := rfl
@[simp] theorem State.setTile_launches (s : State) (t : Nat) (x : Tile) : (s.setTile t x).launches = s.launches := rfl
@[simp] theorem State.setTile_gangs (s : State) (t : Nat) (x : Tile) : (s.setTile t x).gangs = s.gangs := rfl
@[simp] theorem State.setTile_spawns (s : State) (t : Nat) (x : Tile) : (s.setTile t x).spawns = s.spawns := rfl
@[simp] theorem State.setTile_sends (s : State) (t : Nat) (x : Tile) : (s.setTile t x).sends = s.sends := rfl
@[simp] theorem State.setTile_dispNext (s : State) (t : Nat) (x : Tile) : (s.setTile t x).dispNext = s.dispNext := rfl
@[simp] theorem State.setTile_served (s : State) (t : Nat) (x : Tile) : (s.setTile t x).served = s.served := rfl
@[simp] theorem State.setTile_affinity (s : State) (t : Nat) (x : Tile) : (s.setTile t x).affinity = s.affinity := rfl
@[simp] theorem State.setTile_barMarks (s : State) (t : Nat) (x : Tile) : (s.setTile t x).barMarks = s.barMarks := rfl
@[simp] theorem State.setTile_barBusy (s : State) (t : Nat) (x : Tile) : (s.setTile t x).barBusy = s.barBusy := rfl
@[simp] theorem State.setTile_waiters (s : State) (t : Nat) (x : Tile) : (s.setTile t x).waiters = s.waiters := rfl
@[simp] theorem State.setTile_timeouts (s : State) (t : Nat) (x : Tile) : (s.setTile t x).timeouts = s.timeouts := rfl
@[simp] theorem State.setTile_msix (s : State) (t : Nat) (x : Tile) : (s.setTile t x).msix = s.msix := rfl
@[simp] theorem State.setTile_pba (s : State) (t : Nat) (x : Tile) : (s.setTile t x).pba = s.pba := rfl
@[simp] theorem State.setTile_windows (s : State) (t : Nat) (x : Tile) : (s.setTile t x).windows = s.windows := rfl
@[simp] theorem State.setTile_clusters (s : State) (t : Nat) (x : Tile) : (s.setTile t x).clusters = s.clusters := rfl
@[simp] theorem State.setTile_rail (s : State) (t : Nat) (x : Tile) : (s.setTile t x).rail = s.rail := rfl
@[simp] theorem State.setTile_inrush (s : State) (t : Nat) (x : Tile) : (s.setTile t x).inrush = s.inrush := rfl
@[simp] theorem State.setTile_dieCount (s : State) (t : Nat) (x : Tile) : (s.setTile t x).dieCount = s.dieCount := rfl
@[simp] theorem State.setTile_phase (s : State) (t : Nat) (x : Tile) : (s.setTile t x).phase = s.phase := rfl
@[simp] theorem State.setTile_fcode (s : State) (t : Nat) (x : Tile) : (s.setTile t x).fcode = s.fcode := rfl
@[simp] theorem State.setTile_owner (s : State) (t : Nat) (x : Tile) : (s.setTile t x).owner = s.owner := rfl
@[simp] theorem State.setTile_masters (s : State) (t : Nat) (x : Tile) : (s.setTile t x).masters = s.masters := rfl
@[simp] theorem State.setTile_mcp (s : State) (t : Nat) (x : Tile) : (s.setTile t x).mcp = s.mcp := rfl
@[simp] theorem State.setTile_mcpQ (s : State) (t : Nat) (x : Tile) : (s.setTile t x).mcpQ = s.mcpQ := rfl
@[simp] theorem State.setTile_waiting (s : State) (t : Nat) (x : Tile) : (s.setTile t x).waiting = s.waiting := rfl
@[simp] theorem State.setTile_log (s : State) (t : Nat) (x : Tile) : (s.setTile t x).log = s.log := rfl
@[simp] theorem State.setTile_stallY (s : State) (t : Nat) (x : Tile) : (s.setTile t x).stallY = s.stallY := rfl
@[simp] theorem State.setTile_completions (s : State) (t : Nat) (x : Tile) : (s.setTile t x).completions = s.completions := rfl
@[simp] theorem State.setTile_wbase (s : State) (t : Nat) (x : Tile) : (s.setTile t x).wbase = s.wbase := rfl
@[simp] theorem State.setTile_upPorts (s : State) (t : Nat) (x : Tile) : (s.setTile t x).upPorts = s.upPorts := rfl
@[simp] theorem State.setTile_downAt (s : State) (t : Nat) (x : Tile) : (s.setTile t x).downAt = s.downAt := rfl
@[simp] theorem State.setTile_d3hot (s : State) (t : Nat) (x : Tile) : (s.setTile t x).d3hot = s.d3hot := rfl
@[simp] theorem State.setTile_bifurcated (s : State) (t : Nat) (x : Tile) : (s.setTile t x).bifurcated = s.bifurcated := rfl
@[simp] theorem State.setTile_cmds (s : State) (t : Nat) (x : Tile) : (s.setTile t x).cmds = s.cmds := rfl
@[simp] theorem State.setTile_streams (s : State) (t : Nat) (x : Tile) : (s.setTile t x).streams = s.streams := rfl
@[simp] theorem State.setTile_meets (s : State) (t : Nat) (x : Tile) : (s.setTile t x).meets = s.meets := rfl
@[simp] theorem State.setTile_waves (s : State) (t : Nat) (x : Tile) : (s.setTile t x).waves = s.waves := rfl
@[simp] theorem State.setTile_images (s : State) (t : Nat) (x : Tile) : (s.setTile t x).images = s.images := rfl
@[simp] theorem State.setTile_energy (s : State) (t : Nat) (x : Tile) : (s.setTile t x).energy = s.energy := rfl

/-! ### `modTile` -/

@[simp] theorem State.modTile_tick (s : State) (t : Nat) (f : Tile → Tile) : (s.modTile t f).tick = s.tick := rfl
@[simp] theorem State.modTile_turn (s : State) (t : Nat) (f : Tile → Tile) : (s.modTile t f).turn = s.turn := rfl
@[simp] theorem State.modTile_cur (s : State) (t : Nat) (f : Tile → Tile) : (s.modTile t f).cur = s.cur := rfl
@[simp] theorem State.modTile_ev (s : State) (t : Nat) (f : Tile → Tile) : (s.modTile t f).ev = s.ev := rfl
@[simp] theorem State.modTile_agenda (s : State) (t : Nat) (f : Tile → Tile) : (s.modTile t f).agenda = s.agenda := rfl
@[simp] theorem State.modTile_fresh (s : State) (t : Nat) (f : Tile → Tile) : (s.modTile t f).fresh = s.fresh := rfl
@[simp] theorem State.modTile_mem (s : State) (t : Nat) (f : Tile → Tile) : (s.modTile t f).mem = s.mem := rfl
@[simp] theorem State.modTile_ids (s : State) (t : Nat) (f : Tile → Tile) : (s.modTile t f).ids = s.ids := rfl
@[simp] theorem State.modTile_pkts (s : State) (t : Nat) (f : Tile → Tile) : (s.modTile t f).pkts = s.pkts := rfl
@[simp] theorem State.modTile_linkTurn (s : State) (t : Nat) (f : Tile → Tile) : (s.modTile t f).linkTurn = s.linkTurn := rfl
@[simp] theorem State.modTile_inTurn (s : State) (t : Nat) (f : Tile → Tile) : (s.modTile t f).inTurn = s.inTurn := rfl
@[simp] theorem State.modTile_linkTick (s : State) (t : Nat) (f : Tile → Tile) : (s.modTile t f).linkTick = s.linkTick := rfl
@[simp] theorem State.modTile_links (s : State) (t : Nat) (f : Tile → Tile) : (s.modTile t f).links = s.links := rfl
@[simp] theorem State.modTile_linkBase (s : State) (t : Nat) (f : Tile → Tile) : (s.modTile t f).linkBase = s.linkBase := rfl
@[simp] theorem State.modTile_clocks (s : State) (t : Nat) (f : Tile → Tile) : (s.modTile t f).clocks = s.clocks := rfl
@[simp] theorem State.modTile_noticed (s : State) (t : Nat) (f : Tile → Tile) : (s.modTile t f).noticed = s.noticed := rfl
@[simp] theorem State.modTile_bursts (s : State) (t : Nat) (f : Tile → Tile) : (s.modTile t f).bursts = s.bursts := rfl
@[simp] theorem State.modTile_lamport (s : State) (t : Nat) (f : Tile → Tile) : (s.modTile t f).lamport = s.lamport := rfl
@[simp] theorem State.modTile_pairs (s : State) (t : Nat) (f : Tile → Tile) : (s.modTile t f).pairs = s.pairs := rfl
@[simp] theorem State.modTile_tags (s : State) (t : Nat) (f : Tile → Tile) : (s.modTile t f).tags = s.tags := rfl
@[simp] theorem State.modTile_badLines (s : State) (t : Nat) (f : Tile → Tile) : (s.modTile t f).badLines = s.badLines := rfl
@[simp] theorem State.modTile_badWords (s : State) (t : Nat) (f : Tile → Tile) : (s.modTile t f).badWords = s.badWords := rfl
@[simp] theorem State.modTile_tlb (s : State) (t : Nat) (f : Tile → Tile) : (s.modTile t f).tlb = s.tlb := rfl
@[simp] theorem State.modTile_walks (s : State) (t : Nat) (f : Tile → Tile) : (s.modTile t f).walks = s.walks := rfl
@[simp] theorem State.modTile_reqs (s : State) (t : Nat) (f : Tile → Tile) : (s.modTile t f).reqs = s.reqs := rfl
@[simp] theorem State.modTile_held (s : State) (t : Nat) (f : Tile → Tile) : (s.modTile t f).held = s.held := rfl
@[simp] theorem State.modTile_pins (s : State) (t : Nat) (f : Tile → Tile) : (s.modTile t f).pins = s.pins := rfl
@[simp] theorem State.modTile_pageJobs (s : State) (t : Nat) (f : Tile → Tile) : (s.modTile t f).pageJobs = s.pageJobs := rfl
@[simp] theorem State.modTile_ctxs (s : State) (t : Nat) (f : Tile → Tile) : (s.modTile t f).ctxs = s.ctxs := rfl
@[simp] theorem State.modTile_launches (s : State) (t : Nat) (f : Tile → Tile) : (s.modTile t f).launches = s.launches := rfl
@[simp] theorem State.modTile_gangs (s : State) (t : Nat) (f : Tile → Tile) : (s.modTile t f).gangs = s.gangs := rfl
@[simp] theorem State.modTile_spawns (s : State) (t : Nat) (f : Tile → Tile) : (s.modTile t f).spawns = s.spawns := rfl
@[simp] theorem State.modTile_sends (s : State) (t : Nat) (f : Tile → Tile) : (s.modTile t f).sends = s.sends := rfl
@[simp] theorem State.modTile_dispNext (s : State) (t : Nat) (f : Tile → Tile) : (s.modTile t f).dispNext = s.dispNext := rfl
@[simp] theorem State.modTile_served (s : State) (t : Nat) (f : Tile → Tile) : (s.modTile t f).served = s.served := rfl
@[simp] theorem State.modTile_affinity (s : State) (t : Nat) (f : Tile → Tile) : (s.modTile t f).affinity = s.affinity := rfl
@[simp] theorem State.modTile_barMarks (s : State) (t : Nat) (f : Tile → Tile) : (s.modTile t f).barMarks = s.barMarks := rfl
@[simp] theorem State.modTile_barBusy (s : State) (t : Nat) (f : Tile → Tile) : (s.modTile t f).barBusy = s.barBusy := rfl
@[simp] theorem State.modTile_waiters (s : State) (t : Nat) (f : Tile → Tile) : (s.modTile t f).waiters = s.waiters := rfl
@[simp] theorem State.modTile_timeouts (s : State) (t : Nat) (f : Tile → Tile) : (s.modTile t f).timeouts = s.timeouts := rfl
@[simp] theorem State.modTile_msix (s : State) (t : Nat) (f : Tile → Tile) : (s.modTile t f).msix = s.msix := rfl
@[simp] theorem State.modTile_pba (s : State) (t : Nat) (f : Tile → Tile) : (s.modTile t f).pba = s.pba := rfl
@[simp] theorem State.modTile_windows (s : State) (t : Nat) (f : Tile → Tile) : (s.modTile t f).windows = s.windows := rfl
@[simp] theorem State.modTile_clusters (s : State) (t : Nat) (f : Tile → Tile) : (s.modTile t f).clusters = s.clusters := rfl
@[simp] theorem State.modTile_rail (s : State) (t : Nat) (f : Tile → Tile) : (s.modTile t f).rail = s.rail := rfl
@[simp] theorem State.modTile_inrush (s : State) (t : Nat) (f : Tile → Tile) : (s.modTile t f).inrush = s.inrush := rfl
@[simp] theorem State.modTile_dieCount (s : State) (t : Nat) (f : Tile → Tile) : (s.modTile t f).dieCount = s.dieCount := rfl
@[simp] theorem State.modTile_phase (s : State) (t : Nat) (f : Tile → Tile) : (s.modTile t f).phase = s.phase := rfl
@[simp] theorem State.modTile_fcode (s : State) (t : Nat) (f : Tile → Tile) : (s.modTile t f).fcode = s.fcode := rfl
@[simp] theorem State.modTile_owner (s : State) (t : Nat) (f : Tile → Tile) : (s.modTile t f).owner = s.owner := rfl
@[simp] theorem State.modTile_masters (s : State) (t : Nat) (f : Tile → Tile) : (s.modTile t f).masters = s.masters := rfl
@[simp] theorem State.modTile_mcp (s : State) (t : Nat) (f : Tile → Tile) : (s.modTile t f).mcp = s.mcp := rfl
@[simp] theorem State.modTile_mcpQ (s : State) (t : Nat) (f : Tile → Tile) : (s.modTile t f).mcpQ = s.mcpQ := rfl
@[simp] theorem State.modTile_waiting (s : State) (t : Nat) (f : Tile → Tile) : (s.modTile t f).waiting = s.waiting := rfl
@[simp] theorem State.modTile_log (s : State) (t : Nat) (f : Tile → Tile) : (s.modTile t f).log = s.log := rfl
@[simp] theorem State.modTile_stallY (s : State) (t : Nat) (f : Tile → Tile) : (s.modTile t f).stallY = s.stallY := rfl
@[simp] theorem State.modTile_completions (s : State) (t : Nat) (f : Tile → Tile) : (s.modTile t f).completions = s.completions := rfl
@[simp] theorem State.modTile_wbase (s : State) (t : Nat) (f : Tile → Tile) : (s.modTile t f).wbase = s.wbase := rfl
@[simp] theorem State.modTile_upPorts (s : State) (t : Nat) (f : Tile → Tile) : (s.modTile t f).upPorts = s.upPorts := rfl
@[simp] theorem State.modTile_downAt (s : State) (t : Nat) (f : Tile → Tile) : (s.modTile t f).downAt = s.downAt := rfl
@[simp] theorem State.modTile_d3hot (s : State) (t : Nat) (f : Tile → Tile) : (s.modTile t f).d3hot = s.d3hot := rfl
@[simp] theorem State.modTile_bifurcated (s : State) (t : Nat) (f : Tile → Tile) : (s.modTile t f).bifurcated = s.bifurcated := rfl
@[simp] theorem State.modTile_cmds (s : State) (t : Nat) (f : Tile → Tile) : (s.modTile t f).cmds = s.cmds := rfl
@[simp] theorem State.modTile_streams (s : State) (t : Nat) (f : Tile → Tile) : (s.modTile t f).streams = s.streams := rfl
@[simp] theorem State.modTile_meets (s : State) (t : Nat) (f : Tile → Tile) : (s.modTile t f).meets = s.meets := rfl
@[simp] theorem State.modTile_waves (s : State) (t : Nat) (f : Tile → Tile) : (s.modTile t f).waves = s.waves := rfl
@[simp] theorem State.modTile_images (s : State) (t : Nat) (f : Tile → Tile) : (s.modTile t f).images = s.images := rfl
@[simp] theorem State.modTile_energy (s : State) (t : Nat) (f : Tile → Tile) : (s.modTile t f).energy = s.energy := rfl

/-! ### `modCore` -/

@[simp] theorem State.modCore_tick (s : State) (t : Nat) (f : Core → Core) : (s.modCore t f).tick = s.tick := rfl
@[simp] theorem State.modCore_turn (s : State) (t : Nat) (f : Core → Core) : (s.modCore t f).turn = s.turn := rfl
@[simp] theorem State.modCore_cur (s : State) (t : Nat) (f : Core → Core) : (s.modCore t f).cur = s.cur := rfl
@[simp] theorem State.modCore_ev (s : State) (t : Nat) (f : Core → Core) : (s.modCore t f).ev = s.ev := rfl
@[simp] theorem State.modCore_agenda (s : State) (t : Nat) (f : Core → Core) : (s.modCore t f).agenda = s.agenda := rfl
@[simp] theorem State.modCore_fresh (s : State) (t : Nat) (f : Core → Core) : (s.modCore t f).fresh = s.fresh := rfl
@[simp] theorem State.modCore_mem (s : State) (t : Nat) (f : Core → Core) : (s.modCore t f).mem = s.mem := rfl
@[simp] theorem State.modCore_ids (s : State) (t : Nat) (f : Core → Core) : (s.modCore t f).ids = s.ids := rfl
@[simp] theorem State.modCore_pkts (s : State) (t : Nat) (f : Core → Core) : (s.modCore t f).pkts = s.pkts := rfl
@[simp] theorem State.modCore_linkTurn (s : State) (t : Nat) (f : Core → Core) : (s.modCore t f).linkTurn = s.linkTurn := rfl
@[simp] theorem State.modCore_inTurn (s : State) (t : Nat) (f : Core → Core) : (s.modCore t f).inTurn = s.inTurn := rfl
@[simp] theorem State.modCore_linkTick (s : State) (t : Nat) (f : Core → Core) : (s.modCore t f).linkTick = s.linkTick := rfl
@[simp] theorem State.modCore_links (s : State) (t : Nat) (f : Core → Core) : (s.modCore t f).links = s.links := rfl
@[simp] theorem State.modCore_linkBase (s : State) (t : Nat) (f : Core → Core) : (s.modCore t f).linkBase = s.linkBase := rfl
@[simp] theorem State.modCore_clocks (s : State) (t : Nat) (f : Core → Core) : (s.modCore t f).clocks = s.clocks := rfl
@[simp] theorem State.modCore_noticed (s : State) (t : Nat) (f : Core → Core) : (s.modCore t f).noticed = s.noticed := rfl
@[simp] theorem State.modCore_bursts (s : State) (t : Nat) (f : Core → Core) : (s.modCore t f).bursts = s.bursts := rfl
@[simp] theorem State.modCore_lamport (s : State) (t : Nat) (f : Core → Core) : (s.modCore t f).lamport = s.lamport := rfl
@[simp] theorem State.modCore_pairs (s : State) (t : Nat) (f : Core → Core) : (s.modCore t f).pairs = s.pairs := rfl
@[simp] theorem State.modCore_tags (s : State) (t : Nat) (f : Core → Core) : (s.modCore t f).tags = s.tags := rfl
@[simp] theorem State.modCore_badLines (s : State) (t : Nat) (f : Core → Core) : (s.modCore t f).badLines = s.badLines := rfl
@[simp] theorem State.modCore_badWords (s : State) (t : Nat) (f : Core → Core) : (s.modCore t f).badWords = s.badWords := rfl
@[simp] theorem State.modCore_tlb (s : State) (t : Nat) (f : Core → Core) : (s.modCore t f).tlb = s.tlb := rfl
@[simp] theorem State.modCore_walks (s : State) (t : Nat) (f : Core → Core) : (s.modCore t f).walks = s.walks := rfl
@[simp] theorem State.modCore_reqs (s : State) (t : Nat) (f : Core → Core) : (s.modCore t f).reqs = s.reqs := rfl
@[simp] theorem State.modCore_held (s : State) (t : Nat) (f : Core → Core) : (s.modCore t f).held = s.held := rfl
@[simp] theorem State.modCore_pins (s : State) (t : Nat) (f : Core → Core) : (s.modCore t f).pins = s.pins := rfl
@[simp] theorem State.modCore_pageJobs (s : State) (t : Nat) (f : Core → Core) : (s.modCore t f).pageJobs = s.pageJobs := rfl
@[simp] theorem State.modCore_ctxs (s : State) (t : Nat) (f : Core → Core) : (s.modCore t f).ctxs = s.ctxs := rfl
@[simp] theorem State.modCore_launches (s : State) (t : Nat) (f : Core → Core) : (s.modCore t f).launches = s.launches := rfl
@[simp] theorem State.modCore_gangs (s : State) (t : Nat) (f : Core → Core) : (s.modCore t f).gangs = s.gangs := rfl
@[simp] theorem State.modCore_spawns (s : State) (t : Nat) (f : Core → Core) : (s.modCore t f).spawns = s.spawns := rfl
@[simp] theorem State.modCore_sends (s : State) (t : Nat) (f : Core → Core) : (s.modCore t f).sends = s.sends := rfl
@[simp] theorem State.modCore_dispNext (s : State) (t : Nat) (f : Core → Core) : (s.modCore t f).dispNext = s.dispNext := rfl
@[simp] theorem State.modCore_served (s : State) (t : Nat) (f : Core → Core) : (s.modCore t f).served = s.served := rfl
@[simp] theorem State.modCore_affinity (s : State) (t : Nat) (f : Core → Core) : (s.modCore t f).affinity = s.affinity := rfl
@[simp] theorem State.modCore_barMarks (s : State) (t : Nat) (f : Core → Core) : (s.modCore t f).barMarks = s.barMarks := rfl
@[simp] theorem State.modCore_barBusy (s : State) (t : Nat) (f : Core → Core) : (s.modCore t f).barBusy = s.barBusy := rfl
@[simp] theorem State.modCore_waiters (s : State) (t : Nat) (f : Core → Core) : (s.modCore t f).waiters = s.waiters := rfl
@[simp] theorem State.modCore_timeouts (s : State) (t : Nat) (f : Core → Core) : (s.modCore t f).timeouts = s.timeouts := rfl
@[simp] theorem State.modCore_msix (s : State) (t : Nat) (f : Core → Core) : (s.modCore t f).msix = s.msix := rfl
@[simp] theorem State.modCore_pba (s : State) (t : Nat) (f : Core → Core) : (s.modCore t f).pba = s.pba := rfl
@[simp] theorem State.modCore_windows (s : State) (t : Nat) (f : Core → Core) : (s.modCore t f).windows = s.windows := rfl
@[simp] theorem State.modCore_clusters (s : State) (t : Nat) (f : Core → Core) : (s.modCore t f).clusters = s.clusters := rfl
@[simp] theorem State.modCore_rail (s : State) (t : Nat) (f : Core → Core) : (s.modCore t f).rail = s.rail := rfl
@[simp] theorem State.modCore_inrush (s : State) (t : Nat) (f : Core → Core) : (s.modCore t f).inrush = s.inrush := rfl
@[simp] theorem State.modCore_dieCount (s : State) (t : Nat) (f : Core → Core) : (s.modCore t f).dieCount = s.dieCount := rfl
@[simp] theorem State.modCore_phase (s : State) (t : Nat) (f : Core → Core) : (s.modCore t f).phase = s.phase := rfl
@[simp] theorem State.modCore_fcode (s : State) (t : Nat) (f : Core → Core) : (s.modCore t f).fcode = s.fcode := rfl
@[simp] theorem State.modCore_owner (s : State) (t : Nat) (f : Core → Core) : (s.modCore t f).owner = s.owner := rfl
@[simp] theorem State.modCore_masters (s : State) (t : Nat) (f : Core → Core) : (s.modCore t f).masters = s.masters := rfl
@[simp] theorem State.modCore_mcp (s : State) (t : Nat) (f : Core → Core) : (s.modCore t f).mcp = s.mcp := rfl
@[simp] theorem State.modCore_mcpQ (s : State) (t : Nat) (f : Core → Core) : (s.modCore t f).mcpQ = s.mcpQ := rfl
@[simp] theorem State.modCore_waiting (s : State) (t : Nat) (f : Core → Core) : (s.modCore t f).waiting = s.waiting := rfl
@[simp] theorem State.modCore_log (s : State) (t : Nat) (f : Core → Core) : (s.modCore t f).log = s.log := rfl
@[simp] theorem State.modCore_stallY (s : State) (t : Nat) (f : Core → Core) : (s.modCore t f).stallY = s.stallY := rfl
@[simp] theorem State.modCore_completions (s : State) (t : Nat) (f : Core → Core) : (s.modCore t f).completions = s.completions := rfl
@[simp] theorem State.modCore_wbase (s : State) (t : Nat) (f : Core → Core) : (s.modCore t f).wbase = s.wbase := rfl
@[simp] theorem State.modCore_upPorts (s : State) (t : Nat) (f : Core → Core) : (s.modCore t f).upPorts = s.upPorts := rfl
@[simp] theorem State.modCore_downAt (s : State) (t : Nat) (f : Core → Core) : (s.modCore t f).downAt = s.downAt := rfl
@[simp] theorem State.modCore_d3hot (s : State) (t : Nat) (f : Core → Core) : (s.modCore t f).d3hot = s.d3hot := rfl
@[simp] theorem State.modCore_bifurcated (s : State) (t : Nat) (f : Core → Core) : (s.modCore t f).bifurcated = s.bifurcated := rfl
@[simp] theorem State.modCore_cmds (s : State) (t : Nat) (f : Core → Core) : (s.modCore t f).cmds = s.cmds := rfl
@[simp] theorem State.modCore_streams (s : State) (t : Nat) (f : Core → Core) : (s.modCore t f).streams = s.streams := rfl
@[simp] theorem State.modCore_meets (s : State) (t : Nat) (f : Core → Core) : (s.modCore t f).meets = s.meets := rfl
@[simp] theorem State.modCore_waves (s : State) (t : Nat) (f : Core → Core) : (s.modCore t f).waves = s.waves := rfl
@[simp] theorem State.modCore_images (s : State) (t : Nat) (f : Core → Core) : (s.modCore t f).images = s.images := rfl
@[simp] theorem State.modCore_energy (s : State) (t : Nat) (f : Core → Core) : (s.modCore t f).energy = s.energy := rfl

/-! ### `modStrand` -/

@[simp] theorem State.modStrand_tick (s : State) (t n : Nat) (f : Strand → Strand) : (s.modStrand t n f).tick = s.tick := rfl
@[simp] theorem State.modStrand_turn (s : State) (t n : Nat) (f : Strand → Strand) : (s.modStrand t n f).turn = s.turn := rfl
@[simp] theorem State.modStrand_cur (s : State) (t n : Nat) (f : Strand → Strand) : (s.modStrand t n f).cur = s.cur := rfl
@[simp] theorem State.modStrand_ev (s : State) (t n : Nat) (f : Strand → Strand) : (s.modStrand t n f).ev = s.ev := rfl
@[simp] theorem State.modStrand_agenda (s : State) (t n : Nat) (f : Strand → Strand) : (s.modStrand t n f).agenda = s.agenda := rfl
@[simp] theorem State.modStrand_fresh (s : State) (t n : Nat) (f : Strand → Strand) : (s.modStrand t n f).fresh = s.fresh := rfl
@[simp] theorem State.modStrand_mem (s : State) (t n : Nat) (f : Strand → Strand) : (s.modStrand t n f).mem = s.mem := rfl
@[simp] theorem State.modStrand_ids (s : State) (t n : Nat) (f : Strand → Strand) : (s.modStrand t n f).ids = s.ids := rfl
@[simp] theorem State.modStrand_pkts (s : State) (t n : Nat) (f : Strand → Strand) : (s.modStrand t n f).pkts = s.pkts := rfl
@[simp] theorem State.modStrand_linkTurn (s : State) (t n : Nat) (f : Strand → Strand) : (s.modStrand t n f).linkTurn = s.linkTurn := rfl
@[simp] theorem State.modStrand_inTurn (s : State) (t n : Nat) (f : Strand → Strand) : (s.modStrand t n f).inTurn = s.inTurn := rfl
@[simp] theorem State.modStrand_linkTick (s : State) (t n : Nat) (f : Strand → Strand) : (s.modStrand t n f).linkTick = s.linkTick := rfl
@[simp] theorem State.modStrand_links (s : State) (t n : Nat) (f : Strand → Strand) : (s.modStrand t n f).links = s.links := rfl
@[simp] theorem State.modStrand_linkBase (s : State) (t n : Nat) (f : Strand → Strand) : (s.modStrand t n f).linkBase = s.linkBase := rfl
@[simp] theorem State.modStrand_clocks (s : State) (t n : Nat) (f : Strand → Strand) : (s.modStrand t n f).clocks = s.clocks := rfl
@[simp] theorem State.modStrand_noticed (s : State) (t n : Nat) (f : Strand → Strand) : (s.modStrand t n f).noticed = s.noticed := rfl
@[simp] theorem State.modStrand_bursts (s : State) (t n : Nat) (f : Strand → Strand) : (s.modStrand t n f).bursts = s.bursts := rfl
@[simp] theorem State.modStrand_lamport (s : State) (t n : Nat) (f : Strand → Strand) : (s.modStrand t n f).lamport = s.lamport := rfl
@[simp] theorem State.modStrand_pairs (s : State) (t n : Nat) (f : Strand → Strand) : (s.modStrand t n f).pairs = s.pairs := rfl
@[simp] theorem State.modStrand_tags (s : State) (t n : Nat) (f : Strand → Strand) : (s.modStrand t n f).tags = s.tags := rfl
@[simp] theorem State.modStrand_badLines (s : State) (t n : Nat) (f : Strand → Strand) : (s.modStrand t n f).badLines = s.badLines := rfl
@[simp] theorem State.modStrand_badWords (s : State) (t n : Nat) (f : Strand → Strand) : (s.modStrand t n f).badWords = s.badWords := rfl
@[simp] theorem State.modStrand_tlb (s : State) (t n : Nat) (f : Strand → Strand) : (s.modStrand t n f).tlb = s.tlb := rfl
@[simp] theorem State.modStrand_walks (s : State) (t n : Nat) (f : Strand → Strand) : (s.modStrand t n f).walks = s.walks := rfl
@[simp] theorem State.modStrand_reqs (s : State) (t n : Nat) (f : Strand → Strand) : (s.modStrand t n f).reqs = s.reqs := rfl
@[simp] theorem State.modStrand_held (s : State) (t n : Nat) (f : Strand → Strand) : (s.modStrand t n f).held = s.held := rfl
@[simp] theorem State.modStrand_pins (s : State) (t n : Nat) (f : Strand → Strand) : (s.modStrand t n f).pins = s.pins := rfl
@[simp] theorem State.modStrand_pageJobs (s : State) (t n : Nat) (f : Strand → Strand) : (s.modStrand t n f).pageJobs = s.pageJobs := rfl
@[simp] theorem State.modStrand_ctxs (s : State) (t n : Nat) (f : Strand → Strand) : (s.modStrand t n f).ctxs = s.ctxs := rfl
@[simp] theorem State.modStrand_launches (s : State) (t n : Nat) (f : Strand → Strand) : (s.modStrand t n f).launches = s.launches := rfl
@[simp] theorem State.modStrand_gangs (s : State) (t n : Nat) (f : Strand → Strand) : (s.modStrand t n f).gangs = s.gangs := rfl
@[simp] theorem State.modStrand_spawns (s : State) (t n : Nat) (f : Strand → Strand) : (s.modStrand t n f).spawns = s.spawns := rfl
@[simp] theorem State.modStrand_sends (s : State) (t n : Nat) (f : Strand → Strand) : (s.modStrand t n f).sends = s.sends := rfl
@[simp] theorem State.modStrand_dispNext (s : State) (t n : Nat) (f : Strand → Strand) : (s.modStrand t n f).dispNext = s.dispNext := rfl
@[simp] theorem State.modStrand_served (s : State) (t n : Nat) (f : Strand → Strand) : (s.modStrand t n f).served = s.served := rfl
@[simp] theorem State.modStrand_affinity (s : State) (t n : Nat) (f : Strand → Strand) : (s.modStrand t n f).affinity = s.affinity := rfl
@[simp] theorem State.modStrand_barMarks (s : State) (t n : Nat) (f : Strand → Strand) : (s.modStrand t n f).barMarks = s.barMarks := rfl
@[simp] theorem State.modStrand_barBusy (s : State) (t n : Nat) (f : Strand → Strand) : (s.modStrand t n f).barBusy = s.barBusy := rfl
@[simp] theorem State.modStrand_waiters (s : State) (t n : Nat) (f : Strand → Strand) : (s.modStrand t n f).waiters = s.waiters := rfl
@[simp] theorem State.modStrand_timeouts (s : State) (t n : Nat) (f : Strand → Strand) : (s.modStrand t n f).timeouts = s.timeouts := rfl
@[simp] theorem State.modStrand_msix (s : State) (t n : Nat) (f : Strand → Strand) : (s.modStrand t n f).msix = s.msix := rfl
@[simp] theorem State.modStrand_pba (s : State) (t n : Nat) (f : Strand → Strand) : (s.modStrand t n f).pba = s.pba := rfl
@[simp] theorem State.modStrand_windows (s : State) (t n : Nat) (f : Strand → Strand) : (s.modStrand t n f).windows = s.windows := rfl
@[simp] theorem State.modStrand_clusters (s : State) (t n : Nat) (f : Strand → Strand) : (s.modStrand t n f).clusters = s.clusters := rfl
@[simp] theorem State.modStrand_rail (s : State) (t n : Nat) (f : Strand → Strand) : (s.modStrand t n f).rail = s.rail := rfl
@[simp] theorem State.modStrand_inrush (s : State) (t n : Nat) (f : Strand → Strand) : (s.modStrand t n f).inrush = s.inrush := rfl
@[simp] theorem State.modStrand_dieCount (s : State) (t n : Nat) (f : Strand → Strand) : (s.modStrand t n f).dieCount = s.dieCount := rfl
@[simp] theorem State.modStrand_phase (s : State) (t n : Nat) (f : Strand → Strand) : (s.modStrand t n f).phase = s.phase := rfl
@[simp] theorem State.modStrand_fcode (s : State) (t n : Nat) (f : Strand → Strand) : (s.modStrand t n f).fcode = s.fcode := rfl
@[simp] theorem State.modStrand_owner (s : State) (t n : Nat) (f : Strand → Strand) : (s.modStrand t n f).owner = s.owner := rfl
@[simp] theorem State.modStrand_masters (s : State) (t n : Nat) (f : Strand → Strand) : (s.modStrand t n f).masters = s.masters := rfl
@[simp] theorem State.modStrand_mcp (s : State) (t n : Nat) (f : Strand → Strand) : (s.modStrand t n f).mcp = s.mcp := rfl
@[simp] theorem State.modStrand_mcpQ (s : State) (t n : Nat) (f : Strand → Strand) : (s.modStrand t n f).mcpQ = s.mcpQ := rfl
@[simp] theorem State.modStrand_waiting (s : State) (t n : Nat) (f : Strand → Strand) : (s.modStrand t n f).waiting = s.waiting := rfl
@[simp] theorem State.modStrand_log (s : State) (t n : Nat) (f : Strand → Strand) : (s.modStrand t n f).log = s.log := rfl
@[simp] theorem State.modStrand_stallY (s : State) (t n : Nat) (f : Strand → Strand) : (s.modStrand t n f).stallY = s.stallY := rfl
@[simp] theorem State.modStrand_completions (s : State) (t n : Nat) (f : Strand → Strand) : (s.modStrand t n f).completions = s.completions := rfl
@[simp] theorem State.modStrand_wbase (s : State) (t n : Nat) (f : Strand → Strand) : (s.modStrand t n f).wbase = s.wbase := rfl
@[simp] theorem State.modStrand_upPorts (s : State) (t n : Nat) (f : Strand → Strand) : (s.modStrand t n f).upPorts = s.upPorts := rfl
@[simp] theorem State.modStrand_downAt (s : State) (t n : Nat) (f : Strand → Strand) : (s.modStrand t n f).downAt = s.downAt := rfl
@[simp] theorem State.modStrand_d3hot (s : State) (t n : Nat) (f : Strand → Strand) : (s.modStrand t n f).d3hot = s.d3hot := rfl
@[simp] theorem State.modStrand_bifurcated (s : State) (t n : Nat) (f : Strand → Strand) : (s.modStrand t n f).bifurcated = s.bifurcated := rfl
@[simp] theorem State.modStrand_cmds (s : State) (t n : Nat) (f : Strand → Strand) : (s.modStrand t n f).cmds = s.cmds := rfl
@[simp] theorem State.modStrand_streams (s : State) (t n : Nat) (f : Strand → Strand) : (s.modStrand t n f).streams = s.streams := rfl
@[simp] theorem State.modStrand_meets (s : State) (t n : Nat) (f : Strand → Strand) : (s.modStrand t n f).meets = s.meets := rfl
@[simp] theorem State.modStrand_waves (s : State) (t n : Nat) (f : Strand → Strand) : (s.modStrand t n f).waves = s.waves := rfl
@[simp] theorem State.modStrand_images (s : State) (t n : Nat) (f : Strand → Strand) : (s.modStrand t n f).images = s.images := rfl
@[simp] theorem State.modStrand_energy (s : State) (t n : Nat) (f : Strand → Strand) : (s.modStrand t n f).energy = s.energy := rfl

/-! ### `setMem` -/

@[simp] theorem State.setMem_tick (s : State) (m : List Host.Cell) : (s.setMem m).tick = s.tick := rfl
@[simp] theorem State.setMem_turn (s : State) (m : List Host.Cell) : (s.setMem m).turn = s.turn := rfl
@[simp] theorem State.setMem_cur (s : State) (m : List Host.Cell) : (s.setMem m).cur = s.cur := rfl
@[simp] theorem State.setMem_ev (s : State) (m : List Host.Cell) : (s.setMem m).ev = s.ev := rfl
@[simp] theorem State.setMem_agenda (s : State) (m : List Host.Cell) : (s.setMem m).agenda = s.agenda := rfl
@[simp] theorem State.setMem_fresh (s : State) (m : List Host.Cell) : (s.setMem m).fresh = s.fresh := rfl
@[simp] theorem State.setMem_tiles (s : State) (m : List Host.Cell) : (s.setMem m).tiles = s.tiles := rfl
@[simp] theorem State.setMem_ids (s : State) (m : List Host.Cell) : (s.setMem m).ids = s.ids := rfl
@[simp] theorem State.setMem_pkts (s : State) (m : List Host.Cell) : (s.setMem m).pkts = s.pkts := rfl
@[simp] theorem State.setMem_linkTurn (s : State) (m : List Host.Cell) : (s.setMem m).linkTurn = s.linkTurn := rfl
@[simp] theorem State.setMem_inTurn (s : State) (m : List Host.Cell) : (s.setMem m).inTurn = s.inTurn := rfl
@[simp] theorem State.setMem_linkTick (s : State) (m : List Host.Cell) : (s.setMem m).linkTick = s.linkTick := rfl
@[simp] theorem State.setMem_links (s : State) (m : List Host.Cell) : (s.setMem m).links = s.links := rfl
@[simp] theorem State.setMem_linkBase (s : State) (m : List Host.Cell) : (s.setMem m).linkBase = s.linkBase := rfl
@[simp] theorem State.setMem_clocks (s : State) (m : List Host.Cell) : (s.setMem m).clocks = s.clocks := rfl
@[simp] theorem State.setMem_noticed (s : State) (m : List Host.Cell) : (s.setMem m).noticed = s.noticed := rfl
@[simp] theorem State.setMem_bursts (s : State) (m : List Host.Cell) : (s.setMem m).bursts = s.bursts := rfl
@[simp] theorem State.setMem_lamport (s : State) (m : List Host.Cell) : (s.setMem m).lamport = s.lamport := rfl
@[simp] theorem State.setMem_pairs (s : State) (m : List Host.Cell) : (s.setMem m).pairs = s.pairs := rfl
@[simp] theorem State.setMem_tags (s : State) (m : List Host.Cell) : (s.setMem m).tags = s.tags := rfl
@[simp] theorem State.setMem_badLines (s : State) (m : List Host.Cell) : (s.setMem m).badLines = s.badLines := rfl
@[simp] theorem State.setMem_badWords (s : State) (m : List Host.Cell) : (s.setMem m).badWords = s.badWords := rfl
@[simp] theorem State.setMem_tlb (s : State) (m : List Host.Cell) : (s.setMem m).tlb = s.tlb := rfl
@[simp] theorem State.setMem_walks (s : State) (m : List Host.Cell) : (s.setMem m).walks = s.walks := rfl
@[simp] theorem State.setMem_reqs (s : State) (m : List Host.Cell) : (s.setMem m).reqs = s.reqs := rfl
@[simp] theorem State.setMem_held (s : State) (m : List Host.Cell) : (s.setMem m).held = s.held := rfl
@[simp] theorem State.setMem_pins (s : State) (m : List Host.Cell) : (s.setMem m).pins = s.pins := rfl
@[simp] theorem State.setMem_pageJobs (s : State) (m : List Host.Cell) : (s.setMem m).pageJobs = s.pageJobs := rfl
@[simp] theorem State.setMem_ctxs (s : State) (m : List Host.Cell) : (s.setMem m).ctxs = s.ctxs := rfl
@[simp] theorem State.setMem_launches (s : State) (m : List Host.Cell) : (s.setMem m).launches = s.launches := rfl
@[simp] theorem State.setMem_gangs (s : State) (m : List Host.Cell) : (s.setMem m).gangs = s.gangs := rfl
@[simp] theorem State.setMem_spawns (s : State) (m : List Host.Cell) : (s.setMem m).spawns = s.spawns := rfl
@[simp] theorem State.setMem_sends (s : State) (m : List Host.Cell) : (s.setMem m).sends = s.sends := rfl
@[simp] theorem State.setMem_dispNext (s : State) (m : List Host.Cell) : (s.setMem m).dispNext = s.dispNext := rfl
@[simp] theorem State.setMem_served (s : State) (m : List Host.Cell) : (s.setMem m).served = s.served := rfl
@[simp] theorem State.setMem_affinity (s : State) (m : List Host.Cell) : (s.setMem m).affinity = s.affinity := rfl
@[simp] theorem State.setMem_barMarks (s : State) (m : List Host.Cell) : (s.setMem m).barMarks = s.barMarks := rfl
@[simp] theorem State.setMem_barBusy (s : State) (m : List Host.Cell) : (s.setMem m).barBusy = s.barBusy := rfl
@[simp] theorem State.setMem_waiters (s : State) (m : List Host.Cell) : (s.setMem m).waiters = s.waiters := rfl
@[simp] theorem State.setMem_timeouts (s : State) (m : List Host.Cell) : (s.setMem m).timeouts = s.timeouts := rfl
@[simp] theorem State.setMem_msix (s : State) (m : List Host.Cell) : (s.setMem m).msix = s.msix := rfl
@[simp] theorem State.setMem_pba (s : State) (m : List Host.Cell) : (s.setMem m).pba = s.pba := rfl
@[simp] theorem State.setMem_windows (s : State) (m : List Host.Cell) : (s.setMem m).windows = s.windows := rfl
@[simp] theorem State.setMem_clusters (s : State) (m : List Host.Cell) : (s.setMem m).clusters = s.clusters := rfl
@[simp] theorem State.setMem_rail (s : State) (m : List Host.Cell) : (s.setMem m).rail = s.rail := rfl
@[simp] theorem State.setMem_inrush (s : State) (m : List Host.Cell) : (s.setMem m).inrush = s.inrush := rfl
@[simp] theorem State.setMem_dieCount (s : State) (m : List Host.Cell) : (s.setMem m).dieCount = s.dieCount := rfl
@[simp] theorem State.setMem_phase (s : State) (m : List Host.Cell) : (s.setMem m).phase = s.phase := rfl
@[simp] theorem State.setMem_fcode (s : State) (m : List Host.Cell) : (s.setMem m).fcode = s.fcode := rfl
@[simp] theorem State.setMem_owner (s : State) (m : List Host.Cell) : (s.setMem m).owner = s.owner := rfl
@[simp] theorem State.setMem_masters (s : State) (m : List Host.Cell) : (s.setMem m).masters = s.masters := rfl
@[simp] theorem State.setMem_mcp (s : State) (m : List Host.Cell) : (s.setMem m).mcp = s.mcp := rfl
@[simp] theorem State.setMem_mcpQ (s : State) (m : List Host.Cell) : (s.setMem m).mcpQ = s.mcpQ := rfl
@[simp] theorem State.setMem_waiting (s : State) (m : List Host.Cell) : (s.setMem m).waiting = s.waiting := rfl
@[simp] theorem State.setMem_log (s : State) (m : List Host.Cell) : (s.setMem m).log = s.log := rfl
@[simp] theorem State.setMem_stallY (s : State) (m : List Host.Cell) : (s.setMem m).stallY = s.stallY := rfl
@[simp] theorem State.setMem_completions (s : State) (m : List Host.Cell) : (s.setMem m).completions = s.completions := rfl
@[simp] theorem State.setMem_wbase (s : State) (m : List Host.Cell) : (s.setMem m).wbase = s.wbase := rfl
@[simp] theorem State.setMem_upPorts (s : State) (m : List Host.Cell) : (s.setMem m).upPorts = s.upPorts := rfl
@[simp] theorem State.setMem_downAt (s : State) (m : List Host.Cell) : (s.setMem m).downAt = s.downAt := rfl
@[simp] theorem State.setMem_d3hot (s : State) (m : List Host.Cell) : (s.setMem m).d3hot = s.d3hot := rfl
@[simp] theorem State.setMem_bifurcated (s : State) (m : List Host.Cell) : (s.setMem m).bifurcated = s.bifurcated := rfl
@[simp] theorem State.setMem_cmds (s : State) (m : List Host.Cell) : (s.setMem m).cmds = s.cmds := rfl
@[simp] theorem State.setMem_streams (s : State) (m : List Host.Cell) : (s.setMem m).streams = s.streams := rfl
@[simp] theorem State.setMem_meets (s : State) (m : List Host.Cell) : (s.setMem m).meets = s.meets := rfl
@[simp] theorem State.setMem_waves (s : State) (m : List Host.Cell) : (s.setMem m).waves = s.waves := rfl
@[simp] theorem State.setMem_images (s : State) (m : List Host.Cell) : (s.setMem m).images = s.images := rfl
@[simp] theorem State.setMem_energy (s : State) (m : List Host.Cell) : (s.setMem m).energy = s.energy := rfl

/-! ### `atTick` -/

@[simp] theorem State.atTick_tick (s : State) (k r : Nat) (i : Instr) (o : Operand) : (s.atTick k r i o).tick = s.tick := rfl
@[simp] theorem State.atTick_turn (s : State) (k r : Nat) (i : Instr) (o : Operand) : (s.atTick k r i o).turn = s.turn := rfl
@[simp] theorem State.atTick_cur (s : State) (k r : Nat) (i : Instr) (o : Operand) : (s.atTick k r i o).cur = s.cur := rfl
@[simp] theorem State.atTick_ev (s : State) (k r : Nat) (i : Instr) (o : Operand) : (s.atTick k r i o).ev = s.ev := rfl
@[simp] theorem State.atTick_fresh (s : State) (k r : Nat) (i : Instr) (o : Operand) : (s.atTick k r i o).fresh = s.fresh := rfl
@[simp] theorem State.atTick_mem (s : State) (k r : Nat) (i : Instr) (o : Operand) : (s.atTick k r i o).mem = s.mem := rfl
@[simp] theorem State.atTick_tiles (s : State) (k r : Nat) (i : Instr) (o : Operand) : (s.atTick k r i o).tiles = s.tiles := rfl
@[simp] theorem State.atTick_ids (s : State) (k r : Nat) (i : Instr) (o : Operand) : (s.atTick k r i o).ids = s.ids := rfl
@[simp] theorem State.atTick_pkts (s : State) (k r : Nat) (i : Instr) (o : Operand) : (s.atTick k r i o).pkts = s.pkts := rfl
@[simp] theorem State.atTick_linkTurn (s : State) (k r : Nat) (i : Instr) (o : Operand) : (s.atTick k r i o).linkTurn = s.linkTurn := rfl
@[simp] theorem State.atTick_inTurn (s : State) (k r : Nat) (i : Instr) (o : Operand) : (s.atTick k r i o).inTurn = s.inTurn := rfl
@[simp] theorem State.atTick_linkTick (s : State) (k r : Nat) (i : Instr) (o : Operand) : (s.atTick k r i o).linkTick = s.linkTick := rfl
@[simp] theorem State.atTick_links (s : State) (k r : Nat) (i : Instr) (o : Operand) : (s.atTick k r i o).links = s.links := rfl
@[simp] theorem State.atTick_linkBase (s : State) (k r : Nat) (i : Instr) (o : Operand) : (s.atTick k r i o).linkBase = s.linkBase := rfl
@[simp] theorem State.atTick_clocks (s : State) (k r : Nat) (i : Instr) (o : Operand) : (s.atTick k r i o).clocks = s.clocks := rfl
@[simp] theorem State.atTick_noticed (s : State) (k r : Nat) (i : Instr) (o : Operand) : (s.atTick k r i o).noticed = s.noticed := rfl
@[simp] theorem State.atTick_bursts (s : State) (k r : Nat) (i : Instr) (o : Operand) : (s.atTick k r i o).bursts = s.bursts := rfl
@[simp] theorem State.atTick_lamport (s : State) (k r : Nat) (i : Instr) (o : Operand) : (s.atTick k r i o).lamport = s.lamport := rfl
@[simp] theorem State.atTick_pairs (s : State) (k r : Nat) (i : Instr) (o : Operand) : (s.atTick k r i o).pairs = s.pairs := rfl
@[simp] theorem State.atTick_tags (s : State) (k r : Nat) (i : Instr) (o : Operand) : (s.atTick k r i o).tags = s.tags := rfl
@[simp] theorem State.atTick_badLines (s : State) (k r : Nat) (i : Instr) (o : Operand) : (s.atTick k r i o).badLines = s.badLines := rfl
@[simp] theorem State.atTick_badWords (s : State) (k r : Nat) (i : Instr) (o : Operand) : (s.atTick k r i o).badWords = s.badWords := rfl
@[simp] theorem State.atTick_tlb (s : State) (k r : Nat) (i : Instr) (o : Operand) : (s.atTick k r i o).tlb = s.tlb := rfl
@[simp] theorem State.atTick_walks (s : State) (k r : Nat) (i : Instr) (o : Operand) : (s.atTick k r i o).walks = s.walks := rfl
@[simp] theorem State.atTick_reqs (s : State) (k r : Nat) (i : Instr) (o : Operand) : (s.atTick k r i o).reqs = s.reqs := rfl
@[simp] theorem State.atTick_held (s : State) (k r : Nat) (i : Instr) (o : Operand) : (s.atTick k r i o).held = s.held := rfl
@[simp] theorem State.atTick_pins (s : State) (k r : Nat) (i : Instr) (o : Operand) : (s.atTick k r i o).pins = s.pins := rfl
@[simp] theorem State.atTick_pageJobs (s : State) (k r : Nat) (i : Instr) (o : Operand) : (s.atTick k r i o).pageJobs = s.pageJobs := rfl
@[simp] theorem State.atTick_ctxs (s : State) (k r : Nat) (i : Instr) (o : Operand) : (s.atTick k r i o).ctxs = s.ctxs := rfl
@[simp] theorem State.atTick_launches (s : State) (k r : Nat) (i : Instr) (o : Operand) : (s.atTick k r i o).launches = s.launches := rfl
@[simp] theorem State.atTick_gangs (s : State) (k r : Nat) (i : Instr) (o : Operand) : (s.atTick k r i o).gangs = s.gangs := rfl
@[simp] theorem State.atTick_spawns (s : State) (k r : Nat) (i : Instr) (o : Operand) : (s.atTick k r i o).spawns = s.spawns := rfl
@[simp] theorem State.atTick_sends (s : State) (k r : Nat) (i : Instr) (o : Operand) : (s.atTick k r i o).sends = s.sends := rfl
@[simp] theorem State.atTick_dispNext (s : State) (k r : Nat) (i : Instr) (o : Operand) : (s.atTick k r i o).dispNext = s.dispNext := rfl
@[simp] theorem State.atTick_served (s : State) (k r : Nat) (i : Instr) (o : Operand) : (s.atTick k r i o).served = s.served := rfl
@[simp] theorem State.atTick_affinity (s : State) (k r : Nat) (i : Instr) (o : Operand) : (s.atTick k r i o).affinity = s.affinity := rfl
@[simp] theorem State.atTick_barMarks (s : State) (k r : Nat) (i : Instr) (o : Operand) : (s.atTick k r i o).barMarks = s.barMarks := rfl
@[simp] theorem State.atTick_barBusy (s : State) (k r : Nat) (i : Instr) (o : Operand) : (s.atTick k r i o).barBusy = s.barBusy := rfl
@[simp] theorem State.atTick_waiters (s : State) (k r : Nat) (i : Instr) (o : Operand) : (s.atTick k r i o).waiters = s.waiters := rfl
@[simp] theorem State.atTick_timeouts (s : State) (k r : Nat) (i : Instr) (o : Operand) : (s.atTick k r i o).timeouts = s.timeouts := rfl
@[simp] theorem State.atTick_msix (s : State) (k r : Nat) (i : Instr) (o : Operand) : (s.atTick k r i o).msix = s.msix := rfl
@[simp] theorem State.atTick_pba (s : State) (k r : Nat) (i : Instr) (o : Operand) : (s.atTick k r i o).pba = s.pba := rfl
@[simp] theorem State.atTick_windows (s : State) (k r : Nat) (i : Instr) (o : Operand) : (s.atTick k r i o).windows = s.windows := rfl
@[simp] theorem State.atTick_clusters (s : State) (k r : Nat) (i : Instr) (o : Operand) : (s.atTick k r i o).clusters = s.clusters := rfl
@[simp] theorem State.atTick_rail (s : State) (k r : Nat) (i : Instr) (o : Operand) : (s.atTick k r i o).rail = s.rail := rfl
@[simp] theorem State.atTick_inrush (s : State) (k r : Nat) (i : Instr) (o : Operand) : (s.atTick k r i o).inrush = s.inrush := rfl
@[simp] theorem State.atTick_dieCount (s : State) (k r : Nat) (i : Instr) (o : Operand) : (s.atTick k r i o).dieCount = s.dieCount := rfl
@[simp] theorem State.atTick_phase (s : State) (k r : Nat) (i : Instr) (o : Operand) : (s.atTick k r i o).phase = s.phase := rfl
@[simp] theorem State.atTick_fcode (s : State) (k r : Nat) (i : Instr) (o : Operand) : (s.atTick k r i o).fcode = s.fcode := rfl
@[simp] theorem State.atTick_owner (s : State) (k r : Nat) (i : Instr) (o : Operand) : (s.atTick k r i o).owner = s.owner := rfl
@[simp] theorem State.atTick_masters (s : State) (k r : Nat) (i : Instr) (o : Operand) : (s.atTick k r i o).masters = s.masters := rfl
@[simp] theorem State.atTick_mcp (s : State) (k r : Nat) (i : Instr) (o : Operand) : (s.atTick k r i o).mcp = s.mcp := rfl
@[simp] theorem State.atTick_mcpQ (s : State) (k r : Nat) (i : Instr) (o : Operand) : (s.atTick k r i o).mcpQ = s.mcpQ := rfl
@[simp] theorem State.atTick_waiting (s : State) (k r : Nat) (i : Instr) (o : Operand) : (s.atTick k r i o).waiting = s.waiting := rfl
@[simp] theorem State.atTick_log (s : State) (k r : Nat) (i : Instr) (o : Operand) : (s.atTick k r i o).log = s.log := rfl
@[simp] theorem State.atTick_stallY (s : State) (k r : Nat) (i : Instr) (o : Operand) : (s.atTick k r i o).stallY = s.stallY := rfl
@[simp] theorem State.atTick_completions (s : State) (k r : Nat) (i : Instr) (o : Operand) : (s.atTick k r i o).completions = s.completions := rfl
@[simp] theorem State.atTick_wbase (s : State) (k r : Nat) (i : Instr) (o : Operand) : (s.atTick k r i o).wbase = s.wbase := rfl
@[simp] theorem State.atTick_upPorts (s : State) (k r : Nat) (i : Instr) (o : Operand) : (s.atTick k r i o).upPorts = s.upPorts := rfl
@[simp] theorem State.atTick_downAt (s : State) (k r : Nat) (i : Instr) (o : Operand) : (s.atTick k r i o).downAt = s.downAt := rfl
@[simp] theorem State.atTick_d3hot (s : State) (k r : Nat) (i : Instr) (o : Operand) : (s.atTick k r i o).d3hot = s.d3hot := rfl
@[simp] theorem State.atTick_bifurcated (s : State) (k r : Nat) (i : Instr) (o : Operand) : (s.atTick k r i o).bifurcated = s.bifurcated := rfl
@[simp] theorem State.atTick_cmds (s : State) (k r : Nat) (i : Instr) (o : Operand) : (s.atTick k r i o).cmds = s.cmds := rfl
@[simp] theorem State.atTick_streams (s : State) (k r : Nat) (i : Instr) (o : Operand) : (s.atTick k r i o).streams = s.streams := rfl
@[simp] theorem State.atTick_meets (s : State) (k r : Nat) (i : Instr) (o : Operand) : (s.atTick k r i o).meets = s.meets := rfl
@[simp] theorem State.atTick_waves (s : State) (k r : Nat) (i : Instr) (o : Operand) : (s.atTick k r i o).waves = s.waves := rfl
@[simp] theorem State.atTick_images (s : State) (k r : Nat) (i : Instr) (o : Operand) : (s.atTick k r i o).images = s.images := rfl
@[simp] theorem State.atTick_energy (s : State) (k r : Nat) (i : Instr) (o : Operand) : (s.atTick k r i o).energy = s.energy := rfl

/-! ### `after` -/

@[simp] theorem State.after_tick (s : State) (d : Nat) (i : Instr) (o : Operand) : (s.after d i o).tick = s.tick := rfl
@[simp] theorem State.after_turn (s : State) (d : Nat) (i : Instr) (o : Operand) : (s.after d i o).turn = s.turn := rfl
@[simp] theorem State.after_cur (s : State) (d : Nat) (i : Instr) (o : Operand) : (s.after d i o).cur = s.cur := rfl
@[simp] theorem State.after_ev (s : State) (d : Nat) (i : Instr) (o : Operand) : (s.after d i o).ev = s.ev := rfl
@[simp] theorem State.after_fresh (s : State) (d : Nat) (i : Instr) (o : Operand) : (s.after d i o).fresh = s.fresh := rfl
@[simp] theorem State.after_mem (s : State) (d : Nat) (i : Instr) (o : Operand) : (s.after d i o).mem = s.mem := rfl
@[simp] theorem State.after_tiles (s : State) (d : Nat) (i : Instr) (o : Operand) : (s.after d i o).tiles = s.tiles := rfl
@[simp] theorem State.after_ids (s : State) (d : Nat) (i : Instr) (o : Operand) : (s.after d i o).ids = s.ids := rfl
@[simp] theorem State.after_pkts (s : State) (d : Nat) (i : Instr) (o : Operand) : (s.after d i o).pkts = s.pkts := rfl
@[simp] theorem State.after_linkTurn (s : State) (d : Nat) (i : Instr) (o : Operand) : (s.after d i o).linkTurn = s.linkTurn := rfl
@[simp] theorem State.after_inTurn (s : State) (d : Nat) (i : Instr) (o : Operand) : (s.after d i o).inTurn = s.inTurn := rfl
@[simp] theorem State.after_linkTick (s : State) (d : Nat) (i : Instr) (o : Operand) : (s.after d i o).linkTick = s.linkTick := rfl
@[simp] theorem State.after_links (s : State) (d : Nat) (i : Instr) (o : Operand) : (s.after d i o).links = s.links := rfl
@[simp] theorem State.after_linkBase (s : State) (d : Nat) (i : Instr) (o : Operand) : (s.after d i o).linkBase = s.linkBase := rfl
@[simp] theorem State.after_clocks (s : State) (d : Nat) (i : Instr) (o : Operand) : (s.after d i o).clocks = s.clocks := rfl
@[simp] theorem State.after_noticed (s : State) (d : Nat) (i : Instr) (o : Operand) : (s.after d i o).noticed = s.noticed := rfl
@[simp] theorem State.after_bursts (s : State) (d : Nat) (i : Instr) (o : Operand) : (s.after d i o).bursts = s.bursts := rfl
@[simp] theorem State.after_lamport (s : State) (d : Nat) (i : Instr) (o : Operand) : (s.after d i o).lamport = s.lamport := rfl
@[simp] theorem State.after_pairs (s : State) (d : Nat) (i : Instr) (o : Operand) : (s.after d i o).pairs = s.pairs := rfl
@[simp] theorem State.after_tags (s : State) (d : Nat) (i : Instr) (o : Operand) : (s.after d i o).tags = s.tags := rfl
@[simp] theorem State.after_badLines (s : State) (d : Nat) (i : Instr) (o : Operand) : (s.after d i o).badLines = s.badLines := rfl
@[simp] theorem State.after_badWords (s : State) (d : Nat) (i : Instr) (o : Operand) : (s.after d i o).badWords = s.badWords := rfl
@[simp] theorem State.after_tlb (s : State) (d : Nat) (i : Instr) (o : Operand) : (s.after d i o).tlb = s.tlb := rfl
@[simp] theorem State.after_walks (s : State) (d : Nat) (i : Instr) (o : Operand) : (s.after d i o).walks = s.walks := rfl
@[simp] theorem State.after_reqs (s : State) (d : Nat) (i : Instr) (o : Operand) : (s.after d i o).reqs = s.reqs := rfl
@[simp] theorem State.after_held (s : State) (d : Nat) (i : Instr) (o : Operand) : (s.after d i o).held = s.held := rfl
@[simp] theorem State.after_pins (s : State) (d : Nat) (i : Instr) (o : Operand) : (s.after d i o).pins = s.pins := rfl
@[simp] theorem State.after_pageJobs (s : State) (d : Nat) (i : Instr) (o : Operand) : (s.after d i o).pageJobs = s.pageJobs := rfl
@[simp] theorem State.after_ctxs (s : State) (d : Nat) (i : Instr) (o : Operand) : (s.after d i o).ctxs = s.ctxs := rfl
@[simp] theorem State.after_launches (s : State) (d : Nat) (i : Instr) (o : Operand) : (s.after d i o).launches = s.launches := rfl
@[simp] theorem State.after_gangs (s : State) (d : Nat) (i : Instr) (o : Operand) : (s.after d i o).gangs = s.gangs := rfl
@[simp] theorem State.after_spawns (s : State) (d : Nat) (i : Instr) (o : Operand) : (s.after d i o).spawns = s.spawns := rfl
@[simp] theorem State.after_sends (s : State) (d : Nat) (i : Instr) (o : Operand) : (s.after d i o).sends = s.sends := rfl
@[simp] theorem State.after_dispNext (s : State) (d : Nat) (i : Instr) (o : Operand) : (s.after d i o).dispNext = s.dispNext := rfl
@[simp] theorem State.after_served (s : State) (d : Nat) (i : Instr) (o : Operand) : (s.after d i o).served = s.served := rfl
@[simp] theorem State.after_affinity (s : State) (d : Nat) (i : Instr) (o : Operand) : (s.after d i o).affinity = s.affinity := rfl
@[simp] theorem State.after_barMarks (s : State) (d : Nat) (i : Instr) (o : Operand) : (s.after d i o).barMarks = s.barMarks := rfl
@[simp] theorem State.after_barBusy (s : State) (d : Nat) (i : Instr) (o : Operand) : (s.after d i o).barBusy = s.barBusy := rfl
@[simp] theorem State.after_waiters (s : State) (d : Nat) (i : Instr) (o : Operand) : (s.after d i o).waiters = s.waiters := rfl
@[simp] theorem State.after_timeouts (s : State) (d : Nat) (i : Instr) (o : Operand) : (s.after d i o).timeouts = s.timeouts := rfl
@[simp] theorem State.after_msix (s : State) (d : Nat) (i : Instr) (o : Operand) : (s.after d i o).msix = s.msix := rfl
@[simp] theorem State.after_pba (s : State) (d : Nat) (i : Instr) (o : Operand) : (s.after d i o).pba = s.pba := rfl
@[simp] theorem State.after_windows (s : State) (d : Nat) (i : Instr) (o : Operand) : (s.after d i o).windows = s.windows := rfl
@[simp] theorem State.after_clusters (s : State) (d : Nat) (i : Instr) (o : Operand) : (s.after d i o).clusters = s.clusters := rfl
@[simp] theorem State.after_rail (s : State) (d : Nat) (i : Instr) (o : Operand) : (s.after d i o).rail = s.rail := rfl
@[simp] theorem State.after_inrush (s : State) (d : Nat) (i : Instr) (o : Operand) : (s.after d i o).inrush = s.inrush := rfl
@[simp] theorem State.after_dieCount (s : State) (d : Nat) (i : Instr) (o : Operand) : (s.after d i o).dieCount = s.dieCount := rfl
@[simp] theorem State.after_phase (s : State) (d : Nat) (i : Instr) (o : Operand) : (s.after d i o).phase = s.phase := rfl
@[simp] theorem State.after_fcode (s : State) (d : Nat) (i : Instr) (o : Operand) : (s.after d i o).fcode = s.fcode := rfl
@[simp] theorem State.after_owner (s : State) (d : Nat) (i : Instr) (o : Operand) : (s.after d i o).owner = s.owner := rfl
@[simp] theorem State.after_masters (s : State) (d : Nat) (i : Instr) (o : Operand) : (s.after d i o).masters = s.masters := rfl
@[simp] theorem State.after_mcp (s : State) (d : Nat) (i : Instr) (o : Operand) : (s.after d i o).mcp = s.mcp := rfl
@[simp] theorem State.after_mcpQ (s : State) (d : Nat) (i : Instr) (o : Operand) : (s.after d i o).mcpQ = s.mcpQ := rfl
@[simp] theorem State.after_waiting (s : State) (d : Nat) (i : Instr) (o : Operand) : (s.after d i o).waiting = s.waiting := rfl
@[simp] theorem State.after_log (s : State) (d : Nat) (i : Instr) (o : Operand) : (s.after d i o).log = s.log := rfl
@[simp] theorem State.after_stallY (s : State) (d : Nat) (i : Instr) (o : Operand) : (s.after d i o).stallY = s.stallY := rfl
@[simp] theorem State.after_completions (s : State) (d : Nat) (i : Instr) (o : Operand) : (s.after d i o).completions = s.completions := rfl
@[simp] theorem State.after_wbase (s : State) (d : Nat) (i : Instr) (o : Operand) : (s.after d i o).wbase = s.wbase := rfl
@[simp] theorem State.after_upPorts (s : State) (d : Nat) (i : Instr) (o : Operand) : (s.after d i o).upPorts = s.upPorts := rfl
@[simp] theorem State.after_downAt (s : State) (d : Nat) (i : Instr) (o : Operand) : (s.after d i o).downAt = s.downAt := rfl
@[simp] theorem State.after_d3hot (s : State) (d : Nat) (i : Instr) (o : Operand) : (s.after d i o).d3hot = s.d3hot := rfl
@[simp] theorem State.after_bifurcated (s : State) (d : Nat) (i : Instr) (o : Operand) : (s.after d i o).bifurcated = s.bifurcated := rfl
@[simp] theorem State.after_cmds (s : State) (d : Nat) (i : Instr) (o : Operand) : (s.after d i o).cmds = s.cmds := rfl
@[simp] theorem State.after_streams (s : State) (d : Nat) (i : Instr) (o : Operand) : (s.after d i o).streams = s.streams := rfl
@[simp] theorem State.after_meets (s : State) (d : Nat) (i : Instr) (o : Operand) : (s.after d i o).meets = s.meets := rfl
@[simp] theorem State.after_waves (s : State) (d : Nat) (i : Instr) (o : Operand) : (s.after d i o).waves = s.waves := rfl
@[simp] theorem State.after_images (s : State) (d : Nat) (i : Instr) (o : Operand) : (s.after d i o).images = s.images := rfl
@[simp] theorem State.after_energy (s : State) (d : Nat) (i : Instr) (o : Operand) : (s.after d i o).energy = s.energy := rfl

/-! ### `later` -/

@[simp] theorem State.later_tick (s : State) (w : Nat) (i : Instr) (o : Operand) : (s.later w i o).tick = s.tick := rfl
@[simp] theorem State.later_turn (s : State) (w : Nat) (i : Instr) (o : Operand) : (s.later w i o).turn = s.turn := rfl
@[simp] theorem State.later_cur (s : State) (w : Nat) (i : Instr) (o : Operand) : (s.later w i o).cur = s.cur := rfl
@[simp] theorem State.later_ev (s : State) (w : Nat) (i : Instr) (o : Operand) : (s.later w i o).ev = s.ev := rfl
@[simp] theorem State.later_mem (s : State) (w : Nat) (i : Instr) (o : Operand) : (s.later w i o).mem = s.mem := rfl
@[simp] theorem State.later_tiles (s : State) (w : Nat) (i : Instr) (o : Operand) : (s.later w i o).tiles = s.tiles := rfl
@[simp] theorem State.later_ids (s : State) (w : Nat) (i : Instr) (o : Operand) : (s.later w i o).ids = s.ids := rfl
@[simp] theorem State.later_pkts (s : State) (w : Nat) (i : Instr) (o : Operand) : (s.later w i o).pkts = s.pkts := rfl
@[simp] theorem State.later_linkTurn (s : State) (w : Nat) (i : Instr) (o : Operand) : (s.later w i o).linkTurn = s.linkTurn := rfl
@[simp] theorem State.later_inTurn (s : State) (w : Nat) (i : Instr) (o : Operand) : (s.later w i o).inTurn = s.inTurn := rfl
@[simp] theorem State.later_linkTick (s : State) (w : Nat) (i : Instr) (o : Operand) : (s.later w i o).linkTick = s.linkTick := rfl
@[simp] theorem State.later_links (s : State) (w : Nat) (i : Instr) (o : Operand) : (s.later w i o).links = s.links := rfl
@[simp] theorem State.later_linkBase (s : State) (w : Nat) (i : Instr) (o : Operand) : (s.later w i o).linkBase = s.linkBase := rfl
@[simp] theorem State.later_clocks (s : State) (w : Nat) (i : Instr) (o : Operand) : (s.later w i o).clocks = s.clocks := rfl
@[simp] theorem State.later_noticed (s : State) (w : Nat) (i : Instr) (o : Operand) : (s.later w i o).noticed = s.noticed := rfl
@[simp] theorem State.later_bursts (s : State) (w : Nat) (i : Instr) (o : Operand) : (s.later w i o).bursts = s.bursts := rfl
@[simp] theorem State.later_lamport (s : State) (w : Nat) (i : Instr) (o : Operand) : (s.later w i o).lamport = s.lamport := rfl
@[simp] theorem State.later_pairs (s : State) (w : Nat) (i : Instr) (o : Operand) : (s.later w i o).pairs = s.pairs := rfl
@[simp] theorem State.later_tags (s : State) (w : Nat) (i : Instr) (o : Operand) : (s.later w i o).tags = s.tags := rfl
@[simp] theorem State.later_badLines (s : State) (w : Nat) (i : Instr) (o : Operand) : (s.later w i o).badLines = s.badLines := rfl
@[simp] theorem State.later_badWords (s : State) (w : Nat) (i : Instr) (o : Operand) : (s.later w i o).badWords = s.badWords := rfl
@[simp] theorem State.later_tlb (s : State) (w : Nat) (i : Instr) (o : Operand) : (s.later w i o).tlb = s.tlb := rfl
@[simp] theorem State.later_walks (s : State) (w : Nat) (i : Instr) (o : Operand) : (s.later w i o).walks = s.walks := rfl
@[simp] theorem State.later_reqs (s : State) (w : Nat) (i : Instr) (o : Operand) : (s.later w i o).reqs = s.reqs := rfl
@[simp] theorem State.later_held (s : State) (w : Nat) (i : Instr) (o : Operand) : (s.later w i o).held = s.held := rfl
@[simp] theorem State.later_pins (s : State) (w : Nat) (i : Instr) (o : Operand) : (s.later w i o).pins = s.pins := rfl
@[simp] theorem State.later_pageJobs (s : State) (w : Nat) (i : Instr) (o : Operand) : (s.later w i o).pageJobs = s.pageJobs := rfl
@[simp] theorem State.later_ctxs (s : State) (w : Nat) (i : Instr) (o : Operand) : (s.later w i o).ctxs = s.ctxs := rfl
@[simp] theorem State.later_launches (s : State) (w : Nat) (i : Instr) (o : Operand) : (s.later w i o).launches = s.launches := rfl
@[simp] theorem State.later_gangs (s : State) (w : Nat) (i : Instr) (o : Operand) : (s.later w i o).gangs = s.gangs := rfl
@[simp] theorem State.later_spawns (s : State) (w : Nat) (i : Instr) (o : Operand) : (s.later w i o).spawns = s.spawns := rfl
@[simp] theorem State.later_sends (s : State) (w : Nat) (i : Instr) (o : Operand) : (s.later w i o).sends = s.sends := rfl
@[simp] theorem State.later_dispNext (s : State) (w : Nat) (i : Instr) (o : Operand) : (s.later w i o).dispNext = s.dispNext := rfl
@[simp] theorem State.later_served (s : State) (w : Nat) (i : Instr) (o : Operand) : (s.later w i o).served = s.served := rfl
@[simp] theorem State.later_affinity (s : State) (w : Nat) (i : Instr) (o : Operand) : (s.later w i o).affinity = s.affinity := rfl
@[simp] theorem State.later_barMarks (s : State) (w : Nat) (i : Instr) (o : Operand) : (s.later w i o).barMarks = s.barMarks := rfl
@[simp] theorem State.later_barBusy (s : State) (w : Nat) (i : Instr) (o : Operand) : (s.later w i o).barBusy = s.barBusy := rfl
@[simp] theorem State.later_waiters (s : State) (w : Nat) (i : Instr) (o : Operand) : (s.later w i o).waiters = s.waiters := rfl
@[simp] theorem State.later_timeouts (s : State) (w : Nat) (i : Instr) (o : Operand) : (s.later w i o).timeouts = s.timeouts := rfl
@[simp] theorem State.later_msix (s : State) (w : Nat) (i : Instr) (o : Operand) : (s.later w i o).msix = s.msix := rfl
@[simp] theorem State.later_pba (s : State) (w : Nat) (i : Instr) (o : Operand) : (s.later w i o).pba = s.pba := rfl
@[simp] theorem State.later_windows (s : State) (w : Nat) (i : Instr) (o : Operand) : (s.later w i o).windows = s.windows := rfl
@[simp] theorem State.later_clusters (s : State) (w : Nat) (i : Instr) (o : Operand) : (s.later w i o).clusters = s.clusters := rfl
@[simp] theorem State.later_rail (s : State) (w : Nat) (i : Instr) (o : Operand) : (s.later w i o).rail = s.rail := rfl
@[simp] theorem State.later_inrush (s : State) (w : Nat) (i : Instr) (o : Operand) : (s.later w i o).inrush = s.inrush := rfl
@[simp] theorem State.later_dieCount (s : State) (w : Nat) (i : Instr) (o : Operand) : (s.later w i o).dieCount = s.dieCount := rfl
@[simp] theorem State.later_phase (s : State) (w : Nat) (i : Instr) (o : Operand) : (s.later w i o).phase = s.phase := rfl
@[simp] theorem State.later_fcode (s : State) (w : Nat) (i : Instr) (o : Operand) : (s.later w i o).fcode = s.fcode := rfl
@[simp] theorem State.later_owner (s : State) (w : Nat) (i : Instr) (o : Operand) : (s.later w i o).owner = s.owner := rfl
@[simp] theorem State.later_masters (s : State) (w : Nat) (i : Instr) (o : Operand) : (s.later w i o).masters = s.masters := rfl
@[simp] theorem State.later_mcp (s : State) (w : Nat) (i : Instr) (o : Operand) : (s.later w i o).mcp = s.mcp := rfl
@[simp] theorem State.later_mcpQ (s : State) (w : Nat) (i : Instr) (o : Operand) : (s.later w i o).mcpQ = s.mcpQ := rfl
@[simp] theorem State.later_waiting (s : State) (w : Nat) (i : Instr) (o : Operand) : (s.later w i o).waiting = s.waiting := rfl
@[simp] theorem State.later_log (s : State) (w : Nat) (i : Instr) (o : Operand) : (s.later w i o).log = s.log := rfl
@[simp] theorem State.later_stallY (s : State) (w : Nat) (i : Instr) (o : Operand) : (s.later w i o).stallY = s.stallY := rfl
@[simp] theorem State.later_completions (s : State) (w : Nat) (i : Instr) (o : Operand) : (s.later w i o).completions = s.completions := rfl
@[simp] theorem State.later_wbase (s : State) (w : Nat) (i : Instr) (o : Operand) : (s.later w i o).wbase = s.wbase := rfl
@[simp] theorem State.later_upPorts (s : State) (w : Nat) (i : Instr) (o : Operand) : (s.later w i o).upPorts = s.upPorts := rfl
@[simp] theorem State.later_downAt (s : State) (w : Nat) (i : Instr) (o : Operand) : (s.later w i o).downAt = s.downAt := rfl
@[simp] theorem State.later_d3hot (s : State) (w : Nat) (i : Instr) (o : Operand) : (s.later w i o).d3hot = s.d3hot := rfl
@[simp] theorem State.later_bifurcated (s : State) (w : Nat) (i : Instr) (o : Operand) : (s.later w i o).bifurcated = s.bifurcated := rfl
@[simp] theorem State.later_cmds (s : State) (w : Nat) (i : Instr) (o : Operand) : (s.later w i o).cmds = s.cmds := rfl
@[simp] theorem State.later_streams (s : State) (w : Nat) (i : Instr) (o : Operand) : (s.later w i o).streams = s.streams := rfl
@[simp] theorem State.later_meets (s : State) (w : Nat) (i : Instr) (o : Operand) : (s.later w i o).meets = s.meets := rfl
@[simp] theorem State.later_waves (s : State) (w : Nat) (i : Instr) (o : Operand) : (s.later w i o).waves = s.waves := rfl
@[simp] theorem State.later_images (s : State) (w : Nat) (i : Instr) (o : Operand) : (s.later w i o).images = s.images := rfl
@[simp] theorem State.later_energy (s : State) (w : Nat) (i : Instr) (o : Operand) : (s.later w i o).energy = s.energy := rfl

/-! ### `cancel` -/

@[simp] theorem State.cancel_tick (s : State) (p : Instr → Operand → Bool) : (s.cancel p).tick = s.tick := rfl
@[simp] theorem State.cancel_turn (s : State) (p : Instr → Operand → Bool) : (s.cancel p).turn = s.turn := rfl
@[simp] theorem State.cancel_cur (s : State) (p : Instr → Operand → Bool) : (s.cancel p).cur = s.cur := rfl
@[simp] theorem State.cancel_ev (s : State) (p : Instr → Operand → Bool) : (s.cancel p).ev = s.ev := rfl
@[simp] theorem State.cancel_fresh (s : State) (p : Instr → Operand → Bool) : (s.cancel p).fresh = s.fresh := rfl
@[simp] theorem State.cancel_mem (s : State) (p : Instr → Operand → Bool) : (s.cancel p).mem = s.mem := rfl
@[simp] theorem State.cancel_tiles (s : State) (p : Instr → Operand → Bool) : (s.cancel p).tiles = s.tiles := rfl
@[simp] theorem State.cancel_ids (s : State) (p : Instr → Operand → Bool) : (s.cancel p).ids = s.ids := rfl
@[simp] theorem State.cancel_pkts (s : State) (p : Instr → Operand → Bool) : (s.cancel p).pkts = s.pkts := rfl
@[simp] theorem State.cancel_linkTurn (s : State) (p : Instr → Operand → Bool) : (s.cancel p).linkTurn = s.linkTurn := rfl
@[simp] theorem State.cancel_inTurn (s : State) (p : Instr → Operand → Bool) : (s.cancel p).inTurn = s.inTurn := rfl
@[simp] theorem State.cancel_linkTick (s : State) (p : Instr → Operand → Bool) : (s.cancel p).linkTick = s.linkTick := rfl
@[simp] theorem State.cancel_links (s : State) (p : Instr → Operand → Bool) : (s.cancel p).links = s.links := rfl
@[simp] theorem State.cancel_linkBase (s : State) (p : Instr → Operand → Bool) : (s.cancel p).linkBase = s.linkBase := rfl
@[simp] theorem State.cancel_clocks (s : State) (p : Instr → Operand → Bool) : (s.cancel p).clocks = s.clocks := rfl
@[simp] theorem State.cancel_noticed (s : State) (p : Instr → Operand → Bool) : (s.cancel p).noticed = s.noticed := rfl
@[simp] theorem State.cancel_bursts (s : State) (p : Instr → Operand → Bool) : (s.cancel p).bursts = s.bursts := rfl
@[simp] theorem State.cancel_lamport (s : State) (p : Instr → Operand → Bool) : (s.cancel p).lamport = s.lamport := rfl
@[simp] theorem State.cancel_pairs (s : State) (p : Instr → Operand → Bool) : (s.cancel p).pairs = s.pairs := rfl
@[simp] theorem State.cancel_tags (s : State) (p : Instr → Operand → Bool) : (s.cancel p).tags = s.tags := rfl
@[simp] theorem State.cancel_badLines (s : State) (p : Instr → Operand → Bool) : (s.cancel p).badLines = s.badLines := rfl
@[simp] theorem State.cancel_badWords (s : State) (p : Instr → Operand → Bool) : (s.cancel p).badWords = s.badWords := rfl
@[simp] theorem State.cancel_tlb (s : State) (p : Instr → Operand → Bool) : (s.cancel p).tlb = s.tlb := rfl
@[simp] theorem State.cancel_walks (s : State) (p : Instr → Operand → Bool) : (s.cancel p).walks = s.walks := rfl
@[simp] theorem State.cancel_reqs (s : State) (p : Instr → Operand → Bool) : (s.cancel p).reqs = s.reqs := rfl
@[simp] theorem State.cancel_held (s : State) (p : Instr → Operand → Bool) : (s.cancel p).held = s.held := rfl
@[simp] theorem State.cancel_pins (s : State) (p : Instr → Operand → Bool) : (s.cancel p).pins = s.pins := rfl
@[simp] theorem State.cancel_pageJobs (s : State) (p : Instr → Operand → Bool) : (s.cancel p).pageJobs = s.pageJobs := rfl
@[simp] theorem State.cancel_ctxs (s : State) (p : Instr → Operand → Bool) : (s.cancel p).ctxs = s.ctxs := rfl
@[simp] theorem State.cancel_launches (s : State) (p : Instr → Operand → Bool) : (s.cancel p).launches = s.launches := rfl
@[simp] theorem State.cancel_gangs (s : State) (p : Instr → Operand → Bool) : (s.cancel p).gangs = s.gangs := rfl
@[simp] theorem State.cancel_spawns (s : State) (p : Instr → Operand → Bool) : (s.cancel p).spawns = s.spawns := rfl
@[simp] theorem State.cancel_sends (s : State) (p : Instr → Operand → Bool) : (s.cancel p).sends = s.sends := rfl
@[simp] theorem State.cancel_dispNext (s : State) (p : Instr → Operand → Bool) : (s.cancel p).dispNext = s.dispNext := rfl
@[simp] theorem State.cancel_served (s : State) (p : Instr → Operand → Bool) : (s.cancel p).served = s.served := rfl
@[simp] theorem State.cancel_affinity (s : State) (p : Instr → Operand → Bool) : (s.cancel p).affinity = s.affinity := rfl
@[simp] theorem State.cancel_barMarks (s : State) (p : Instr → Operand → Bool) : (s.cancel p).barMarks = s.barMarks := rfl
@[simp] theorem State.cancel_barBusy (s : State) (p : Instr → Operand → Bool) : (s.cancel p).barBusy = s.barBusy := rfl
@[simp] theorem State.cancel_waiters (s : State) (p : Instr → Operand → Bool) : (s.cancel p).waiters = s.waiters := rfl
@[simp] theorem State.cancel_timeouts (s : State) (p : Instr → Operand → Bool) : (s.cancel p).timeouts = s.timeouts := rfl
@[simp] theorem State.cancel_msix (s : State) (p : Instr → Operand → Bool) : (s.cancel p).msix = s.msix := rfl
@[simp] theorem State.cancel_pba (s : State) (p : Instr → Operand → Bool) : (s.cancel p).pba = s.pba := rfl
@[simp] theorem State.cancel_windows (s : State) (p : Instr → Operand → Bool) : (s.cancel p).windows = s.windows := rfl
@[simp] theorem State.cancel_clusters (s : State) (p : Instr → Operand → Bool) : (s.cancel p).clusters = s.clusters := rfl
@[simp] theorem State.cancel_rail (s : State) (p : Instr → Operand → Bool) : (s.cancel p).rail = s.rail := rfl
@[simp] theorem State.cancel_inrush (s : State) (p : Instr → Operand → Bool) : (s.cancel p).inrush = s.inrush := rfl
@[simp] theorem State.cancel_dieCount (s : State) (p : Instr → Operand → Bool) : (s.cancel p).dieCount = s.dieCount := rfl
@[simp] theorem State.cancel_phase (s : State) (p : Instr → Operand → Bool) : (s.cancel p).phase = s.phase := rfl
@[simp] theorem State.cancel_fcode (s : State) (p : Instr → Operand → Bool) : (s.cancel p).fcode = s.fcode := rfl
@[simp] theorem State.cancel_owner (s : State) (p : Instr → Operand → Bool) : (s.cancel p).owner = s.owner := rfl
@[simp] theorem State.cancel_masters (s : State) (p : Instr → Operand → Bool) : (s.cancel p).masters = s.masters := rfl
@[simp] theorem State.cancel_mcp (s : State) (p : Instr → Operand → Bool) : (s.cancel p).mcp = s.mcp := rfl
@[simp] theorem State.cancel_mcpQ (s : State) (p : Instr → Operand → Bool) : (s.cancel p).mcpQ = s.mcpQ := rfl
@[simp] theorem State.cancel_waiting (s : State) (p : Instr → Operand → Bool) : (s.cancel p).waiting = s.waiting := rfl
@[simp] theorem State.cancel_log (s : State) (p : Instr → Operand → Bool) : (s.cancel p).log = s.log := rfl
@[simp] theorem State.cancel_stallY (s : State) (p : Instr → Operand → Bool) : (s.cancel p).stallY = s.stallY := rfl
@[simp] theorem State.cancel_completions (s : State) (p : Instr → Operand → Bool) : (s.cancel p).completions = s.completions := rfl
@[simp] theorem State.cancel_wbase (s : State) (p : Instr → Operand → Bool) : (s.cancel p).wbase = s.wbase := rfl
@[simp] theorem State.cancel_upPorts (s : State) (p : Instr → Operand → Bool) : (s.cancel p).upPorts = s.upPorts := rfl
@[simp] theorem State.cancel_downAt (s : State) (p : Instr → Operand → Bool) : (s.cancel p).downAt = s.downAt := rfl
@[simp] theorem State.cancel_d3hot (s : State) (p : Instr → Operand → Bool) : (s.cancel p).d3hot = s.d3hot := rfl
@[simp] theorem State.cancel_bifurcated (s : State) (p : Instr → Operand → Bool) : (s.cancel p).bifurcated = s.bifurcated := rfl
@[simp] theorem State.cancel_cmds (s : State) (p : Instr → Operand → Bool) : (s.cancel p).cmds = s.cmds := rfl
@[simp] theorem State.cancel_streams (s : State) (p : Instr → Operand → Bool) : (s.cancel p).streams = s.streams := rfl
@[simp] theorem State.cancel_meets (s : State) (p : Instr → Operand → Bool) : (s.cancel p).meets = s.meets := rfl
@[simp] theorem State.cancel_waves (s : State) (p : Instr → Operand → Bool) : (s.cancel p).waves = s.waves := rfl
@[simp] theorem State.cancel_images (s : State) (p : Instr → Operand → Bool) : (s.cancel p).images = s.images := rfl
@[simp] theorem State.cancel_energy (s : State) (p : Instr → Operand → Bool) : (s.cancel p).energy = s.energy := rfl

/-! ### `stall` -/

@[simp] theorem State.stall_tick (s : State) (c : Issuer) : (s.stall c).tick = s.tick := rfl
@[simp] theorem State.stall_turn (s : State) (c : Issuer) : (s.stall c).turn = s.turn := rfl
@[simp] theorem State.stall_cur (s : State) (c : Issuer) : (s.stall c).cur = s.cur := rfl
@[simp] theorem State.stall_ev (s : State) (c : Issuer) : (s.stall c).ev = s.ev := rfl
@[simp] theorem State.stall_agenda (s : State) (c : Issuer) : (s.stall c).agenda = s.agenda := rfl
@[simp] theorem State.stall_fresh (s : State) (c : Issuer) : (s.stall c).fresh = s.fresh := rfl
@[simp] theorem State.stall_mem (s : State) (c : Issuer) : (s.stall c).mem = s.mem := rfl
@[simp] theorem State.stall_ids (s : State) (c : Issuer) : (s.stall c).ids = s.ids := rfl
@[simp] theorem State.stall_pkts (s : State) (c : Issuer) : (s.stall c).pkts = s.pkts := rfl
@[simp] theorem State.stall_linkTurn (s : State) (c : Issuer) : (s.stall c).linkTurn = s.linkTurn := rfl
@[simp] theorem State.stall_inTurn (s : State) (c : Issuer) : (s.stall c).inTurn = s.inTurn := rfl
@[simp] theorem State.stall_linkTick (s : State) (c : Issuer) : (s.stall c).linkTick = s.linkTick := rfl
@[simp] theorem State.stall_links (s : State) (c : Issuer) : (s.stall c).links = s.links := rfl
@[simp] theorem State.stall_linkBase (s : State) (c : Issuer) : (s.stall c).linkBase = s.linkBase := rfl
@[simp] theorem State.stall_clocks (s : State) (c : Issuer) : (s.stall c).clocks = s.clocks := rfl
@[simp] theorem State.stall_noticed (s : State) (c : Issuer) : (s.stall c).noticed = s.noticed := rfl
@[simp] theorem State.stall_bursts (s : State) (c : Issuer) : (s.stall c).bursts = s.bursts := rfl
@[simp] theorem State.stall_lamport (s : State) (c : Issuer) : (s.stall c).lamport = s.lamport := rfl
@[simp] theorem State.stall_pairs (s : State) (c : Issuer) : (s.stall c).pairs = s.pairs := rfl
@[simp] theorem State.stall_tags (s : State) (c : Issuer) : (s.stall c).tags = s.tags := rfl
@[simp] theorem State.stall_badLines (s : State) (c : Issuer) : (s.stall c).badLines = s.badLines := rfl
@[simp] theorem State.stall_badWords (s : State) (c : Issuer) : (s.stall c).badWords = s.badWords := rfl
@[simp] theorem State.stall_tlb (s : State) (c : Issuer) : (s.stall c).tlb = s.tlb := rfl
@[simp] theorem State.stall_walks (s : State) (c : Issuer) : (s.stall c).walks = s.walks := rfl
@[simp] theorem State.stall_reqs (s : State) (c : Issuer) : (s.stall c).reqs = s.reqs := rfl
@[simp] theorem State.stall_held (s : State) (c : Issuer) : (s.stall c).held = s.held := rfl
@[simp] theorem State.stall_pins (s : State) (c : Issuer) : (s.stall c).pins = s.pins := rfl
@[simp] theorem State.stall_pageJobs (s : State) (c : Issuer) : (s.stall c).pageJobs = s.pageJobs := rfl
@[simp] theorem State.stall_ctxs (s : State) (c : Issuer) : (s.stall c).ctxs = s.ctxs := rfl
@[simp] theorem State.stall_launches (s : State) (c : Issuer) : (s.stall c).launches = s.launches := rfl
@[simp] theorem State.stall_gangs (s : State) (c : Issuer) : (s.stall c).gangs = s.gangs := rfl
@[simp] theorem State.stall_spawns (s : State) (c : Issuer) : (s.stall c).spawns = s.spawns := rfl
@[simp] theorem State.stall_sends (s : State) (c : Issuer) : (s.stall c).sends = s.sends := rfl
@[simp] theorem State.stall_dispNext (s : State) (c : Issuer) : (s.stall c).dispNext = s.dispNext := rfl
@[simp] theorem State.stall_served (s : State) (c : Issuer) : (s.stall c).served = s.served := rfl
@[simp] theorem State.stall_affinity (s : State) (c : Issuer) : (s.stall c).affinity = s.affinity := rfl
@[simp] theorem State.stall_barMarks (s : State) (c : Issuer) : (s.stall c).barMarks = s.barMarks := rfl
@[simp] theorem State.stall_barBusy (s : State) (c : Issuer) : (s.stall c).barBusy = s.barBusy := rfl
@[simp] theorem State.stall_waiters (s : State) (c : Issuer) : (s.stall c).waiters = s.waiters := rfl
@[simp] theorem State.stall_timeouts (s : State) (c : Issuer) : (s.stall c).timeouts = s.timeouts := rfl
@[simp] theorem State.stall_msix (s : State) (c : Issuer) : (s.stall c).msix = s.msix := rfl
@[simp] theorem State.stall_pba (s : State) (c : Issuer) : (s.stall c).pba = s.pba := rfl
@[simp] theorem State.stall_windows (s : State) (c : Issuer) : (s.stall c).windows = s.windows := rfl
@[simp] theorem State.stall_clusters (s : State) (c : Issuer) : (s.stall c).clusters = s.clusters := rfl
@[simp] theorem State.stall_rail (s : State) (c : Issuer) : (s.stall c).rail = s.rail := rfl
@[simp] theorem State.stall_inrush (s : State) (c : Issuer) : (s.stall c).inrush = s.inrush := rfl
@[simp] theorem State.stall_dieCount (s : State) (c : Issuer) : (s.stall c).dieCount = s.dieCount := rfl
@[simp] theorem State.stall_phase (s : State) (c : Issuer) : (s.stall c).phase = s.phase := rfl
@[simp] theorem State.stall_fcode (s : State) (c : Issuer) : (s.stall c).fcode = s.fcode := rfl
@[simp] theorem State.stall_owner (s : State) (c : Issuer) : (s.stall c).owner = s.owner := rfl
@[simp] theorem State.stall_masters (s : State) (c : Issuer) : (s.stall c).masters = s.masters := rfl
@[simp] theorem State.stall_mcp (s : State) (c : Issuer) : (s.stall c).mcp = s.mcp := rfl
@[simp] theorem State.stall_mcpQ (s : State) (c : Issuer) : (s.stall c).mcpQ = s.mcpQ := rfl
@[simp] theorem State.stall_waiting (s : State) (c : Issuer) : (s.stall c).waiting = s.waiting := rfl
@[simp] theorem State.stall_log (s : State) (c : Issuer) : (s.stall c).log = s.log := rfl
@[simp] theorem State.stall_stallY (s : State) (c : Issuer) : (s.stall c).stallY = s.stallY := rfl
@[simp] theorem State.stall_completions (s : State) (c : Issuer) : (s.stall c).completions = s.completions := rfl
@[simp] theorem State.stall_wbase (s : State) (c : Issuer) : (s.stall c).wbase = s.wbase := rfl
@[simp] theorem State.stall_upPorts (s : State) (c : Issuer) : (s.stall c).upPorts = s.upPorts := rfl
@[simp] theorem State.stall_downAt (s : State) (c : Issuer) : (s.stall c).downAt = s.downAt := rfl
@[simp] theorem State.stall_d3hot (s : State) (c : Issuer) : (s.stall c).d3hot = s.d3hot := rfl
@[simp] theorem State.stall_bifurcated (s : State) (c : Issuer) : (s.stall c).bifurcated = s.bifurcated := rfl
@[simp] theorem State.stall_cmds (s : State) (c : Issuer) : (s.stall c).cmds = s.cmds := rfl
@[simp] theorem State.stall_streams (s : State) (c : Issuer) : (s.stall c).streams = s.streams := rfl
@[simp] theorem State.stall_meets (s : State) (c : Issuer) : (s.stall c).meets = s.meets := rfl
@[simp] theorem State.stall_waves (s : State) (c : Issuer) : (s.stall c).waves = s.waves := rfl
@[simp] theorem State.stall_images (s : State) (c : Issuer) : (s.stall c).images = s.images := rfl
@[simp] theorem State.stall_energy (s : State) (c : Issuer) : (s.stall c).energy = s.energy := rfl

/-! ### `stallFull` -/

@[simp] theorem State.stallFull_tick (s : State) (c : Issuer) : (s.stallFull c).tick = s.tick := rfl
@[simp] theorem State.stallFull_turn (s : State) (c : Issuer) : (s.stallFull c).turn = s.turn := rfl
@[simp] theorem State.stallFull_cur (s : State) (c : Issuer) : (s.stallFull c).cur = s.cur := rfl
@[simp] theorem State.stallFull_ev (s : State) (c : Issuer) : (s.stallFull c).ev = s.ev := rfl
@[simp] theorem State.stallFull_agenda (s : State) (c : Issuer) : (s.stallFull c).agenda = s.agenda := rfl
@[simp] theorem State.stallFull_fresh (s : State) (c : Issuer) : (s.stallFull c).fresh = s.fresh := rfl
@[simp] theorem State.stallFull_mem (s : State) (c : Issuer) : (s.stallFull c).mem = s.mem := rfl
@[simp] theorem State.stallFull_ids (s : State) (c : Issuer) : (s.stallFull c).ids = s.ids := rfl
@[simp] theorem State.stallFull_pkts (s : State) (c : Issuer) : (s.stallFull c).pkts = s.pkts := rfl
@[simp] theorem State.stallFull_linkTurn (s : State) (c : Issuer) : (s.stallFull c).linkTurn = s.linkTurn := rfl
@[simp] theorem State.stallFull_inTurn (s : State) (c : Issuer) : (s.stallFull c).inTurn = s.inTurn := rfl
@[simp] theorem State.stallFull_linkTick (s : State) (c : Issuer) : (s.stallFull c).linkTick = s.linkTick := rfl
@[simp] theorem State.stallFull_links (s : State) (c : Issuer) : (s.stallFull c).links = s.links := rfl
@[simp] theorem State.stallFull_linkBase (s : State) (c : Issuer) : (s.stallFull c).linkBase = s.linkBase := rfl
@[simp] theorem State.stallFull_clocks (s : State) (c : Issuer) : (s.stallFull c).clocks = s.clocks := rfl
@[simp] theorem State.stallFull_noticed (s : State) (c : Issuer) : (s.stallFull c).noticed = s.noticed := rfl
@[simp] theorem State.stallFull_bursts (s : State) (c : Issuer) : (s.stallFull c).bursts = s.bursts := rfl
@[simp] theorem State.stallFull_lamport (s : State) (c : Issuer) : (s.stallFull c).lamport = s.lamport := rfl
@[simp] theorem State.stallFull_pairs (s : State) (c : Issuer) : (s.stallFull c).pairs = s.pairs := rfl
@[simp] theorem State.stallFull_tags (s : State) (c : Issuer) : (s.stallFull c).tags = s.tags := rfl
@[simp] theorem State.stallFull_badLines (s : State) (c : Issuer) : (s.stallFull c).badLines = s.badLines := rfl
@[simp] theorem State.stallFull_badWords (s : State) (c : Issuer) : (s.stallFull c).badWords = s.badWords := rfl
@[simp] theorem State.stallFull_tlb (s : State) (c : Issuer) : (s.stallFull c).tlb = s.tlb := rfl
@[simp] theorem State.stallFull_walks (s : State) (c : Issuer) : (s.stallFull c).walks = s.walks := rfl
@[simp] theorem State.stallFull_reqs (s : State) (c : Issuer) : (s.stallFull c).reqs = s.reqs := rfl
@[simp] theorem State.stallFull_held (s : State) (c : Issuer) : (s.stallFull c).held = s.held := rfl
@[simp] theorem State.stallFull_pins (s : State) (c : Issuer) : (s.stallFull c).pins = s.pins := rfl
@[simp] theorem State.stallFull_pageJobs (s : State) (c : Issuer) : (s.stallFull c).pageJobs = s.pageJobs := rfl
@[simp] theorem State.stallFull_ctxs (s : State) (c : Issuer) : (s.stallFull c).ctxs = s.ctxs := rfl
@[simp] theorem State.stallFull_launches (s : State) (c : Issuer) : (s.stallFull c).launches = s.launches := rfl
@[simp] theorem State.stallFull_gangs (s : State) (c : Issuer) : (s.stallFull c).gangs = s.gangs := rfl
@[simp] theorem State.stallFull_spawns (s : State) (c : Issuer) : (s.stallFull c).spawns = s.spawns := rfl
@[simp] theorem State.stallFull_sends (s : State) (c : Issuer) : (s.stallFull c).sends = s.sends := rfl
@[simp] theorem State.stallFull_dispNext (s : State) (c : Issuer) : (s.stallFull c).dispNext = s.dispNext := rfl
@[simp] theorem State.stallFull_served (s : State) (c : Issuer) : (s.stallFull c).served = s.served := rfl
@[simp] theorem State.stallFull_affinity (s : State) (c : Issuer) : (s.stallFull c).affinity = s.affinity := rfl
@[simp] theorem State.stallFull_barMarks (s : State) (c : Issuer) : (s.stallFull c).barMarks = s.barMarks := rfl
@[simp] theorem State.stallFull_barBusy (s : State) (c : Issuer) : (s.stallFull c).barBusy = s.barBusy := rfl
@[simp] theorem State.stallFull_waiters (s : State) (c : Issuer) : (s.stallFull c).waiters = s.waiters := rfl
@[simp] theorem State.stallFull_timeouts (s : State) (c : Issuer) : (s.stallFull c).timeouts = s.timeouts := rfl
@[simp] theorem State.stallFull_msix (s : State) (c : Issuer) : (s.stallFull c).msix = s.msix := rfl
@[simp] theorem State.stallFull_pba (s : State) (c : Issuer) : (s.stallFull c).pba = s.pba := rfl
@[simp] theorem State.stallFull_windows (s : State) (c : Issuer) : (s.stallFull c).windows = s.windows := rfl
@[simp] theorem State.stallFull_clusters (s : State) (c : Issuer) : (s.stallFull c).clusters = s.clusters := rfl
@[simp] theorem State.stallFull_rail (s : State) (c : Issuer) : (s.stallFull c).rail = s.rail := rfl
@[simp] theorem State.stallFull_inrush (s : State) (c : Issuer) : (s.stallFull c).inrush = s.inrush := rfl
@[simp] theorem State.stallFull_dieCount (s : State) (c : Issuer) : (s.stallFull c).dieCount = s.dieCount := rfl
@[simp] theorem State.stallFull_phase (s : State) (c : Issuer) : (s.stallFull c).phase = s.phase := rfl
@[simp] theorem State.stallFull_fcode (s : State) (c : Issuer) : (s.stallFull c).fcode = s.fcode := rfl
@[simp] theorem State.stallFull_owner (s : State) (c : Issuer) : (s.stallFull c).owner = s.owner := rfl
@[simp] theorem State.stallFull_masters (s : State) (c : Issuer) : (s.stallFull c).masters = s.masters := rfl
@[simp] theorem State.stallFull_mcp (s : State) (c : Issuer) : (s.stallFull c).mcp = s.mcp := rfl
@[simp] theorem State.stallFull_mcpQ (s : State) (c : Issuer) : (s.stallFull c).mcpQ = s.mcpQ := rfl
@[simp] theorem State.stallFull_waiting (s : State) (c : Issuer) : (s.stallFull c).waiting = s.waiting := rfl
@[simp] theorem State.stallFull_log (s : State) (c : Issuer) : (s.stallFull c).log = s.log := rfl
@[simp] theorem State.stallFull_stallY (s : State) (c : Issuer) : (s.stallFull c).stallY = s.stallY := rfl
@[simp] theorem State.stallFull_completions (s : State) (c : Issuer) : (s.stallFull c).completions = s.completions := rfl
@[simp] theorem State.stallFull_wbase (s : State) (c : Issuer) : (s.stallFull c).wbase = s.wbase := rfl
@[simp] theorem State.stallFull_upPorts (s : State) (c : Issuer) : (s.stallFull c).upPorts = s.upPorts := rfl
@[simp] theorem State.stallFull_downAt (s : State) (c : Issuer) : (s.stallFull c).downAt = s.downAt := rfl
@[simp] theorem State.stallFull_d3hot (s : State) (c : Issuer) : (s.stallFull c).d3hot = s.d3hot := rfl
@[simp] theorem State.stallFull_bifurcated (s : State) (c : Issuer) : (s.stallFull c).bifurcated = s.bifurcated := rfl
@[simp] theorem State.stallFull_cmds (s : State) (c : Issuer) : (s.stallFull c).cmds = s.cmds := rfl
@[simp] theorem State.stallFull_streams (s : State) (c : Issuer) : (s.stallFull c).streams = s.streams := rfl
@[simp] theorem State.stallFull_meets (s : State) (c : Issuer) : (s.stallFull c).meets = s.meets := rfl
@[simp] theorem State.stallFull_waves (s : State) (c : Issuer) : (s.stallFull c).waves = s.waves := rfl
@[simp] theorem State.stallFull_images (s : State) (c : Issuer) : (s.stallFull c).images = s.images := rfl
@[simp] theorem State.stallFull_energy (s : State) (c : Issuer) : (s.stallFull c).energy = s.energy := rfl

/-! ### `advance` -/

@[simp] theorem State.advance_tick (s : State) (c : Issuer) : (s.advance c).tick = s.tick := rfl
@[simp] theorem State.advance_turn (s : State) (c : Issuer) : (s.advance c).turn = s.turn := rfl
@[simp] theorem State.advance_cur (s : State) (c : Issuer) : (s.advance c).cur = s.cur := rfl
@[simp] theorem State.advance_ev (s : State) (c : Issuer) : (s.advance c).ev = s.ev := rfl
@[simp] theorem State.advance_agenda (s : State) (c : Issuer) : (s.advance c).agenda = s.agenda := rfl
@[simp] theorem State.advance_fresh (s : State) (c : Issuer) : (s.advance c).fresh = s.fresh := rfl
@[simp] theorem State.advance_mem (s : State) (c : Issuer) : (s.advance c).mem = s.mem := rfl
@[simp] theorem State.advance_ids (s : State) (c : Issuer) : (s.advance c).ids = s.ids := rfl
@[simp] theorem State.advance_pkts (s : State) (c : Issuer) : (s.advance c).pkts = s.pkts := rfl
@[simp] theorem State.advance_linkTurn (s : State) (c : Issuer) : (s.advance c).linkTurn = s.linkTurn := rfl
@[simp] theorem State.advance_inTurn (s : State) (c : Issuer) : (s.advance c).inTurn = s.inTurn := rfl
@[simp] theorem State.advance_linkTick (s : State) (c : Issuer) : (s.advance c).linkTick = s.linkTick := rfl
@[simp] theorem State.advance_links (s : State) (c : Issuer) : (s.advance c).links = s.links := rfl
@[simp] theorem State.advance_linkBase (s : State) (c : Issuer) : (s.advance c).linkBase = s.linkBase := rfl
@[simp] theorem State.advance_clocks (s : State) (c : Issuer) : (s.advance c).clocks = s.clocks := rfl
@[simp] theorem State.advance_noticed (s : State) (c : Issuer) : (s.advance c).noticed = s.noticed := rfl
@[simp] theorem State.advance_bursts (s : State) (c : Issuer) : (s.advance c).bursts = s.bursts := rfl
@[simp] theorem State.advance_lamport (s : State) (c : Issuer) : (s.advance c).lamport = s.lamport := rfl
@[simp] theorem State.advance_pairs (s : State) (c : Issuer) : (s.advance c).pairs = s.pairs := rfl
@[simp] theorem State.advance_tags (s : State) (c : Issuer) : (s.advance c).tags = s.tags := rfl
@[simp] theorem State.advance_badLines (s : State) (c : Issuer) : (s.advance c).badLines = s.badLines := rfl
@[simp] theorem State.advance_badWords (s : State) (c : Issuer) : (s.advance c).badWords = s.badWords := rfl
@[simp] theorem State.advance_tlb (s : State) (c : Issuer) : (s.advance c).tlb = s.tlb := rfl
@[simp] theorem State.advance_walks (s : State) (c : Issuer) : (s.advance c).walks = s.walks := rfl
@[simp] theorem State.advance_reqs (s : State) (c : Issuer) : (s.advance c).reqs = s.reqs := rfl
@[simp] theorem State.advance_held (s : State) (c : Issuer) : (s.advance c).held = s.held := rfl
@[simp] theorem State.advance_pins (s : State) (c : Issuer) : (s.advance c).pins = s.pins := rfl
@[simp] theorem State.advance_pageJobs (s : State) (c : Issuer) : (s.advance c).pageJobs = s.pageJobs := rfl
@[simp] theorem State.advance_ctxs (s : State) (c : Issuer) : (s.advance c).ctxs = s.ctxs := rfl
@[simp] theorem State.advance_launches (s : State) (c : Issuer) : (s.advance c).launches = s.launches := rfl
@[simp] theorem State.advance_gangs (s : State) (c : Issuer) : (s.advance c).gangs = s.gangs := rfl
@[simp] theorem State.advance_spawns (s : State) (c : Issuer) : (s.advance c).spawns = s.spawns := rfl
@[simp] theorem State.advance_sends (s : State) (c : Issuer) : (s.advance c).sends = s.sends := rfl
@[simp] theorem State.advance_dispNext (s : State) (c : Issuer) : (s.advance c).dispNext = s.dispNext := rfl
@[simp] theorem State.advance_served (s : State) (c : Issuer) : (s.advance c).served = s.served := rfl
@[simp] theorem State.advance_affinity (s : State) (c : Issuer) : (s.advance c).affinity = s.affinity := rfl
@[simp] theorem State.advance_barMarks (s : State) (c : Issuer) : (s.advance c).barMarks = s.barMarks := rfl
@[simp] theorem State.advance_barBusy (s : State) (c : Issuer) : (s.advance c).barBusy = s.barBusy := rfl
@[simp] theorem State.advance_waiters (s : State) (c : Issuer) : (s.advance c).waiters = s.waiters := rfl
@[simp] theorem State.advance_timeouts (s : State) (c : Issuer) : (s.advance c).timeouts = s.timeouts := rfl
@[simp] theorem State.advance_msix (s : State) (c : Issuer) : (s.advance c).msix = s.msix := rfl
@[simp] theorem State.advance_pba (s : State) (c : Issuer) : (s.advance c).pba = s.pba := rfl
@[simp] theorem State.advance_windows (s : State) (c : Issuer) : (s.advance c).windows = s.windows := rfl
@[simp] theorem State.advance_clusters (s : State) (c : Issuer) : (s.advance c).clusters = s.clusters := rfl
@[simp] theorem State.advance_rail (s : State) (c : Issuer) : (s.advance c).rail = s.rail := rfl
@[simp] theorem State.advance_inrush (s : State) (c : Issuer) : (s.advance c).inrush = s.inrush := rfl
@[simp] theorem State.advance_dieCount (s : State) (c : Issuer) : (s.advance c).dieCount = s.dieCount := rfl
@[simp] theorem State.advance_phase (s : State) (c : Issuer) : (s.advance c).phase = s.phase := rfl
@[simp] theorem State.advance_fcode (s : State) (c : Issuer) : (s.advance c).fcode = s.fcode := rfl
@[simp] theorem State.advance_owner (s : State) (c : Issuer) : (s.advance c).owner = s.owner := rfl
@[simp] theorem State.advance_masters (s : State) (c : Issuer) : (s.advance c).masters = s.masters := rfl
@[simp] theorem State.advance_mcp (s : State) (c : Issuer) : (s.advance c).mcp = s.mcp := rfl
@[simp] theorem State.advance_mcpQ (s : State) (c : Issuer) : (s.advance c).mcpQ = s.mcpQ := rfl
@[simp] theorem State.advance_waiting (s : State) (c : Issuer) : (s.advance c).waiting = s.waiting := rfl
@[simp] theorem State.advance_log (s : State) (c : Issuer) : (s.advance c).log = s.log := rfl
@[simp] theorem State.advance_stallY (s : State) (c : Issuer) : (s.advance c).stallY = s.stallY := rfl
@[simp] theorem State.advance_completions (s : State) (c : Issuer) : (s.advance c).completions = s.completions := rfl
@[simp] theorem State.advance_wbase (s : State) (c : Issuer) : (s.advance c).wbase = s.wbase := rfl
@[simp] theorem State.advance_upPorts (s : State) (c : Issuer) : (s.advance c).upPorts = s.upPorts := rfl
@[simp] theorem State.advance_downAt (s : State) (c : Issuer) : (s.advance c).downAt = s.downAt := rfl
@[simp] theorem State.advance_d3hot (s : State) (c : Issuer) : (s.advance c).d3hot = s.d3hot := rfl
@[simp] theorem State.advance_bifurcated (s : State) (c : Issuer) : (s.advance c).bifurcated = s.bifurcated := rfl
@[simp] theorem State.advance_cmds (s : State) (c : Issuer) : (s.advance c).cmds = s.cmds := rfl
@[simp] theorem State.advance_streams (s : State) (c : Issuer) : (s.advance c).streams = s.streams := rfl
@[simp] theorem State.advance_meets (s : State) (c : Issuer) : (s.advance c).meets = s.meets := rfl
@[simp] theorem State.advance_waves (s : State) (c : Issuer) : (s.advance c).waves = s.waves := rfl
@[simp] theorem State.advance_images (s : State) (c : Issuer) : (s.advance c).images = s.images := rfl
@[simp] theorem State.advance_energy (s : State) (c : Issuer) : (s.advance c).energy = s.energy := rfl

/-! ### `raise` -/

@[simp] theorem State.raise_tick (s : State) (t n : Nat) (r : CauseRec) : (s.raise t n r).tick = s.tick := rfl
@[simp] theorem State.raise_turn (s : State) (t n : Nat) (r : CauseRec) : (s.raise t n r).turn = s.turn := rfl
@[simp] theorem State.raise_cur (s : State) (t n : Nat) (r : CauseRec) : (s.raise t n r).cur = s.cur := rfl
@[simp] theorem State.raise_ev (s : State) (t n : Nat) (r : CauseRec) : (s.raise t n r).ev = s.ev := rfl
@[simp] theorem State.raise_agenda (s : State) (t n : Nat) (r : CauseRec) : (s.raise t n r).agenda = s.agenda := rfl
@[simp] theorem State.raise_fresh (s : State) (t n : Nat) (r : CauseRec) : (s.raise t n r).fresh = s.fresh := rfl
@[simp] theorem State.raise_mem (s : State) (t n : Nat) (r : CauseRec) : (s.raise t n r).mem = s.mem := rfl
@[simp] theorem State.raise_ids (s : State) (t n : Nat) (r : CauseRec) : (s.raise t n r).ids = s.ids := rfl
@[simp] theorem State.raise_pkts (s : State) (t n : Nat) (r : CauseRec) : (s.raise t n r).pkts = s.pkts := rfl
@[simp] theorem State.raise_linkTurn (s : State) (t n : Nat) (r : CauseRec) : (s.raise t n r).linkTurn = s.linkTurn := rfl
@[simp] theorem State.raise_inTurn (s : State) (t n : Nat) (r : CauseRec) : (s.raise t n r).inTurn = s.inTurn := rfl
@[simp] theorem State.raise_linkTick (s : State) (t n : Nat) (r : CauseRec) : (s.raise t n r).linkTick = s.linkTick := rfl
@[simp] theorem State.raise_links (s : State) (t n : Nat) (r : CauseRec) : (s.raise t n r).links = s.links := rfl
@[simp] theorem State.raise_linkBase (s : State) (t n : Nat) (r : CauseRec) : (s.raise t n r).linkBase = s.linkBase := rfl
@[simp] theorem State.raise_clocks (s : State) (t n : Nat) (r : CauseRec) : (s.raise t n r).clocks = s.clocks := rfl
@[simp] theorem State.raise_noticed (s : State) (t n : Nat) (r : CauseRec) : (s.raise t n r).noticed = s.noticed := rfl
@[simp] theorem State.raise_bursts (s : State) (t n : Nat) (r : CauseRec) : (s.raise t n r).bursts = s.bursts := rfl
@[simp] theorem State.raise_lamport (s : State) (t n : Nat) (r : CauseRec) : (s.raise t n r).lamport = s.lamport := rfl
@[simp] theorem State.raise_pairs (s : State) (t n : Nat) (r : CauseRec) : (s.raise t n r).pairs = s.pairs := rfl
@[simp] theorem State.raise_tags (s : State) (t n : Nat) (r : CauseRec) : (s.raise t n r).tags = s.tags := rfl
@[simp] theorem State.raise_badLines (s : State) (t n : Nat) (r : CauseRec) : (s.raise t n r).badLines = s.badLines := rfl
@[simp] theorem State.raise_badWords (s : State) (t n : Nat) (r : CauseRec) : (s.raise t n r).badWords = s.badWords := rfl
@[simp] theorem State.raise_tlb (s : State) (t n : Nat) (r : CauseRec) : (s.raise t n r).tlb = s.tlb := rfl
@[simp] theorem State.raise_walks (s : State) (t n : Nat) (r : CauseRec) : (s.raise t n r).walks = s.walks := rfl
@[simp] theorem State.raise_reqs (s : State) (t n : Nat) (r : CauseRec) : (s.raise t n r).reqs = s.reqs := rfl
@[simp] theorem State.raise_held (s : State) (t n : Nat) (r : CauseRec) : (s.raise t n r).held = s.held := rfl
@[simp] theorem State.raise_pins (s : State) (t n : Nat) (r : CauseRec) : (s.raise t n r).pins = s.pins := rfl
@[simp] theorem State.raise_pageJobs (s : State) (t n : Nat) (r : CauseRec) : (s.raise t n r).pageJobs = s.pageJobs := rfl
@[simp] theorem State.raise_ctxs (s : State) (t n : Nat) (r : CauseRec) : (s.raise t n r).ctxs = s.ctxs := rfl
@[simp] theorem State.raise_launches (s : State) (t n : Nat) (r : CauseRec) : (s.raise t n r).launches = s.launches := rfl
@[simp] theorem State.raise_gangs (s : State) (t n : Nat) (r : CauseRec) : (s.raise t n r).gangs = s.gangs := rfl
@[simp] theorem State.raise_spawns (s : State) (t n : Nat) (r : CauseRec) : (s.raise t n r).spawns = s.spawns := rfl
@[simp] theorem State.raise_sends (s : State) (t n : Nat) (r : CauseRec) : (s.raise t n r).sends = s.sends := rfl
@[simp] theorem State.raise_dispNext (s : State) (t n : Nat) (r : CauseRec) : (s.raise t n r).dispNext = s.dispNext := rfl
@[simp] theorem State.raise_served (s : State) (t n : Nat) (r : CauseRec) : (s.raise t n r).served = s.served := rfl
@[simp] theorem State.raise_affinity (s : State) (t n : Nat) (r : CauseRec) : (s.raise t n r).affinity = s.affinity := rfl
@[simp] theorem State.raise_barMarks (s : State) (t n : Nat) (r : CauseRec) : (s.raise t n r).barMarks = s.barMarks := rfl
@[simp] theorem State.raise_barBusy (s : State) (t n : Nat) (r : CauseRec) : (s.raise t n r).barBusy = s.barBusy := rfl
@[simp] theorem State.raise_waiters (s : State) (t n : Nat) (r : CauseRec) : (s.raise t n r).waiters = s.waiters := rfl
@[simp] theorem State.raise_timeouts (s : State) (t n : Nat) (r : CauseRec) : (s.raise t n r).timeouts = s.timeouts := rfl
@[simp] theorem State.raise_msix (s : State) (t n : Nat) (r : CauseRec) : (s.raise t n r).msix = s.msix := rfl
@[simp] theorem State.raise_pba (s : State) (t n : Nat) (r : CauseRec) : (s.raise t n r).pba = s.pba := rfl
@[simp] theorem State.raise_windows (s : State) (t n : Nat) (r : CauseRec) : (s.raise t n r).windows = s.windows := rfl
@[simp] theorem State.raise_clusters (s : State) (t n : Nat) (r : CauseRec) : (s.raise t n r).clusters = s.clusters := rfl
@[simp] theorem State.raise_rail (s : State) (t n : Nat) (r : CauseRec) : (s.raise t n r).rail = s.rail := rfl
@[simp] theorem State.raise_inrush (s : State) (t n : Nat) (r : CauseRec) : (s.raise t n r).inrush = s.inrush := rfl
@[simp] theorem State.raise_dieCount (s : State) (t n : Nat) (r : CauseRec) : (s.raise t n r).dieCount = s.dieCount := rfl
@[simp] theorem State.raise_phase (s : State) (t n : Nat) (r : CauseRec) : (s.raise t n r).phase = s.phase := rfl
@[simp] theorem State.raise_fcode (s : State) (t n : Nat) (r : CauseRec) : (s.raise t n r).fcode = s.fcode := rfl
@[simp] theorem State.raise_owner (s : State) (t n : Nat) (r : CauseRec) : (s.raise t n r).owner = s.owner := rfl
@[simp] theorem State.raise_masters (s : State) (t n : Nat) (r : CauseRec) : (s.raise t n r).masters = s.masters := rfl
@[simp] theorem State.raise_mcp (s : State) (t n : Nat) (r : CauseRec) : (s.raise t n r).mcp = s.mcp := rfl
@[simp] theorem State.raise_mcpQ (s : State) (t n : Nat) (r : CauseRec) : (s.raise t n r).mcpQ = s.mcpQ := rfl
@[simp] theorem State.raise_waiting (s : State) (t n : Nat) (r : CauseRec) : (s.raise t n r).waiting = s.waiting := rfl
@[simp] theorem State.raise_log (s : State) (t n : Nat) (r : CauseRec) : (s.raise t n r).log = s.log := rfl
@[simp] theorem State.raise_stallY (s : State) (t n : Nat) (r : CauseRec) : (s.raise t n r).stallY = s.stallY := rfl
@[simp] theorem State.raise_completions (s : State) (t n : Nat) (r : CauseRec) : (s.raise t n r).completions = s.completions := rfl
@[simp] theorem State.raise_wbase (s : State) (t n : Nat) (r : CauseRec) : (s.raise t n r).wbase = s.wbase := rfl
@[simp] theorem State.raise_upPorts (s : State) (t n : Nat) (r : CauseRec) : (s.raise t n r).upPorts = s.upPorts := rfl
@[simp] theorem State.raise_downAt (s : State) (t n : Nat) (r : CauseRec) : (s.raise t n r).downAt = s.downAt := rfl
@[simp] theorem State.raise_d3hot (s : State) (t n : Nat) (r : CauseRec) : (s.raise t n r).d3hot = s.d3hot := rfl
@[simp] theorem State.raise_bifurcated (s : State) (t n : Nat) (r : CauseRec) : (s.raise t n r).bifurcated = s.bifurcated := rfl
@[simp] theorem State.raise_cmds (s : State) (t n : Nat) (r : CauseRec) : (s.raise t n r).cmds = s.cmds := rfl
@[simp] theorem State.raise_streams (s : State) (t n : Nat) (r : CauseRec) : (s.raise t n r).streams = s.streams := rfl
@[simp] theorem State.raise_meets (s : State) (t n : Nat) (r : CauseRec) : (s.raise t n r).meets = s.meets := rfl
@[simp] theorem State.raise_waves (s : State) (t n : Nat) (r : CauseRec) : (s.raise t n r).waves = s.waves := rfl
@[simp] theorem State.raise_images (s : State) (t n : Nat) (r : CauseRec) : (s.raise t n r).images = s.images := rfl
@[simp] theorem State.raise_energy (s : State) (t n : Nat) (r : CauseRec) : (s.raise t n r).energy = s.energy := rfl

/-! ### `raiseHere` -/

@[simp] theorem State.raiseHere_tick (s : State) (c : Issuer) (k : Nat) (i : W64) (d : BitVec 16) : (s.raiseHere c k i d).tick = s.tick := rfl
@[simp] theorem State.raiseHere_turn (s : State) (c : Issuer) (k : Nat) (i : W64) (d : BitVec 16) : (s.raiseHere c k i d).turn = s.turn := rfl
@[simp] theorem State.raiseHere_cur (s : State) (c : Issuer) (k : Nat) (i : W64) (d : BitVec 16) : (s.raiseHere c k i d).cur = s.cur := rfl
@[simp] theorem State.raiseHere_ev (s : State) (c : Issuer) (k : Nat) (i : W64) (d : BitVec 16) : (s.raiseHere c k i d).ev = s.ev := rfl
@[simp] theorem State.raiseHere_agenda (s : State) (c : Issuer) (k : Nat) (i : W64) (d : BitVec 16) : (s.raiseHere c k i d).agenda = s.agenda := rfl
@[simp] theorem State.raiseHere_fresh (s : State) (c : Issuer) (k : Nat) (i : W64) (d : BitVec 16) : (s.raiseHere c k i d).fresh = s.fresh := rfl
@[simp] theorem State.raiseHere_mem (s : State) (c : Issuer) (k : Nat) (i : W64) (d : BitVec 16) : (s.raiseHere c k i d).mem = s.mem := rfl
@[simp] theorem State.raiseHere_ids (s : State) (c : Issuer) (k : Nat) (i : W64) (d : BitVec 16) : (s.raiseHere c k i d).ids = s.ids := rfl
@[simp] theorem State.raiseHere_pkts (s : State) (c : Issuer) (k : Nat) (i : W64) (d : BitVec 16) : (s.raiseHere c k i d).pkts = s.pkts := rfl
@[simp] theorem State.raiseHere_linkTurn (s : State) (c : Issuer) (k : Nat) (i : W64) (d : BitVec 16) : (s.raiseHere c k i d).linkTurn = s.linkTurn := rfl
@[simp] theorem State.raiseHere_inTurn (s : State) (c : Issuer) (k : Nat) (i : W64) (d : BitVec 16) : (s.raiseHere c k i d).inTurn = s.inTurn := rfl
@[simp] theorem State.raiseHere_linkTick (s : State) (c : Issuer) (k : Nat) (i : W64) (d : BitVec 16) : (s.raiseHere c k i d).linkTick = s.linkTick := rfl
@[simp] theorem State.raiseHere_links (s : State) (c : Issuer) (k : Nat) (i : W64) (d : BitVec 16) : (s.raiseHere c k i d).links = s.links := rfl
@[simp] theorem State.raiseHere_linkBase (s : State) (c : Issuer) (k : Nat) (i : W64) (d : BitVec 16) : (s.raiseHere c k i d).linkBase = s.linkBase := rfl
@[simp] theorem State.raiseHere_clocks (s : State) (c : Issuer) (k : Nat) (i : W64) (d : BitVec 16) : (s.raiseHere c k i d).clocks = s.clocks := rfl
@[simp] theorem State.raiseHere_noticed (s : State) (c : Issuer) (k : Nat) (i : W64) (d : BitVec 16) : (s.raiseHere c k i d).noticed = s.noticed := rfl
@[simp] theorem State.raiseHere_bursts (s : State) (c : Issuer) (k : Nat) (i : W64) (d : BitVec 16) : (s.raiseHere c k i d).bursts = s.bursts := rfl
@[simp] theorem State.raiseHere_lamport (s : State) (c : Issuer) (k : Nat) (i : W64) (d : BitVec 16) : (s.raiseHere c k i d).lamport = s.lamport := rfl
@[simp] theorem State.raiseHere_pairs (s : State) (c : Issuer) (k : Nat) (i : W64) (d : BitVec 16) : (s.raiseHere c k i d).pairs = s.pairs := rfl
@[simp] theorem State.raiseHere_tags (s : State) (c : Issuer) (k : Nat) (i : W64) (d : BitVec 16) : (s.raiseHere c k i d).tags = s.tags := rfl
@[simp] theorem State.raiseHere_badLines (s : State) (c : Issuer) (k : Nat) (i : W64) (d : BitVec 16) : (s.raiseHere c k i d).badLines = s.badLines := rfl
@[simp] theorem State.raiseHere_badWords (s : State) (c : Issuer) (k : Nat) (i : W64) (d : BitVec 16) : (s.raiseHere c k i d).badWords = s.badWords := rfl
@[simp] theorem State.raiseHere_tlb (s : State) (c : Issuer) (k : Nat) (i : W64) (d : BitVec 16) : (s.raiseHere c k i d).tlb = s.tlb := rfl
@[simp] theorem State.raiseHere_walks (s : State) (c : Issuer) (k : Nat) (i : W64) (d : BitVec 16) : (s.raiseHere c k i d).walks = s.walks := rfl
@[simp] theorem State.raiseHere_reqs (s : State) (c : Issuer) (k : Nat) (i : W64) (d : BitVec 16) : (s.raiseHere c k i d).reqs = s.reqs := rfl
@[simp] theorem State.raiseHere_held (s : State) (c : Issuer) (k : Nat) (i : W64) (d : BitVec 16) : (s.raiseHere c k i d).held = s.held := rfl
@[simp] theorem State.raiseHere_pins (s : State) (c : Issuer) (k : Nat) (i : W64) (d : BitVec 16) : (s.raiseHere c k i d).pins = s.pins := rfl
@[simp] theorem State.raiseHere_pageJobs (s : State) (c : Issuer) (k : Nat) (i : W64) (d : BitVec 16) : (s.raiseHere c k i d).pageJobs = s.pageJobs := rfl
@[simp] theorem State.raiseHere_ctxs (s : State) (c : Issuer) (k : Nat) (i : W64) (d : BitVec 16) : (s.raiseHere c k i d).ctxs = s.ctxs := rfl
@[simp] theorem State.raiseHere_launches (s : State) (c : Issuer) (k : Nat) (i : W64) (d : BitVec 16) : (s.raiseHere c k i d).launches = s.launches := rfl
@[simp] theorem State.raiseHere_gangs (s : State) (c : Issuer) (k : Nat) (i : W64) (d : BitVec 16) : (s.raiseHere c k i d).gangs = s.gangs := rfl
@[simp] theorem State.raiseHere_spawns (s : State) (c : Issuer) (k : Nat) (i : W64) (d : BitVec 16) : (s.raiseHere c k i d).spawns = s.spawns := rfl
@[simp] theorem State.raiseHere_sends (s : State) (c : Issuer) (k : Nat) (i : W64) (d : BitVec 16) : (s.raiseHere c k i d).sends = s.sends := rfl
@[simp] theorem State.raiseHere_dispNext (s : State) (c : Issuer) (k : Nat) (i : W64) (d : BitVec 16) : (s.raiseHere c k i d).dispNext = s.dispNext := rfl
@[simp] theorem State.raiseHere_served (s : State) (c : Issuer) (k : Nat) (i : W64) (d : BitVec 16) : (s.raiseHere c k i d).served = s.served := rfl
@[simp] theorem State.raiseHere_affinity (s : State) (c : Issuer) (k : Nat) (i : W64) (d : BitVec 16) : (s.raiseHere c k i d).affinity = s.affinity := rfl
@[simp] theorem State.raiseHere_barMarks (s : State) (c : Issuer) (k : Nat) (i : W64) (d : BitVec 16) : (s.raiseHere c k i d).barMarks = s.barMarks := rfl
@[simp] theorem State.raiseHere_barBusy (s : State) (c : Issuer) (k : Nat) (i : W64) (d : BitVec 16) : (s.raiseHere c k i d).barBusy = s.barBusy := rfl
@[simp] theorem State.raiseHere_waiters (s : State) (c : Issuer) (k : Nat) (i : W64) (d : BitVec 16) : (s.raiseHere c k i d).waiters = s.waiters := rfl
@[simp] theorem State.raiseHere_timeouts (s : State) (c : Issuer) (k : Nat) (i : W64) (d : BitVec 16) : (s.raiseHere c k i d).timeouts = s.timeouts := rfl
@[simp] theorem State.raiseHere_msix (s : State) (c : Issuer) (k : Nat) (i : W64) (d : BitVec 16) : (s.raiseHere c k i d).msix = s.msix := rfl
@[simp] theorem State.raiseHere_pba (s : State) (c : Issuer) (k : Nat) (i : W64) (d : BitVec 16) : (s.raiseHere c k i d).pba = s.pba := rfl
@[simp] theorem State.raiseHere_windows (s : State) (c : Issuer) (k : Nat) (i : W64) (d : BitVec 16) : (s.raiseHere c k i d).windows = s.windows := rfl
@[simp] theorem State.raiseHere_clusters (s : State) (c : Issuer) (k : Nat) (i : W64) (d : BitVec 16) : (s.raiseHere c k i d).clusters = s.clusters := rfl
@[simp] theorem State.raiseHere_rail (s : State) (c : Issuer) (k : Nat) (i : W64) (d : BitVec 16) : (s.raiseHere c k i d).rail = s.rail := rfl
@[simp] theorem State.raiseHere_inrush (s : State) (c : Issuer) (k : Nat) (i : W64) (d : BitVec 16) : (s.raiseHere c k i d).inrush = s.inrush := rfl
@[simp] theorem State.raiseHere_dieCount (s : State) (c : Issuer) (k : Nat) (i : W64) (d : BitVec 16) : (s.raiseHere c k i d).dieCount = s.dieCount := rfl
@[simp] theorem State.raiseHere_phase (s : State) (c : Issuer) (k : Nat) (i : W64) (d : BitVec 16) : (s.raiseHere c k i d).phase = s.phase := rfl
@[simp] theorem State.raiseHere_fcode (s : State) (c : Issuer) (k : Nat) (i : W64) (d : BitVec 16) : (s.raiseHere c k i d).fcode = s.fcode := rfl
@[simp] theorem State.raiseHere_owner (s : State) (c : Issuer) (k : Nat) (i : W64) (d : BitVec 16) : (s.raiseHere c k i d).owner = s.owner := rfl
@[simp] theorem State.raiseHere_masters (s : State) (c : Issuer) (k : Nat) (i : W64) (d : BitVec 16) : (s.raiseHere c k i d).masters = s.masters := rfl
@[simp] theorem State.raiseHere_mcp (s : State) (c : Issuer) (k : Nat) (i : W64) (d : BitVec 16) : (s.raiseHere c k i d).mcp = s.mcp := rfl
@[simp] theorem State.raiseHere_mcpQ (s : State) (c : Issuer) (k : Nat) (i : W64) (d : BitVec 16) : (s.raiseHere c k i d).mcpQ = s.mcpQ := rfl
@[simp] theorem State.raiseHere_waiting (s : State) (c : Issuer) (k : Nat) (i : W64) (d : BitVec 16) : (s.raiseHere c k i d).waiting = s.waiting := rfl
@[simp] theorem State.raiseHere_log (s : State) (c : Issuer) (k : Nat) (i : W64) (d : BitVec 16) : (s.raiseHere c k i d).log = s.log := rfl
@[simp] theorem State.raiseHere_stallY (s : State) (c : Issuer) (k : Nat) (i : W64) (d : BitVec 16) : (s.raiseHere c k i d).stallY = s.stallY := rfl
@[simp] theorem State.raiseHere_completions (s : State) (c : Issuer) (k : Nat) (i : W64) (d : BitVec 16) : (s.raiseHere c k i d).completions = s.completions := rfl
@[simp] theorem State.raiseHere_wbase (s : State) (c : Issuer) (k : Nat) (i : W64) (d : BitVec 16) : (s.raiseHere c k i d).wbase = s.wbase := rfl
@[simp] theorem State.raiseHere_upPorts (s : State) (c : Issuer) (k : Nat) (i : W64) (d : BitVec 16) : (s.raiseHere c k i d).upPorts = s.upPorts := rfl
@[simp] theorem State.raiseHere_downAt (s : State) (c : Issuer) (k : Nat) (i : W64) (d : BitVec 16) : (s.raiseHere c k i d).downAt = s.downAt := rfl
@[simp] theorem State.raiseHere_d3hot (s : State) (c : Issuer) (k : Nat) (i : W64) (d : BitVec 16) : (s.raiseHere c k i d).d3hot = s.d3hot := rfl
@[simp] theorem State.raiseHere_bifurcated (s : State) (c : Issuer) (k : Nat) (i : W64) (d : BitVec 16) : (s.raiseHere c k i d).bifurcated = s.bifurcated := rfl
@[simp] theorem State.raiseHere_cmds (s : State) (c : Issuer) (k : Nat) (i : W64) (d : BitVec 16) : (s.raiseHere c k i d).cmds = s.cmds := rfl
@[simp] theorem State.raiseHere_streams (s : State) (c : Issuer) (k : Nat) (i : W64) (d : BitVec 16) : (s.raiseHere c k i d).streams = s.streams := rfl
@[simp] theorem State.raiseHere_meets (s : State) (c : Issuer) (k : Nat) (i : W64) (d : BitVec 16) : (s.raiseHere c k i d).meets = s.meets := rfl
@[simp] theorem State.raiseHere_waves (s : State) (c : Issuer) (k : Nat) (i : W64) (d : BitVec 16) : (s.raiseHere c k i d).waves = s.waves := rfl
@[simp] theorem State.raiseHere_images (s : State) (c : Issuer) (k : Nat) (i : W64) (d : BitVec 16) : (s.raiseHere c k i d).images = s.images := rfl
@[simp] theorem State.raiseHere_energy (s : State) (c : Issuer) (k : Nat) (i : W64) (d : BitVec 16) : (s.raiseHere c k i d).energy = s.energy := rfl

/-! ### `illegalDest` -/

@[simp] theorem State.illegalDest_tick (s : State) (c : Issuer) (d : BitVec 16) : (s.illegalDest c d).tick = s.tick := rfl
@[simp] theorem State.illegalDest_turn (s : State) (c : Issuer) (d : BitVec 16) : (s.illegalDest c d).turn = s.turn := rfl
@[simp] theorem State.illegalDest_cur (s : State) (c : Issuer) (d : BitVec 16) : (s.illegalDest c d).cur = s.cur := rfl
@[simp] theorem State.illegalDest_ev (s : State) (c : Issuer) (d : BitVec 16) : (s.illegalDest c d).ev = s.ev := rfl
@[simp] theorem State.illegalDest_agenda (s : State) (c : Issuer) (d : BitVec 16) : (s.illegalDest c d).agenda = s.agenda := rfl
@[simp] theorem State.illegalDest_fresh (s : State) (c : Issuer) (d : BitVec 16) : (s.illegalDest c d).fresh = s.fresh := rfl
@[simp] theorem State.illegalDest_mem (s : State) (c : Issuer) (d : BitVec 16) : (s.illegalDest c d).mem = s.mem := rfl
@[simp] theorem State.illegalDest_ids (s : State) (c : Issuer) (d : BitVec 16) : (s.illegalDest c d).ids = s.ids := rfl
@[simp] theorem State.illegalDest_pkts (s : State) (c : Issuer) (d : BitVec 16) : (s.illegalDest c d).pkts = s.pkts := rfl
@[simp] theorem State.illegalDest_linkTurn (s : State) (c : Issuer) (d : BitVec 16) : (s.illegalDest c d).linkTurn = s.linkTurn := rfl
@[simp] theorem State.illegalDest_inTurn (s : State) (c : Issuer) (d : BitVec 16) : (s.illegalDest c d).inTurn = s.inTurn := rfl
@[simp] theorem State.illegalDest_linkTick (s : State) (c : Issuer) (d : BitVec 16) : (s.illegalDest c d).linkTick = s.linkTick := rfl
@[simp] theorem State.illegalDest_links (s : State) (c : Issuer) (d : BitVec 16) : (s.illegalDest c d).links = s.links := rfl
@[simp] theorem State.illegalDest_linkBase (s : State) (c : Issuer) (d : BitVec 16) : (s.illegalDest c d).linkBase = s.linkBase := rfl
@[simp] theorem State.illegalDest_clocks (s : State) (c : Issuer) (d : BitVec 16) : (s.illegalDest c d).clocks = s.clocks := rfl
@[simp] theorem State.illegalDest_noticed (s : State) (c : Issuer) (d : BitVec 16) : (s.illegalDest c d).noticed = s.noticed := rfl
@[simp] theorem State.illegalDest_bursts (s : State) (c : Issuer) (d : BitVec 16) : (s.illegalDest c d).bursts = s.bursts := rfl
@[simp] theorem State.illegalDest_lamport (s : State) (c : Issuer) (d : BitVec 16) : (s.illegalDest c d).lamport = s.lamport := rfl
@[simp] theorem State.illegalDest_pairs (s : State) (c : Issuer) (d : BitVec 16) : (s.illegalDest c d).pairs = s.pairs := rfl
@[simp] theorem State.illegalDest_tags (s : State) (c : Issuer) (d : BitVec 16) : (s.illegalDest c d).tags = s.tags := rfl
@[simp] theorem State.illegalDest_badLines (s : State) (c : Issuer) (d : BitVec 16) : (s.illegalDest c d).badLines = s.badLines := rfl
@[simp] theorem State.illegalDest_badWords (s : State) (c : Issuer) (d : BitVec 16) : (s.illegalDest c d).badWords = s.badWords := rfl
@[simp] theorem State.illegalDest_tlb (s : State) (c : Issuer) (d : BitVec 16) : (s.illegalDest c d).tlb = s.tlb := rfl
@[simp] theorem State.illegalDest_walks (s : State) (c : Issuer) (d : BitVec 16) : (s.illegalDest c d).walks = s.walks := rfl
@[simp] theorem State.illegalDest_reqs (s : State) (c : Issuer) (d : BitVec 16) : (s.illegalDest c d).reqs = s.reqs := rfl
@[simp] theorem State.illegalDest_held (s : State) (c : Issuer) (d : BitVec 16) : (s.illegalDest c d).held = s.held := rfl
@[simp] theorem State.illegalDest_pins (s : State) (c : Issuer) (d : BitVec 16) : (s.illegalDest c d).pins = s.pins := rfl
@[simp] theorem State.illegalDest_pageJobs (s : State) (c : Issuer) (d : BitVec 16) : (s.illegalDest c d).pageJobs = s.pageJobs := rfl
@[simp] theorem State.illegalDest_ctxs (s : State) (c : Issuer) (d : BitVec 16) : (s.illegalDest c d).ctxs = s.ctxs := rfl
@[simp] theorem State.illegalDest_launches (s : State) (c : Issuer) (d : BitVec 16) : (s.illegalDest c d).launches = s.launches := rfl
@[simp] theorem State.illegalDest_gangs (s : State) (c : Issuer) (d : BitVec 16) : (s.illegalDest c d).gangs = s.gangs := rfl
@[simp] theorem State.illegalDest_spawns (s : State) (c : Issuer) (d : BitVec 16) : (s.illegalDest c d).spawns = s.spawns := rfl
@[simp] theorem State.illegalDest_sends (s : State) (c : Issuer) (d : BitVec 16) : (s.illegalDest c d).sends = s.sends := rfl
@[simp] theorem State.illegalDest_dispNext (s : State) (c : Issuer) (d : BitVec 16) : (s.illegalDest c d).dispNext = s.dispNext := rfl
@[simp] theorem State.illegalDest_served (s : State) (c : Issuer) (d : BitVec 16) : (s.illegalDest c d).served = s.served := rfl
@[simp] theorem State.illegalDest_affinity (s : State) (c : Issuer) (d : BitVec 16) : (s.illegalDest c d).affinity = s.affinity := rfl
@[simp] theorem State.illegalDest_barMarks (s : State) (c : Issuer) (d : BitVec 16) : (s.illegalDest c d).barMarks = s.barMarks := rfl
@[simp] theorem State.illegalDest_barBusy (s : State) (c : Issuer) (d : BitVec 16) : (s.illegalDest c d).barBusy = s.barBusy := rfl
@[simp] theorem State.illegalDest_waiters (s : State) (c : Issuer) (d : BitVec 16) : (s.illegalDest c d).waiters = s.waiters := rfl
@[simp] theorem State.illegalDest_timeouts (s : State) (c : Issuer) (d : BitVec 16) : (s.illegalDest c d).timeouts = s.timeouts := rfl
@[simp] theorem State.illegalDest_msix (s : State) (c : Issuer) (d : BitVec 16) : (s.illegalDest c d).msix = s.msix := rfl
@[simp] theorem State.illegalDest_pba (s : State) (c : Issuer) (d : BitVec 16) : (s.illegalDest c d).pba = s.pba := rfl
@[simp] theorem State.illegalDest_windows (s : State) (c : Issuer) (d : BitVec 16) : (s.illegalDest c d).windows = s.windows := rfl
@[simp] theorem State.illegalDest_clusters (s : State) (c : Issuer) (d : BitVec 16) : (s.illegalDest c d).clusters = s.clusters := rfl
@[simp] theorem State.illegalDest_rail (s : State) (c : Issuer) (d : BitVec 16) : (s.illegalDest c d).rail = s.rail := rfl
@[simp] theorem State.illegalDest_inrush (s : State) (c : Issuer) (d : BitVec 16) : (s.illegalDest c d).inrush = s.inrush := rfl
@[simp] theorem State.illegalDest_dieCount (s : State) (c : Issuer) (d : BitVec 16) : (s.illegalDest c d).dieCount = s.dieCount := rfl
@[simp] theorem State.illegalDest_phase (s : State) (c : Issuer) (d : BitVec 16) : (s.illegalDest c d).phase = s.phase := rfl
@[simp] theorem State.illegalDest_fcode (s : State) (c : Issuer) (d : BitVec 16) : (s.illegalDest c d).fcode = s.fcode := rfl
@[simp] theorem State.illegalDest_owner (s : State) (c : Issuer) (d : BitVec 16) : (s.illegalDest c d).owner = s.owner := rfl
@[simp] theorem State.illegalDest_masters (s : State) (c : Issuer) (d : BitVec 16) : (s.illegalDest c d).masters = s.masters := rfl
@[simp] theorem State.illegalDest_mcp (s : State) (c : Issuer) (d : BitVec 16) : (s.illegalDest c d).mcp = s.mcp := rfl
@[simp] theorem State.illegalDest_mcpQ (s : State) (c : Issuer) (d : BitVec 16) : (s.illegalDest c d).mcpQ = s.mcpQ := rfl
@[simp] theorem State.illegalDest_waiting (s : State) (c : Issuer) (d : BitVec 16) : (s.illegalDest c d).waiting = s.waiting := rfl
@[simp] theorem State.illegalDest_log (s : State) (c : Issuer) (d : BitVec 16) : (s.illegalDest c d).log = s.log := rfl
@[simp] theorem State.illegalDest_stallY (s : State) (c : Issuer) (d : BitVec 16) : (s.illegalDest c d).stallY = s.stallY := rfl
@[simp] theorem State.illegalDest_completions (s : State) (c : Issuer) (d : BitVec 16) : (s.illegalDest c d).completions = s.completions := rfl
@[simp] theorem State.illegalDest_wbase (s : State) (c : Issuer) (d : BitVec 16) : (s.illegalDest c d).wbase = s.wbase := rfl
@[simp] theorem State.illegalDest_upPorts (s : State) (c : Issuer) (d : BitVec 16) : (s.illegalDest c d).upPorts = s.upPorts := rfl
@[simp] theorem State.illegalDest_downAt (s : State) (c : Issuer) (d : BitVec 16) : (s.illegalDest c d).downAt = s.downAt := rfl
@[simp] theorem State.illegalDest_d3hot (s : State) (c : Issuer) (d : BitVec 16) : (s.illegalDest c d).d3hot = s.d3hot := rfl
@[simp] theorem State.illegalDest_bifurcated (s : State) (c : Issuer) (d : BitVec 16) : (s.illegalDest c d).bifurcated = s.bifurcated := rfl
@[simp] theorem State.illegalDest_cmds (s : State) (c : Issuer) (d : BitVec 16) : (s.illegalDest c d).cmds = s.cmds := rfl
@[simp] theorem State.illegalDest_streams (s : State) (c : Issuer) (d : BitVec 16) : (s.illegalDest c d).streams = s.streams := rfl
@[simp] theorem State.illegalDest_meets (s : State) (c : Issuer) (d : BitVec 16) : (s.illegalDest c d).meets = s.meets := rfl
@[simp] theorem State.illegalDest_waves (s : State) (c : Issuer) (d : BitVec 16) : (s.illegalDest c d).waves = s.waves := rfl
@[simp] theorem State.illegalDest_images (s : State) (c : Issuer) (d : BitVec 16) : (s.illegalDest c d).images = s.images := rfl
@[simp] theorem State.illegalDest_energy (s : State) (c : Issuer) (d : BitVec 16) : (s.illegalDest c d).energy = s.energy := rfl

/-! ### `writeReg` -/

@[simp] theorem State.writeReg_tick (s : State) (c : Issuer) (r v : Nat) (x : Wide) : (s.writeReg c r v x).tick = s.tick := rfl
@[simp] theorem State.writeReg_turn (s : State) (c : Issuer) (r v : Nat) (x : Wide) : (s.writeReg c r v x).turn = s.turn := rfl
@[simp] theorem State.writeReg_cur (s : State) (c : Issuer) (r v : Nat) (x : Wide) : (s.writeReg c r v x).cur = s.cur := rfl
@[simp] theorem State.writeReg_ev (s : State) (c : Issuer) (r v : Nat) (x : Wide) : (s.writeReg c r v x).ev = s.ev := rfl
@[simp] theorem State.writeReg_agenda (s : State) (c : Issuer) (r v : Nat) (x : Wide) : (s.writeReg c r v x).agenda = s.agenda := rfl
@[simp] theorem State.writeReg_fresh (s : State) (c : Issuer) (r v : Nat) (x : Wide) : (s.writeReg c r v x).fresh = s.fresh := rfl
@[simp] theorem State.writeReg_mem (s : State) (c : Issuer) (r v : Nat) (x : Wide) : (s.writeReg c r v x).mem = s.mem := rfl
@[simp] theorem State.writeReg_ids (s : State) (c : Issuer) (r v : Nat) (x : Wide) : (s.writeReg c r v x).ids = s.ids := rfl
@[simp] theorem State.writeReg_pkts (s : State) (c : Issuer) (r v : Nat) (x : Wide) : (s.writeReg c r v x).pkts = s.pkts := rfl
@[simp] theorem State.writeReg_linkTurn (s : State) (c : Issuer) (r v : Nat) (x : Wide) : (s.writeReg c r v x).linkTurn = s.linkTurn := rfl
@[simp] theorem State.writeReg_inTurn (s : State) (c : Issuer) (r v : Nat) (x : Wide) : (s.writeReg c r v x).inTurn = s.inTurn := rfl
@[simp] theorem State.writeReg_linkTick (s : State) (c : Issuer) (r v : Nat) (x : Wide) : (s.writeReg c r v x).linkTick = s.linkTick := rfl
@[simp] theorem State.writeReg_links (s : State) (c : Issuer) (r v : Nat) (x : Wide) : (s.writeReg c r v x).links = s.links := rfl
@[simp] theorem State.writeReg_linkBase (s : State) (c : Issuer) (r v : Nat) (x : Wide) : (s.writeReg c r v x).linkBase = s.linkBase := rfl
@[simp] theorem State.writeReg_clocks (s : State) (c : Issuer) (r v : Nat) (x : Wide) : (s.writeReg c r v x).clocks = s.clocks := rfl
@[simp] theorem State.writeReg_noticed (s : State) (c : Issuer) (r v : Nat) (x : Wide) : (s.writeReg c r v x).noticed = s.noticed := rfl
@[simp] theorem State.writeReg_bursts (s : State) (c : Issuer) (r v : Nat) (x : Wide) : (s.writeReg c r v x).bursts = s.bursts := rfl
@[simp] theorem State.writeReg_lamport (s : State) (c : Issuer) (r v : Nat) (x : Wide) : (s.writeReg c r v x).lamport = s.lamport := rfl
@[simp] theorem State.writeReg_pairs (s : State) (c : Issuer) (r v : Nat) (x : Wide) : (s.writeReg c r v x).pairs = s.pairs := rfl
@[simp] theorem State.writeReg_tags (s : State) (c : Issuer) (r v : Nat) (x : Wide) : (s.writeReg c r v x).tags = s.tags := rfl
@[simp] theorem State.writeReg_badLines (s : State) (c : Issuer) (r v : Nat) (x : Wide) : (s.writeReg c r v x).badLines = s.badLines := rfl
@[simp] theorem State.writeReg_badWords (s : State) (c : Issuer) (r v : Nat) (x : Wide) : (s.writeReg c r v x).badWords = s.badWords := rfl
@[simp] theorem State.writeReg_tlb (s : State) (c : Issuer) (r v : Nat) (x : Wide) : (s.writeReg c r v x).tlb = s.tlb := rfl
@[simp] theorem State.writeReg_walks (s : State) (c : Issuer) (r v : Nat) (x : Wide) : (s.writeReg c r v x).walks = s.walks := rfl
@[simp] theorem State.writeReg_reqs (s : State) (c : Issuer) (r v : Nat) (x : Wide) : (s.writeReg c r v x).reqs = s.reqs := rfl
@[simp] theorem State.writeReg_held (s : State) (c : Issuer) (r v : Nat) (x : Wide) : (s.writeReg c r v x).held = s.held := rfl
@[simp] theorem State.writeReg_pins (s : State) (c : Issuer) (r v : Nat) (x : Wide) : (s.writeReg c r v x).pins = s.pins := rfl
@[simp] theorem State.writeReg_pageJobs (s : State) (c : Issuer) (r v : Nat) (x : Wide) : (s.writeReg c r v x).pageJobs = s.pageJobs := rfl
@[simp] theorem State.writeReg_ctxs (s : State) (c : Issuer) (r v : Nat) (x : Wide) : (s.writeReg c r v x).ctxs = s.ctxs := rfl
@[simp] theorem State.writeReg_launches (s : State) (c : Issuer) (r v : Nat) (x : Wide) : (s.writeReg c r v x).launches = s.launches := rfl
@[simp] theorem State.writeReg_gangs (s : State) (c : Issuer) (r v : Nat) (x : Wide) : (s.writeReg c r v x).gangs = s.gangs := rfl
@[simp] theorem State.writeReg_spawns (s : State) (c : Issuer) (r v : Nat) (x : Wide) : (s.writeReg c r v x).spawns = s.spawns := rfl
@[simp] theorem State.writeReg_sends (s : State) (c : Issuer) (r v : Nat) (x : Wide) : (s.writeReg c r v x).sends = s.sends := rfl
@[simp] theorem State.writeReg_dispNext (s : State) (c : Issuer) (r v : Nat) (x : Wide) : (s.writeReg c r v x).dispNext = s.dispNext := rfl
@[simp] theorem State.writeReg_served (s : State) (c : Issuer) (r v : Nat) (x : Wide) : (s.writeReg c r v x).served = s.served := rfl
@[simp] theorem State.writeReg_affinity (s : State) (c : Issuer) (r v : Nat) (x : Wide) : (s.writeReg c r v x).affinity = s.affinity := rfl
@[simp] theorem State.writeReg_barMarks (s : State) (c : Issuer) (r v : Nat) (x : Wide) : (s.writeReg c r v x).barMarks = s.barMarks := rfl
@[simp] theorem State.writeReg_barBusy (s : State) (c : Issuer) (r v : Nat) (x : Wide) : (s.writeReg c r v x).barBusy = s.barBusy := rfl
@[simp] theorem State.writeReg_waiters (s : State) (c : Issuer) (r v : Nat) (x : Wide) : (s.writeReg c r v x).waiters = s.waiters := rfl
@[simp] theorem State.writeReg_timeouts (s : State) (c : Issuer) (r v : Nat) (x : Wide) : (s.writeReg c r v x).timeouts = s.timeouts := rfl
@[simp] theorem State.writeReg_msix (s : State) (c : Issuer) (r v : Nat) (x : Wide) : (s.writeReg c r v x).msix = s.msix := rfl
@[simp] theorem State.writeReg_pba (s : State) (c : Issuer) (r v : Nat) (x : Wide) : (s.writeReg c r v x).pba = s.pba := rfl
@[simp] theorem State.writeReg_windows (s : State) (c : Issuer) (r v : Nat) (x : Wide) : (s.writeReg c r v x).windows = s.windows := rfl
@[simp] theorem State.writeReg_clusters (s : State) (c : Issuer) (r v : Nat) (x : Wide) : (s.writeReg c r v x).clusters = s.clusters := rfl
@[simp] theorem State.writeReg_rail (s : State) (c : Issuer) (r v : Nat) (x : Wide) : (s.writeReg c r v x).rail = s.rail := rfl
@[simp] theorem State.writeReg_inrush (s : State) (c : Issuer) (r v : Nat) (x : Wide) : (s.writeReg c r v x).inrush = s.inrush := rfl
@[simp] theorem State.writeReg_dieCount (s : State) (c : Issuer) (r v : Nat) (x : Wide) : (s.writeReg c r v x).dieCount = s.dieCount := rfl
@[simp] theorem State.writeReg_phase (s : State) (c : Issuer) (r v : Nat) (x : Wide) : (s.writeReg c r v x).phase = s.phase := rfl
@[simp] theorem State.writeReg_fcode (s : State) (c : Issuer) (r v : Nat) (x : Wide) : (s.writeReg c r v x).fcode = s.fcode := rfl
@[simp] theorem State.writeReg_owner (s : State) (c : Issuer) (r v : Nat) (x : Wide) : (s.writeReg c r v x).owner = s.owner := rfl
@[simp] theorem State.writeReg_masters (s : State) (c : Issuer) (r v : Nat) (x : Wide) : (s.writeReg c r v x).masters = s.masters := rfl
@[simp] theorem State.writeReg_mcp (s : State) (c : Issuer) (r v : Nat) (x : Wide) : (s.writeReg c r v x).mcp = s.mcp := rfl
@[simp] theorem State.writeReg_mcpQ (s : State) (c : Issuer) (r v : Nat) (x : Wide) : (s.writeReg c r v x).mcpQ = s.mcpQ := rfl
@[simp] theorem State.writeReg_waiting (s : State) (c : Issuer) (r v : Nat) (x : Wide) : (s.writeReg c r v x).waiting = s.waiting := rfl
@[simp] theorem State.writeReg_log (s : State) (c : Issuer) (r v : Nat) (x : Wide) : (s.writeReg c r v x).log = s.log := rfl
@[simp] theorem State.writeReg_stallY (s : State) (c : Issuer) (r v : Nat) (x : Wide) : (s.writeReg c r v x).stallY = s.stallY := rfl
@[simp] theorem State.writeReg_completions (s : State) (c : Issuer) (r v : Nat) (x : Wide) : (s.writeReg c r v x).completions = s.completions := rfl
@[simp] theorem State.writeReg_wbase (s : State) (c : Issuer) (r v : Nat) (x : Wide) : (s.writeReg c r v x).wbase = s.wbase := rfl
@[simp] theorem State.writeReg_upPorts (s : State) (c : Issuer) (r v : Nat) (x : Wide) : (s.writeReg c r v x).upPorts = s.upPorts := rfl
@[simp] theorem State.writeReg_downAt (s : State) (c : Issuer) (r v : Nat) (x : Wide) : (s.writeReg c r v x).downAt = s.downAt := rfl
@[simp] theorem State.writeReg_d3hot (s : State) (c : Issuer) (r v : Nat) (x : Wide) : (s.writeReg c r v x).d3hot = s.d3hot := rfl
@[simp] theorem State.writeReg_bifurcated (s : State) (c : Issuer) (r v : Nat) (x : Wide) : (s.writeReg c r v x).bifurcated = s.bifurcated := rfl
@[simp] theorem State.writeReg_cmds (s : State) (c : Issuer) (r v : Nat) (x : Wide) : (s.writeReg c r v x).cmds = s.cmds := rfl
@[simp] theorem State.writeReg_streams (s : State) (c : Issuer) (r v : Nat) (x : Wide) : (s.writeReg c r v x).streams = s.streams := rfl
@[simp] theorem State.writeReg_meets (s : State) (c : Issuer) (r v : Nat) (x : Wide) : (s.writeReg c r v x).meets = s.meets := rfl
@[simp] theorem State.writeReg_waves (s : State) (c : Issuer) (r v : Nat) (x : Wide) : (s.writeReg c r v x).waves = s.waves := rfl
@[simp] theorem State.writeReg_images (s : State) (c : Issuer) (r v : Nat) (x : Wide) : (s.writeReg c r v x).images = s.images := rfl
@[simp] theorem State.writeReg_energy (s : State) (c : Issuer) (r v : Nat) (x : Wide) : (s.writeReg c r v x).energy = s.energy := rfl

/-! ### `result` -/

@[simp] theorem State.result_tick (s : State) (c : Issuer) (u l : Nat) (w : Bool) (v : Wide) (f : BitVec 10) (a : W64) : (s.result c u l w v f a).tick = s.tick := rfl
@[simp] theorem State.result_turn (s : State) (c : Issuer) (u l : Nat) (w : Bool) (v : Wide) (f : BitVec 10) (a : W64) : (s.result c u l w v f a).turn = s.turn := rfl
@[simp] theorem State.result_cur (s : State) (c : Issuer) (u l : Nat) (w : Bool) (v : Wide) (f : BitVec 10) (a : W64) : (s.result c u l w v f a).cur = s.cur := rfl
@[simp] theorem State.result_ev (s : State) (c : Issuer) (u l : Nat) (w : Bool) (v : Wide) (f : BitVec 10) (a : W64) : (s.result c u l w v f a).ev = s.ev := rfl
@[simp] theorem State.result_agenda (s : State) (c : Issuer) (u l : Nat) (w : Bool) (v : Wide) (f : BitVec 10) (a : W64) : (s.result c u l w v f a).agenda = s.agenda := rfl
@[simp] theorem State.result_fresh (s : State) (c : Issuer) (u l : Nat) (w : Bool) (v : Wide) (f : BitVec 10) (a : W64) : (s.result c u l w v f a).fresh = s.fresh := rfl
@[simp] theorem State.result_mem (s : State) (c : Issuer) (u l : Nat) (w : Bool) (v : Wide) (f : BitVec 10) (a : W64) : (s.result c u l w v f a).mem = s.mem := rfl
@[simp] theorem State.result_ids (s : State) (c : Issuer) (u l : Nat) (w : Bool) (v : Wide) (f : BitVec 10) (a : W64) : (s.result c u l w v f a).ids = s.ids := rfl
@[simp] theorem State.result_pkts (s : State) (c : Issuer) (u l : Nat) (w : Bool) (v : Wide) (f : BitVec 10) (a : W64) : (s.result c u l w v f a).pkts = s.pkts := rfl
@[simp] theorem State.result_linkTurn (s : State) (c : Issuer) (u l : Nat) (w : Bool) (v : Wide) (f : BitVec 10) (a : W64) : (s.result c u l w v f a).linkTurn = s.linkTurn := rfl
@[simp] theorem State.result_inTurn (s : State) (c : Issuer) (u l : Nat) (w : Bool) (v : Wide) (f : BitVec 10) (a : W64) : (s.result c u l w v f a).inTurn = s.inTurn := rfl
@[simp] theorem State.result_linkTick (s : State) (c : Issuer) (u l : Nat) (w : Bool) (v : Wide) (f : BitVec 10) (a : W64) : (s.result c u l w v f a).linkTick = s.linkTick := rfl
@[simp] theorem State.result_links (s : State) (c : Issuer) (u l : Nat) (w : Bool) (v : Wide) (f : BitVec 10) (a : W64) : (s.result c u l w v f a).links = s.links := rfl
@[simp] theorem State.result_linkBase (s : State) (c : Issuer) (u l : Nat) (w : Bool) (v : Wide) (f : BitVec 10) (a : W64) : (s.result c u l w v f a).linkBase = s.linkBase := rfl
@[simp] theorem State.result_clocks (s : State) (c : Issuer) (u l : Nat) (w : Bool) (v : Wide) (f : BitVec 10) (a : W64) : (s.result c u l w v f a).clocks = s.clocks := rfl
@[simp] theorem State.result_noticed (s : State) (c : Issuer) (u l : Nat) (w : Bool) (v : Wide) (f : BitVec 10) (a : W64) : (s.result c u l w v f a).noticed = s.noticed := rfl
@[simp] theorem State.result_bursts (s : State) (c : Issuer) (u l : Nat) (w : Bool) (v : Wide) (f : BitVec 10) (a : W64) : (s.result c u l w v f a).bursts = s.bursts := rfl
@[simp] theorem State.result_lamport (s : State) (c : Issuer) (u l : Nat) (w : Bool) (v : Wide) (f : BitVec 10) (a : W64) : (s.result c u l w v f a).lamport = s.lamport := rfl
@[simp] theorem State.result_pairs (s : State) (c : Issuer) (u l : Nat) (w : Bool) (v : Wide) (f : BitVec 10) (a : W64) : (s.result c u l w v f a).pairs = s.pairs := rfl
@[simp] theorem State.result_tags (s : State) (c : Issuer) (u l : Nat) (w : Bool) (v : Wide) (f : BitVec 10) (a : W64) : (s.result c u l w v f a).tags = s.tags := rfl
@[simp] theorem State.result_badLines (s : State) (c : Issuer) (u l : Nat) (w : Bool) (v : Wide) (f : BitVec 10) (a : W64) : (s.result c u l w v f a).badLines = s.badLines := rfl
@[simp] theorem State.result_badWords (s : State) (c : Issuer) (u l : Nat) (w : Bool) (v : Wide) (f : BitVec 10) (a : W64) : (s.result c u l w v f a).badWords = s.badWords := rfl
@[simp] theorem State.result_tlb (s : State) (c : Issuer) (u l : Nat) (w : Bool) (v : Wide) (f : BitVec 10) (a : W64) : (s.result c u l w v f a).tlb = s.tlb := rfl
@[simp] theorem State.result_walks (s : State) (c : Issuer) (u l : Nat) (w : Bool) (v : Wide) (f : BitVec 10) (a : W64) : (s.result c u l w v f a).walks = s.walks := rfl
@[simp] theorem State.result_reqs (s : State) (c : Issuer) (u l : Nat) (w : Bool) (v : Wide) (f : BitVec 10) (a : W64) : (s.result c u l w v f a).reqs = s.reqs := rfl
@[simp] theorem State.result_held (s : State) (c : Issuer) (u l : Nat) (w : Bool) (v : Wide) (f : BitVec 10) (a : W64) : (s.result c u l w v f a).held = s.held := rfl
@[simp] theorem State.result_pins (s : State) (c : Issuer) (u l : Nat) (w : Bool) (v : Wide) (f : BitVec 10) (a : W64) : (s.result c u l w v f a).pins = s.pins := rfl
@[simp] theorem State.result_pageJobs (s : State) (c : Issuer) (u l : Nat) (w : Bool) (v : Wide) (f : BitVec 10) (a : W64) : (s.result c u l w v f a).pageJobs = s.pageJobs := rfl
@[simp] theorem State.result_ctxs (s : State) (c : Issuer) (u l : Nat) (w : Bool) (v : Wide) (f : BitVec 10) (a : W64) : (s.result c u l w v f a).ctxs = s.ctxs := rfl
@[simp] theorem State.result_launches (s : State) (c : Issuer) (u l : Nat) (w : Bool) (v : Wide) (f : BitVec 10) (a : W64) : (s.result c u l w v f a).launches = s.launches := rfl
@[simp] theorem State.result_gangs (s : State) (c : Issuer) (u l : Nat) (w : Bool) (v : Wide) (f : BitVec 10) (a : W64) : (s.result c u l w v f a).gangs = s.gangs := rfl
@[simp] theorem State.result_spawns (s : State) (c : Issuer) (u l : Nat) (w : Bool) (v : Wide) (f : BitVec 10) (a : W64) : (s.result c u l w v f a).spawns = s.spawns := rfl
@[simp] theorem State.result_sends (s : State) (c : Issuer) (u l : Nat) (w : Bool) (v : Wide) (f : BitVec 10) (a : W64) : (s.result c u l w v f a).sends = s.sends := rfl
@[simp] theorem State.result_dispNext (s : State) (c : Issuer) (u l : Nat) (w : Bool) (v : Wide) (f : BitVec 10) (a : W64) : (s.result c u l w v f a).dispNext = s.dispNext := rfl
@[simp] theorem State.result_served (s : State) (c : Issuer) (u l : Nat) (w : Bool) (v : Wide) (f : BitVec 10) (a : W64) : (s.result c u l w v f a).served = s.served := rfl
@[simp] theorem State.result_affinity (s : State) (c : Issuer) (u l : Nat) (w : Bool) (v : Wide) (f : BitVec 10) (a : W64) : (s.result c u l w v f a).affinity = s.affinity := rfl
@[simp] theorem State.result_barMarks (s : State) (c : Issuer) (u l : Nat) (w : Bool) (v : Wide) (f : BitVec 10) (a : W64) : (s.result c u l w v f a).barMarks = s.barMarks := rfl
@[simp] theorem State.result_barBusy (s : State) (c : Issuer) (u l : Nat) (w : Bool) (v : Wide) (f : BitVec 10) (a : W64) : (s.result c u l w v f a).barBusy = s.barBusy := rfl
@[simp] theorem State.result_waiters (s : State) (c : Issuer) (u l : Nat) (w : Bool) (v : Wide) (f : BitVec 10) (a : W64) : (s.result c u l w v f a).waiters = s.waiters := rfl
@[simp] theorem State.result_timeouts (s : State) (c : Issuer) (u l : Nat) (w : Bool) (v : Wide) (f : BitVec 10) (a : W64) : (s.result c u l w v f a).timeouts = s.timeouts := rfl
@[simp] theorem State.result_msix (s : State) (c : Issuer) (u l : Nat) (w : Bool) (v : Wide) (f : BitVec 10) (a : W64) : (s.result c u l w v f a).msix = s.msix := rfl
@[simp] theorem State.result_pba (s : State) (c : Issuer) (u l : Nat) (w : Bool) (v : Wide) (f : BitVec 10) (a : W64) : (s.result c u l w v f a).pba = s.pba := rfl
@[simp] theorem State.result_windows (s : State) (c : Issuer) (u l : Nat) (w : Bool) (v : Wide) (f : BitVec 10) (a : W64) : (s.result c u l w v f a).windows = s.windows := rfl
@[simp] theorem State.result_clusters (s : State) (c : Issuer) (u l : Nat) (w : Bool) (v : Wide) (f : BitVec 10) (a : W64) : (s.result c u l w v f a).clusters = s.clusters := rfl
@[simp] theorem State.result_rail (s : State) (c : Issuer) (u l : Nat) (w : Bool) (v : Wide) (f : BitVec 10) (a : W64) : (s.result c u l w v f a).rail = s.rail := rfl
@[simp] theorem State.result_inrush (s : State) (c : Issuer) (u l : Nat) (w : Bool) (v : Wide) (f : BitVec 10) (a : W64) : (s.result c u l w v f a).inrush = s.inrush := rfl
@[simp] theorem State.result_dieCount (s : State) (c : Issuer) (u l : Nat) (w : Bool) (v : Wide) (f : BitVec 10) (a : W64) : (s.result c u l w v f a).dieCount = s.dieCount := rfl
@[simp] theorem State.result_phase (s : State) (c : Issuer) (u l : Nat) (w : Bool) (v : Wide) (f : BitVec 10) (a : W64) : (s.result c u l w v f a).phase = s.phase := rfl
@[simp] theorem State.result_fcode (s : State) (c : Issuer) (u l : Nat) (w : Bool) (v : Wide) (f : BitVec 10) (a : W64) : (s.result c u l w v f a).fcode = s.fcode := rfl
@[simp] theorem State.result_owner (s : State) (c : Issuer) (u l : Nat) (w : Bool) (v : Wide) (f : BitVec 10) (a : W64) : (s.result c u l w v f a).owner = s.owner := rfl
@[simp] theorem State.result_masters (s : State) (c : Issuer) (u l : Nat) (w : Bool) (v : Wide) (f : BitVec 10) (a : W64) : (s.result c u l w v f a).masters = s.masters := rfl
@[simp] theorem State.result_mcp (s : State) (c : Issuer) (u l : Nat) (w : Bool) (v : Wide) (f : BitVec 10) (a : W64) : (s.result c u l w v f a).mcp = s.mcp := rfl
@[simp] theorem State.result_mcpQ (s : State) (c : Issuer) (u l : Nat) (w : Bool) (v : Wide) (f : BitVec 10) (a : W64) : (s.result c u l w v f a).mcpQ = s.mcpQ := rfl
@[simp] theorem State.result_waiting (s : State) (c : Issuer) (u l : Nat) (w : Bool) (v : Wide) (f : BitVec 10) (a : W64) : (s.result c u l w v f a).waiting = s.waiting := rfl
@[simp] theorem State.result_log (s : State) (c : Issuer) (u l : Nat) (w : Bool) (v : Wide) (f : BitVec 10) (a : W64) : (s.result c u l w v f a).log = s.log := rfl
@[simp] theorem State.result_stallY (s : State) (c : Issuer) (u l : Nat) (w : Bool) (v : Wide) (f : BitVec 10) (a : W64) : (s.result c u l w v f a).stallY = s.stallY := rfl
@[simp] theorem State.result_completions (s : State) (c : Issuer) (u l : Nat) (w : Bool) (v : Wide) (f : BitVec 10) (a : W64) : (s.result c u l w v f a).completions = s.completions := rfl
@[simp] theorem State.result_wbase (s : State) (c : Issuer) (u l : Nat) (w : Bool) (v : Wide) (f : BitVec 10) (a : W64) : (s.result c u l w v f a).wbase = s.wbase := rfl
@[simp] theorem State.result_upPorts (s : State) (c : Issuer) (u l : Nat) (w : Bool) (v : Wide) (f : BitVec 10) (a : W64) : (s.result c u l w v f a).upPorts = s.upPorts := rfl
@[simp] theorem State.result_downAt (s : State) (c : Issuer) (u l : Nat) (w : Bool) (v : Wide) (f : BitVec 10) (a : W64) : (s.result c u l w v f a).downAt = s.downAt := rfl
@[simp] theorem State.result_d3hot (s : State) (c : Issuer) (u l : Nat) (w : Bool) (v : Wide) (f : BitVec 10) (a : W64) : (s.result c u l w v f a).d3hot = s.d3hot := rfl
@[simp] theorem State.result_bifurcated (s : State) (c : Issuer) (u l : Nat) (w : Bool) (v : Wide) (f : BitVec 10) (a : W64) : (s.result c u l w v f a).bifurcated = s.bifurcated := rfl
@[simp] theorem State.result_cmds (s : State) (c : Issuer) (u l : Nat) (w : Bool) (v : Wide) (f : BitVec 10) (a : W64) : (s.result c u l w v f a).cmds = s.cmds := rfl
@[simp] theorem State.result_streams (s : State) (c : Issuer) (u l : Nat) (w : Bool) (v : Wide) (f : BitVec 10) (a : W64) : (s.result c u l w v f a).streams = s.streams := rfl
@[simp] theorem State.result_meets (s : State) (c : Issuer) (u l : Nat) (w : Bool) (v : Wide) (f : BitVec 10) (a : W64) : (s.result c u l w v f a).meets = s.meets := rfl
@[simp] theorem State.result_waves (s : State) (c : Issuer) (u l : Nat) (w : Bool) (v : Wide) (f : BitVec 10) (a : W64) : (s.result c u l w v f a).waves = s.waves := rfl
@[simp] theorem State.result_images (s : State) (c : Issuer) (u l : Nat) (w : Bool) (v : Wide) (f : BitVec 10) (a : W64) : (s.result c u l w v f a).images = s.images := rfl
@[simp] theorem State.result_energy (s : State) (c : Issuer) (u l : Nat) (w : Bool) (v : Wide) (f : BitVec 10) (a : W64) : (s.result c u l w v f a).energy = s.energy := rfl

/-! ### `setFlags` -/

@[simp] theorem State.setFlags_tick (s : State) (c : Issuer) (f : BitVec 10) : (s.setFlags c f).tick = s.tick := rfl
@[simp] theorem State.setFlags_turn (s : State) (c : Issuer) (f : BitVec 10) : (s.setFlags c f).turn = s.turn := rfl
@[simp] theorem State.setFlags_cur (s : State) (c : Issuer) (f : BitVec 10) : (s.setFlags c f).cur = s.cur := rfl
@[simp] theorem State.setFlags_ev (s : State) (c : Issuer) (f : BitVec 10) : (s.setFlags c f).ev = s.ev := rfl
@[simp] theorem State.setFlags_agenda (s : State) (c : Issuer) (f : BitVec 10) : (s.setFlags c f).agenda = s.agenda := rfl
@[simp] theorem State.setFlags_fresh (s : State) (c : Issuer) (f : BitVec 10) : (s.setFlags c f).fresh = s.fresh := rfl
@[simp] theorem State.setFlags_mem (s : State) (c : Issuer) (f : BitVec 10) : (s.setFlags c f).mem = s.mem := rfl
@[simp] theorem State.setFlags_ids (s : State) (c : Issuer) (f : BitVec 10) : (s.setFlags c f).ids = s.ids := rfl
@[simp] theorem State.setFlags_pkts (s : State) (c : Issuer) (f : BitVec 10) : (s.setFlags c f).pkts = s.pkts := rfl
@[simp] theorem State.setFlags_linkTurn (s : State) (c : Issuer) (f : BitVec 10) : (s.setFlags c f).linkTurn = s.linkTurn := rfl
@[simp] theorem State.setFlags_inTurn (s : State) (c : Issuer) (f : BitVec 10) : (s.setFlags c f).inTurn = s.inTurn := rfl
@[simp] theorem State.setFlags_linkTick (s : State) (c : Issuer) (f : BitVec 10) : (s.setFlags c f).linkTick = s.linkTick := rfl
@[simp] theorem State.setFlags_links (s : State) (c : Issuer) (f : BitVec 10) : (s.setFlags c f).links = s.links := rfl
@[simp] theorem State.setFlags_linkBase (s : State) (c : Issuer) (f : BitVec 10) : (s.setFlags c f).linkBase = s.linkBase := rfl
@[simp] theorem State.setFlags_clocks (s : State) (c : Issuer) (f : BitVec 10) : (s.setFlags c f).clocks = s.clocks := rfl
@[simp] theorem State.setFlags_noticed (s : State) (c : Issuer) (f : BitVec 10) : (s.setFlags c f).noticed = s.noticed := rfl
@[simp] theorem State.setFlags_bursts (s : State) (c : Issuer) (f : BitVec 10) : (s.setFlags c f).bursts = s.bursts := rfl
@[simp] theorem State.setFlags_lamport (s : State) (c : Issuer) (f : BitVec 10) : (s.setFlags c f).lamport = s.lamport := rfl
@[simp] theorem State.setFlags_pairs (s : State) (c : Issuer) (f : BitVec 10) : (s.setFlags c f).pairs = s.pairs := rfl
@[simp] theorem State.setFlags_tags (s : State) (c : Issuer) (f : BitVec 10) : (s.setFlags c f).tags = s.tags := rfl
@[simp] theorem State.setFlags_badLines (s : State) (c : Issuer) (f : BitVec 10) : (s.setFlags c f).badLines = s.badLines := rfl
@[simp] theorem State.setFlags_badWords (s : State) (c : Issuer) (f : BitVec 10) : (s.setFlags c f).badWords = s.badWords := rfl
@[simp] theorem State.setFlags_tlb (s : State) (c : Issuer) (f : BitVec 10) : (s.setFlags c f).tlb = s.tlb := rfl
@[simp] theorem State.setFlags_walks (s : State) (c : Issuer) (f : BitVec 10) : (s.setFlags c f).walks = s.walks := rfl
@[simp] theorem State.setFlags_reqs (s : State) (c : Issuer) (f : BitVec 10) : (s.setFlags c f).reqs = s.reqs := rfl
@[simp] theorem State.setFlags_held (s : State) (c : Issuer) (f : BitVec 10) : (s.setFlags c f).held = s.held := rfl
@[simp] theorem State.setFlags_pins (s : State) (c : Issuer) (f : BitVec 10) : (s.setFlags c f).pins = s.pins := rfl
@[simp] theorem State.setFlags_pageJobs (s : State) (c : Issuer) (f : BitVec 10) : (s.setFlags c f).pageJobs = s.pageJobs := rfl
@[simp] theorem State.setFlags_ctxs (s : State) (c : Issuer) (f : BitVec 10) : (s.setFlags c f).ctxs = s.ctxs := rfl
@[simp] theorem State.setFlags_launches (s : State) (c : Issuer) (f : BitVec 10) : (s.setFlags c f).launches = s.launches := rfl
@[simp] theorem State.setFlags_gangs (s : State) (c : Issuer) (f : BitVec 10) : (s.setFlags c f).gangs = s.gangs := rfl
@[simp] theorem State.setFlags_spawns (s : State) (c : Issuer) (f : BitVec 10) : (s.setFlags c f).spawns = s.spawns := rfl
@[simp] theorem State.setFlags_sends (s : State) (c : Issuer) (f : BitVec 10) : (s.setFlags c f).sends = s.sends := rfl
@[simp] theorem State.setFlags_dispNext (s : State) (c : Issuer) (f : BitVec 10) : (s.setFlags c f).dispNext = s.dispNext := rfl
@[simp] theorem State.setFlags_served (s : State) (c : Issuer) (f : BitVec 10) : (s.setFlags c f).served = s.served := rfl
@[simp] theorem State.setFlags_affinity (s : State) (c : Issuer) (f : BitVec 10) : (s.setFlags c f).affinity = s.affinity := rfl
@[simp] theorem State.setFlags_barMarks (s : State) (c : Issuer) (f : BitVec 10) : (s.setFlags c f).barMarks = s.barMarks := rfl
@[simp] theorem State.setFlags_barBusy (s : State) (c : Issuer) (f : BitVec 10) : (s.setFlags c f).barBusy = s.barBusy := rfl
@[simp] theorem State.setFlags_waiters (s : State) (c : Issuer) (f : BitVec 10) : (s.setFlags c f).waiters = s.waiters := rfl
@[simp] theorem State.setFlags_timeouts (s : State) (c : Issuer) (f : BitVec 10) : (s.setFlags c f).timeouts = s.timeouts := rfl
@[simp] theorem State.setFlags_msix (s : State) (c : Issuer) (f : BitVec 10) : (s.setFlags c f).msix = s.msix := rfl
@[simp] theorem State.setFlags_pba (s : State) (c : Issuer) (f : BitVec 10) : (s.setFlags c f).pba = s.pba := rfl
@[simp] theorem State.setFlags_windows (s : State) (c : Issuer) (f : BitVec 10) : (s.setFlags c f).windows = s.windows := rfl
@[simp] theorem State.setFlags_clusters (s : State) (c : Issuer) (f : BitVec 10) : (s.setFlags c f).clusters = s.clusters := rfl
@[simp] theorem State.setFlags_rail (s : State) (c : Issuer) (f : BitVec 10) : (s.setFlags c f).rail = s.rail := rfl
@[simp] theorem State.setFlags_inrush (s : State) (c : Issuer) (f : BitVec 10) : (s.setFlags c f).inrush = s.inrush := rfl
@[simp] theorem State.setFlags_dieCount (s : State) (c : Issuer) (f : BitVec 10) : (s.setFlags c f).dieCount = s.dieCount := rfl
@[simp] theorem State.setFlags_phase (s : State) (c : Issuer) (f : BitVec 10) : (s.setFlags c f).phase = s.phase := rfl
@[simp] theorem State.setFlags_fcode (s : State) (c : Issuer) (f : BitVec 10) : (s.setFlags c f).fcode = s.fcode := rfl
@[simp] theorem State.setFlags_owner (s : State) (c : Issuer) (f : BitVec 10) : (s.setFlags c f).owner = s.owner := rfl
@[simp] theorem State.setFlags_masters (s : State) (c : Issuer) (f : BitVec 10) : (s.setFlags c f).masters = s.masters := rfl
@[simp] theorem State.setFlags_mcp (s : State) (c : Issuer) (f : BitVec 10) : (s.setFlags c f).mcp = s.mcp := rfl
@[simp] theorem State.setFlags_mcpQ (s : State) (c : Issuer) (f : BitVec 10) : (s.setFlags c f).mcpQ = s.mcpQ := rfl
@[simp] theorem State.setFlags_waiting (s : State) (c : Issuer) (f : BitVec 10) : (s.setFlags c f).waiting = s.waiting := rfl
@[simp] theorem State.setFlags_log (s : State) (c : Issuer) (f : BitVec 10) : (s.setFlags c f).log = s.log := rfl
@[simp] theorem State.setFlags_stallY (s : State) (c : Issuer) (f : BitVec 10) : (s.setFlags c f).stallY = s.stallY := rfl
@[simp] theorem State.setFlags_completions (s : State) (c : Issuer) (f : BitVec 10) : (s.setFlags c f).completions = s.completions := rfl
@[simp] theorem State.setFlags_wbase (s : State) (c : Issuer) (f : BitVec 10) : (s.setFlags c f).wbase = s.wbase := rfl
@[simp] theorem State.setFlags_upPorts (s : State) (c : Issuer) (f : BitVec 10) : (s.setFlags c f).upPorts = s.upPorts := rfl
@[simp] theorem State.setFlags_downAt (s : State) (c : Issuer) (f : BitVec 10) : (s.setFlags c f).downAt = s.downAt := rfl
@[simp] theorem State.setFlags_d3hot (s : State) (c : Issuer) (f : BitVec 10) : (s.setFlags c f).d3hot = s.d3hot := rfl
@[simp] theorem State.setFlags_bifurcated (s : State) (c : Issuer) (f : BitVec 10) : (s.setFlags c f).bifurcated = s.bifurcated := rfl
@[simp] theorem State.setFlags_cmds (s : State) (c : Issuer) (f : BitVec 10) : (s.setFlags c f).cmds = s.cmds := rfl
@[simp] theorem State.setFlags_streams (s : State) (c : Issuer) (f : BitVec 10) : (s.setFlags c f).streams = s.streams := rfl
@[simp] theorem State.setFlags_meets (s : State) (c : Issuer) (f : BitVec 10) : (s.setFlags c f).meets = s.meets := rfl
@[simp] theorem State.setFlags_waves (s : State) (c : Issuer) (f : BitVec 10) : (s.setFlags c f).waves = s.waves := rfl
@[simp] theorem State.setFlags_images (s : State) (c : Issuer) (f : BitVec 10) : (s.setFlags c f).images = s.images := rfl
@[simp] theorem State.setFlags_energy (s : State) (c : Issuer) (f : BitVec 10) : (s.setFlags c f).energy = s.energy := rfl

/-! ### Fields put -/

@[simp] theorem State.setMem_mem (s : State) (m : List Host.Cell) : (s.setMem m).mem = m := rfl
@[simp] theorem State.atTick_agenda (s : State) (k r : Nat) (i : Instr) (o : Operand) : (s.atTick k r i o).agenda = insertEvent s.agenda (k, r, i, o) := rfl

/-! ### Tiles, cores and strands -/

/-- A tile after one has been changed. -/
theorem State.tile_modTile (s : State) (t u : Nat) (f : Tile → Tile) : (s.modTile t f).tile u = if u = t then f (s.tile t) else s.tile u :=
  SMap.get_set _ _ _ _ _

@[simp] theorem State.tile_modTile_same (s : State) (t : Nat) (f : Tile → Tile) : (s.modTile t f).tile t = f (s.tile t) := by
  simp [State.tile_modTile]

theorem State.tile_modTile_other (s : State) {t u : Nat} (f : Tile → Tile) (h : u ≠ t) : (s.modTile t f).tile u = s.tile u := by
  simp [State.tile_modTile, h]

@[simp] theorem Tile.strand_setStrand_same (y : Tile) (n : Nat) (x : Strand) : (y.setStrand n x).strand n = x := SMap.get_set_same _ _ _ _

theorem Tile.strand_setStrand_other (y : Tile) {n k : Nat} (x : Strand) (h : k ≠ n) : (y.setStrand n x).strand k = y.strand k :=
  SMap.get_set_other _ _ _ h

@[simp] theorem Tile.setStrand_core (y : Tile) (n : Nat) (x : Strand) : (y.setStrand n x).core = y.core := rfl
@[simp] theorem Tile.setStrand_code (y : Tile) (n : Nat) (x : Strand) : (y.setStrand n x).code = y.code := rfl
@[simp] theorem Tile.setStrand_nbun (y : Tile) (n : Nat) (x : Strand) : (y.setStrand n x).nbun = y.nbun := rfl
@[simp] theorem Tile.setStrand_kernel (y : Tile) (n : Nat) (x : Strand) : (y.setStrand n x).kernel = y.kernel := rfl
@[simp] theorem Tile.setStrand_loading (y : Tile) (n : Nat) (x : Strand) : (y.setStrand n x).loading = y.loading := rfl
@[simp] theorem Tile.setStrand_stopped (y : Tile) (n : Nat) (x : Strand) : (y.setStrand n x).stopped = y.stopped := rfl
@[simp] theorem Tile.setStrand_stoppedAt (y : Tile) (n : Nat) (x : Strand) : (y.setStrand n x).stoppedAt = y.stoppedAt := rfl
@[simp] theorem Tile.setStrand_chan (y : Tile) (n : Nat) (x : Strand) : (y.setStrand n x).chan = y.chan := rfl
@[simp] theorem Tile.setStrand_gated (y : Tile) (n : Nat) (x : Strand) : (y.setStrand n x).gated = y.gated := rfl
@[simp] theorem Tile.setStrand_gatedAt (y : Tile) (n : Nat) (x : Strand) : (y.setStrand n x).gatedAt = y.gatedAt := rfl
@[simp] theorem Tile.setStrand_quiet (y : Tile) (n : Nat) (x : Strand) : (y.setStrand n x).quiet = y.quiet := rfl
@[simp] theorem Tile.setStrand_poked (y : Tile) (n : Nat) (x : Strand) : (y.setStrand n x).poked = y.poked := rfl
@[simp] theorem Tile.setStrand_wakeAt (y : Tile) (n : Nat) (x : Strand) : (y.setStrand n x).wakeAt = y.wakeAt := rfl
@[simp] theorem Tile.setStrand_counters (y : Tile) (n : Nat) (x : Strand) : (y.setStrand n x).counters = y.counters := rfl
@[simp] theorem Tile.setStrand_array (y : Tile) (n : Nat) (x : Strand) : (y.setStrand n x).array = y.array := rfl
@[simp] theorem Tile.setStrand_collar (y : Tile) (n : Nat) (x : Strand) : (y.setStrand n x).collar = y.collar := rfl
@[simp] theorem Tile.setStrand_engines (y : Tile) (n : Nat) (x : Strand) : (y.setStrand n x).engines = y.engines := rfl
@[simp] theorem Tile.setStrand_handlers (y : Tile) (n : Nat) (x : Strand) : (y.setStrand n x).handlers = y.handlers := rfl
@[simp] theorem Tile.setStrand_capSlots (y : Tile) (n : Nat) (x : Strand) : (y.setStrand n x).capSlots = y.capSlots := rfl
@[simp] theorem Tile.setStrand_capCount (y : Tile) (n : Nat) (x : Strand) : (y.setStrand n x).capCount = y.capCount := rfl
@[simp] theorem Tile.setStrand_capSeq (y : Tile) (n : Nat) (x : Strand) : (y.setStrand n x).capSeq = y.capSeq := rfl
@[simp] theorem Tile.setStrand_capWait (y : Tile) (n : Nat) (x : Strand) : (y.setStrand n x).capWait = y.capWait := rfl
@[simp] theorem Tile.setStrand_capHeld (y : Tile) (n : Nat) (x : Strand) : (y.setStrand n x).capHeld = y.capHeld := rfl

@[simp] theorem State.core_modCore_same (s : State) (t : Nat) (f : Core → Core) : (s.modCore t f).core t = f (s.core t) := by
  simp [State.modCore, State.core]

theorem State.core_modCore_other (s : State) {t u : Nat} (f : Core → Core) (h : u ≠ t) : (s.modCore t f).core u = s.core u := by
  simp [State.modCore, State.core, State.tile_modTile_other, h]

@[simp] theorem State.strand_modCore (s : State) (t u n : Nat) (f : Core → Core) : (s.modCore t f).strand u n = s.strand u n := by
  simp only [State.modCore, State.strand, State.tile_modTile]
  split
  · subst_vars; rfl
  · rfl

@[simp] theorem State.core_modStrand (s : State) (t n u : Nat) (f : Strand → Strand) : (s.modStrand t n f).core u = s.core u := by
  simp only [State.modStrand, State.core, State.tile_modTile]
  split
  · subst_vars; rfl
  · rfl

@[simp] theorem State.strand_modStrand_same (s : State) (t n : Nat) (f : Strand → Strand) : (s.modStrand t n f).strand t n = f (s.strand t n) := by
  simp [State.modStrand, State.strand]

theorem State.strand_modStrand_other (s : State) {t n u k : Nat} (f : Strand → Strand) (h : u ≠ t ∨ k ≠ n) :
    (s.modStrand t n f).strand u k = s.strand u k := by
  simp only [State.modStrand, State.strand, State.tile_modTile]
  split
  · subst_vars
    rcases h with h | h
    · exact absurd rfl h
    · exact Tile.strand_setStrand_other _ _ h
  · rfl

@[simp] theorem State.core_setMem (s : State) (m : List Host.Cell) (t : Nat) : (s.setMem m).core t = s.core t := rfl
@[simp] theorem State.strand_setMem (s : State) (m : List Host.Cell) (t n : Nat) : (s.setMem m).strand t n = s.strand t n := rfl
@[simp] theorem State.tile_setMem (s : State) (m : List Host.Cell) (t : Nat) : (s.setMem m).tile t = s.tile t := rfl
@[simp] theorem State.tile_atTick (s : State) (k r : Nat) (i : Instr) (o : Operand) (t : Nat) : (s.atTick k r i o).tile t = s.tile t := rfl
@[simp] theorem State.core_atTick (s : State) (k r : Nat) (i : Instr) (o : Operand) (t : Nat) : (s.atTick k r i o).core t = s.core t := rfl
@[simp] theorem State.strand_atTick (s : State) (k r : Nat) (i : Instr) (o : Operand) (t n : Nat) :
    (s.atTick k r i o).strand t n = s.strand t n := rfl

/-! ### What a change of a core or a strand leaves of its tile -/

@[simp] theorem State.modCore_tile_strands (s : State) (t u : Nat) (f : Core → Core) : ((s.modCore t f).tile u).strands = (s.tile u).strands := by
  simp only [State.modCore, State.tile_modTile]; split <;> simp_all
@[simp] theorem State.modCore_tile_code (s : State) (t u : Nat) (f : Core → Core) : ((s.modCore t f).tile u).code = (s.tile u).code := by
  simp only [State.modCore, State.tile_modTile]; split <;> simp_all
@[simp] theorem State.modCore_tile_nbun (s : State) (t u : Nat) (f : Core → Core) : ((s.modCore t f).tile u).nbun = (s.tile u).nbun := by
  simp only [State.modCore, State.tile_modTile]; split <;> simp_all
@[simp] theorem State.modCore_tile_kernel (s : State) (t u : Nat) (f : Core → Core) : ((s.modCore t f).tile u).kernel = (s.tile u).kernel := by
  simp only [State.modCore, State.tile_modTile]; split <;> simp_all
@[simp] theorem State.modCore_tile_loading (s : State) (t u : Nat) (f : Core → Core) : ((s.modCore t f).tile u).loading = (s.tile u).loading := by
  simp only [State.modCore, State.tile_modTile]; split <;> simp_all
@[simp] theorem State.modCore_tile_stopped (s : State) (t u : Nat) (f : Core → Core) : ((s.modCore t f).tile u).stopped = (s.tile u).stopped := by
  simp only [State.modCore, State.tile_modTile]; split <;> simp_all
@[simp] theorem State.modCore_tile_stoppedAt (s : State) (t u : Nat) (f : Core → Core) : ((s.modCore t f).tile u).stoppedAt = (s.tile u).stoppedAt := by
  simp only [State.modCore, State.tile_modTile]; split <;> simp_all
@[simp] theorem State.modCore_tile_chan (s : State) (t u : Nat) (f : Core → Core) : ((s.modCore t f).tile u).chan = (s.tile u).chan := by
  simp only [State.modCore, State.tile_modTile]; split <;> simp_all
@[simp] theorem State.modCore_tile_gated (s : State) (t u : Nat) (f : Core → Core) : ((s.modCore t f).tile u).gated = (s.tile u).gated := by
  simp only [State.modCore, State.tile_modTile]; split <;> simp_all
@[simp] theorem State.modCore_tile_gatedAt (s : State) (t u : Nat) (f : Core → Core) : ((s.modCore t f).tile u).gatedAt = (s.tile u).gatedAt := by
  simp only [State.modCore, State.tile_modTile]; split <;> simp_all
@[simp] theorem State.modCore_tile_quiet (s : State) (t u : Nat) (f : Core → Core) : ((s.modCore t f).tile u).quiet = (s.tile u).quiet := by
  simp only [State.modCore, State.tile_modTile]; split <;> simp_all
@[simp] theorem State.modCore_tile_poked (s : State) (t u : Nat) (f : Core → Core) : ((s.modCore t f).tile u).poked = (s.tile u).poked := by
  simp only [State.modCore, State.tile_modTile]; split <;> simp_all
@[simp] theorem State.modCore_tile_wakeAt (s : State) (t u : Nat) (f : Core → Core) : ((s.modCore t f).tile u).wakeAt = (s.tile u).wakeAt := by
  simp only [State.modCore, State.tile_modTile]; split <;> simp_all
@[simp] theorem State.modCore_tile_counters (s : State) (t u : Nat) (f : Core → Core) : ((s.modCore t f).tile u).counters = (s.tile u).counters := by
  simp only [State.modCore, State.tile_modTile]; split <;> simp_all
@[simp] theorem State.modCore_tile_array (s : State) (t u : Nat) (f : Core → Core) : ((s.modCore t f).tile u).array = (s.tile u).array := by
  simp only [State.modCore, State.tile_modTile]; split <;> simp_all
@[simp] theorem State.modCore_tile_collar (s : State) (t u : Nat) (f : Core → Core) : ((s.modCore t f).tile u).collar = (s.tile u).collar := by
  simp only [State.modCore, State.tile_modTile]; split <;> simp_all
@[simp] theorem State.modCore_tile_engines (s : State) (t u : Nat) (f : Core → Core) : ((s.modCore t f).tile u).engines = (s.tile u).engines := by
  simp only [State.modCore, State.tile_modTile]; split <;> simp_all
@[simp] theorem State.modCore_tile_handlers (s : State) (t u : Nat) (f : Core → Core) : ((s.modCore t f).tile u).handlers = (s.tile u).handlers := by
  simp only [State.modCore, State.tile_modTile]; split <;> simp_all
@[simp] theorem State.modCore_tile_capSlots (s : State) (t u : Nat) (f : Core → Core) : ((s.modCore t f).tile u).capSlots = (s.tile u).capSlots := by
  simp only [State.modCore, State.tile_modTile]; split <;> simp_all
@[simp] theorem State.modCore_tile_capCount (s : State) (t u : Nat) (f : Core → Core) : ((s.modCore t f).tile u).capCount = (s.tile u).capCount := by
  simp only [State.modCore, State.tile_modTile]; split <;> simp_all
@[simp] theorem State.modCore_tile_capSeq (s : State) (t u : Nat) (f : Core → Core) : ((s.modCore t f).tile u).capSeq = (s.tile u).capSeq := by
  simp only [State.modCore, State.tile_modTile]; split <;> simp_all
@[simp] theorem State.modCore_tile_capWait (s : State) (t u : Nat) (f : Core → Core) : ((s.modCore t f).tile u).capWait = (s.tile u).capWait := by
  simp only [State.modCore, State.tile_modTile]; split <;> simp_all
@[simp] theorem State.modCore_tile_capHeld (s : State) (t u : Nat) (f : Core → Core) : ((s.modCore t f).tile u).capHeld = (s.tile u).capHeld := by
  simp only [State.modCore, State.tile_modTile]; split <;> simp_all
@[simp] theorem State.modStrand_tile_core (s : State) (t n u : Nat) (f : Strand → Strand) : ((s.modStrand t n f).tile u).core = (s.tile u).core := by
  simp only [State.modStrand, State.tile_modTile]; split <;> simp_all
@[simp] theorem State.modStrand_tile_code (s : State) (t n u : Nat) (f : Strand → Strand) : ((s.modStrand t n f).tile u).code = (s.tile u).code := by
  simp only [State.modStrand, State.tile_modTile]; split <;> simp_all
@[simp] theorem State.modStrand_tile_nbun (s : State) (t n u : Nat) (f : Strand → Strand) : ((s.modStrand t n f).tile u).nbun = (s.tile u).nbun := by
  simp only [State.modStrand, State.tile_modTile]; split <;> simp_all
@[simp] theorem State.modStrand_tile_kernel (s : State) (t n u : Nat) (f : Strand → Strand) : ((s.modStrand t n f).tile u).kernel = (s.tile u).kernel := by
  simp only [State.modStrand, State.tile_modTile]; split <;> simp_all
@[simp] theorem State.modStrand_tile_loading (s : State) (t n u : Nat) (f : Strand → Strand) : ((s.modStrand t n f).tile u).loading = (s.tile u).loading := by
  simp only [State.modStrand, State.tile_modTile]; split <;> simp_all
@[simp] theorem State.modStrand_tile_stopped (s : State) (t n u : Nat) (f : Strand → Strand) : ((s.modStrand t n f).tile u).stopped = (s.tile u).stopped := by
  simp only [State.modStrand, State.tile_modTile]; split <;> simp_all
@[simp] theorem State.modStrand_tile_stoppedAt (s : State) (t n u : Nat) (f : Strand → Strand) : ((s.modStrand t n f).tile u).stoppedAt = (s.tile u).stoppedAt := by
  simp only [State.modStrand, State.tile_modTile]; split <;> simp_all
@[simp] theorem State.modStrand_tile_chan (s : State) (t n u : Nat) (f : Strand → Strand) : ((s.modStrand t n f).tile u).chan = (s.tile u).chan := by
  simp only [State.modStrand, State.tile_modTile]; split <;> simp_all
@[simp] theorem State.modStrand_tile_gated (s : State) (t n u : Nat) (f : Strand → Strand) : ((s.modStrand t n f).tile u).gated = (s.tile u).gated := by
  simp only [State.modStrand, State.tile_modTile]; split <;> simp_all
@[simp] theorem State.modStrand_tile_gatedAt (s : State) (t n u : Nat) (f : Strand → Strand) : ((s.modStrand t n f).tile u).gatedAt = (s.tile u).gatedAt := by
  simp only [State.modStrand, State.tile_modTile]; split <;> simp_all
@[simp] theorem State.modStrand_tile_quiet (s : State) (t n u : Nat) (f : Strand → Strand) : ((s.modStrand t n f).tile u).quiet = (s.tile u).quiet := by
  simp only [State.modStrand, State.tile_modTile]; split <;> simp_all
@[simp] theorem State.modStrand_tile_poked (s : State) (t n u : Nat) (f : Strand → Strand) : ((s.modStrand t n f).tile u).poked = (s.tile u).poked := by
  simp only [State.modStrand, State.tile_modTile]; split <;> simp_all
@[simp] theorem State.modStrand_tile_wakeAt (s : State) (t n u : Nat) (f : Strand → Strand) : ((s.modStrand t n f).tile u).wakeAt = (s.tile u).wakeAt := by
  simp only [State.modStrand, State.tile_modTile]; split <;> simp_all
@[simp] theorem State.modStrand_tile_counters (s : State) (t n u : Nat) (f : Strand → Strand) : ((s.modStrand t n f).tile u).counters = (s.tile u).counters := by
  simp only [State.modStrand, State.tile_modTile]; split <;> simp_all
@[simp] theorem State.modStrand_tile_array (s : State) (t n u : Nat) (f : Strand → Strand) : ((s.modStrand t n f).tile u).array = (s.tile u).array := by
  simp only [State.modStrand, State.tile_modTile]; split <;> simp_all
@[simp] theorem State.modStrand_tile_collar (s : State) (t n u : Nat) (f : Strand → Strand) : ((s.modStrand t n f).tile u).collar = (s.tile u).collar := by
  simp only [State.modStrand, State.tile_modTile]; split <;> simp_all
@[simp] theorem State.modStrand_tile_engines (s : State) (t n u : Nat) (f : Strand → Strand) : ((s.modStrand t n f).tile u).engines = (s.tile u).engines := by
  simp only [State.modStrand, State.tile_modTile]; split <;> simp_all
@[simp] theorem State.modStrand_tile_handlers (s : State) (t n u : Nat) (f : Strand → Strand) : ((s.modStrand t n f).tile u).handlers = (s.tile u).handlers := by
  simp only [State.modStrand, State.tile_modTile]; split <;> simp_all
@[simp] theorem State.modStrand_tile_capSlots (s : State) (t n u : Nat) (f : Strand → Strand) : ((s.modStrand t n f).tile u).capSlots = (s.tile u).capSlots := by
  simp only [State.modStrand, State.tile_modTile]; split <;> simp_all
@[simp] theorem State.modStrand_tile_capCount (s : State) (t n u : Nat) (f : Strand → Strand) : ((s.modStrand t n f).tile u).capCount = (s.tile u).capCount := by
  simp only [State.modStrand, State.tile_modTile]; split <;> simp_all
@[simp] theorem State.modStrand_tile_capSeq (s : State) (t n u : Nat) (f : Strand → Strand) : ((s.modStrand t n f).tile u).capSeq = (s.tile u).capSeq := by
  simp only [State.modStrand, State.tile_modTile]; split <;> simp_all
@[simp] theorem State.modStrand_tile_capWait (s : State) (t n u : Nat) (f : Strand → Strand) : ((s.modStrand t n f).tile u).capWait = (s.tile u).capWait := by
  simp only [State.modStrand, State.tile_modTile]; split <;> simp_all
@[simp] theorem State.modStrand_tile_capHeld (s : State) (t n u : Nat) (f : Strand → Strand) : ((s.modStrand t n f).tile u).capHeld = (s.tile u).capHeld := by
  simp only [State.modStrand, State.tile_modTile]; split <;> simp_all

end Sys2Proof.Machine
end

