-- ==== Sys2Proof/Laws/Ops.lean ====
section
/-! SUPPORT. What the shared operations of moves do: everything that a trigger, a plain move and a control item can answer. -/

namespace Sys2Proof.Machine

/-! ### Everything a trigger can answer -/

/-- A trigger that answers a next state either stalls its slot, or its effect's own answer decides. -/
theorem State.trigger_cases {s s' : State} {u : Nat} {n : Need} {t : Trig} {eff : Issuer → Opnds → State → Option (Except State State)}
    (h : s.trigger u n t eff = .next s') :
    ∃ c, s.issuer = some c ∧
      (s' = s.stall c ∨ s' = s.stallFull c ∨
        ∃ o, s.Issues c u n t o ∧
          (eff c o s = none ∧ s' = s.stall c ∨ eff c o s = some (.error s') ∨
            ∃ r, eff c o s = some (.ok r) ∧ s' = (r.commitMark c n).advance c)) := by
  unfold State.trigger at h
  split at h
  · cases h
  · rename_i c hc
    refine ⟨c, hc, ?_⟩
    split at h
    · cases h; exact .inl rfl
    · rename_i hf
      have hf : s.triggerFree c n t.sync = true := by simpa using hf
      split at h
      · cases h; exact .inl rfl
      · rename_i o ho
        split at h
        · cases h; exact .inr (.inl rfl)
        · rename_i hr
          have hr : s.roomFor c n t.w = true := by simpa using hr
          have hi : s.Issues c u n t o := ⟨hc, hf, ho, hr⟩
          split at h
          · rename_i he; cases h; exact .inr (.inr ⟨o, hi, .inl ⟨he, rfl⟩⟩)
          · rename_i r he; cases h; exact .inr (.inr ⟨o, hi, .inr (.inl he)⟩)
          · rename_i r he; cases h; exact .inr (.inr ⟨o, hi, .inr (.inr ⟨r, he, rfl⟩)⟩)

/-- What a trigger that issues answers. -/
theorem State.trigger_issues {s : State} {c : Issuer} {u : Nat} {n : Need} {t : Trig} {o : Opnds} (h : s.Issues c u n t o)
    (eff : Issuer → Opnds → State → Option (Except State State)) :
    s.trigger u n t eff = match eff c o s with
      | none => .next (s.stall c)
      | some (.error s') => .next s'
      | some (.ok s') => .next ((s'.commitMark c n).advance c) := by
  simp [State.trigger, h.issuer, h.free, h.operands, h.room] <;> rfl

/-- A trigger with nothing to commit whose effect is found. -/
theorem State.trigger_ok {s r : State} {c : Issuer} {u : Nat} {n : Need} {t : Trig} {o : Opnds}
    {eff : Issuer → Opnds → State → Option (Except State State)} (h : s.Issues c u n t o) (he : eff c o s = some (.ok r)) :
    s.trigger u n t eff = .next ((r.commitMark c n).advance c) := by
  rw [State.trigger_issues h, he]

/-- A trigger that neither commits nor is an access leaves no mark. -/
@[simp] theorem State.commitMark_no (s : State) (c : Issuer) (n : Need) (h : n.commit = false) (ha : n.access = false) : s.commitMark c n = s := by
  simp [State.commitMark, State.commits, h, ha]

/-- A result of fixed latency that issues. -/
theorem State.compute_issues {s : State} {c : Issuer} {u lat : Nat} {n : Need} {t : Trig} {o : Opnds} (f : Opnds → Wide × BitVec 10)
    (h : s.Issues c u { n with result := some u } t o) (hn : n.commit = false) (ha : n.access = false) :
    s.compute u lat n t f = .next (s.resulted c u lat t (f o).1 (f o).2) := by
  unfold State.compute
  rw [State.trigger_issues h]
  simp [State.commitMark, State.commits, hn, ha, State.resulted]

/-- Everything a trigger with a result of fixed latency can answer. -/
theorem State.compute_cases {s s' : State} {u lat : Nat} {n : Need} {t : Trig} {f : Opnds → Wide × BitVec 10}
    (hn : n.commit = false) (ha : n.access = false) (h : s.compute u lat n t f = .next s') :
    ∃ c, s.issuer = some c ∧ (s' = s.stall c ∨ s' = s.stallFull c ∨ ∃ o, s' = s.resulted c u lat t (f o).1 (f o).2) := by
  obtain ⟨c, hc, h⟩ := State.trigger_cases h
  refine ⟨c, hc, ?_⟩
  rcases h with h | h | ⟨o, -, h⟩
  · exact .inl h
  · exact .inr (.inl h)
  · rcases h with ⟨h, -⟩ | h | ⟨r, h, h'⟩
    · cases h
    · cases h
    · cases h
      exact .inr (.inr ⟨o, by simp [h', State.commitMark, State.commits, hn, ha, State.resulted]⟩)

/-! ### Plain moves and control items -/

/-- Everything a plain move can answer. -/
theorem State.plainMove_cases {s s' : State} {sync : Bool} {src : Src} {reg : Option Nat} {eff : Issuer → Wide → State → State}
    (h : s.plainMove sync src reg eff = .next s') :
    ∃ c, s.issuer = some c ∧ (s' = s.stall c ∨ s' = s.stallFull c ∨ ∃ v, s.Moves c sync src reg v ∧ s' = (eff c v s).advance c) := by
  unfold State.plainMove at h
  split at h
  · cases h
  · rename_i c hc
    refine ⟨c, hc, ?_⟩
    split at h
    · cases h; exact .inl rfl
    · rename_i hf
      split at h
      · cases h; exact .inl rfl
      · rename_i v hv
        cases reg with
        | none => cases h; exact .inr (.inr ⟨v, ⟨hc, by simpa using hf, hv, nofun⟩, rfl⟩)
        | some r =>
          cases hr : logRoom (s.core c.tile) (s.strand c.tile c.strand) r with
          | false => simp [hr] at h; exact .inr (.inl h.symm)
          | true =>
            simp [hr] at h
            exact .inr (.inr ⟨v, ⟨hc, by simpa using hf, hv, fun k hk => by cases hk; exact hr⟩, h.symm⟩)

/-- A plain move that issues. -/
theorem State.plainMove_moves {s : State} {c : Issuer} {sync : Bool} {src : Src} {reg : Option Nat} {v : Wide}
    (h : s.Moves c sync src reg v) (eff : Issuer → Wide → State → State) :
    s.plainMove sync src reg eff = .next ((eff c v s).advance c) := by
  unfold State.plainMove
  rw [h.issuer]
  cases reg with
  | none => simp [h.free, h.source]
  | some r => simp [h.free, h.source, h.room r rfl]

/-- Everything a control item can answer. -/
theorem State.control_cases {s s' : State} {sync : Bool} {ready : Issuer → State → Bool} {eff : Issuer → State → State}
    (h : s.control sync ready eff = .next s') :
    ∃ c, s.issuer = some c ∧ (s' = s.stall c ∨ s.Controls c sync ∧ ready c s = true ∧ s' = (eff c s).advance c) := by
  unfold State.control at h
  split at h
  · cases h
  · rename_i c hc
    refine ⟨c, hc, ?_⟩
    split at h
    · rename_i hr
      cases h
      have hr : s.slotFree c sync = true ∧ ready c s = true := by simpa using hr
      exact .inr ⟨⟨hc, hr.1⟩, hr.2, rfl⟩
    · cases h; exact .inl rfl

/-- A control item that issues. -/
theorem State.control_controls {s : State} {c : Issuer} {sync : Bool} {ready : Issuer → State → Bool} (h : s.Controls c sync)
    (hr : ready c s = true) (eff : Issuer → State → State) : s.control sync ready eff = .next ((eff c s).advance c) := by
  simp [State.control, h.issuer, h.free, hr]

/-! ### Stores of one access -/

theorem performParts_fst_wf {m : List Host.Cell} (t : Nat) (parts : List (Nat × List Byte)) (h : Memory.wf m) :
    Memory.wf (performParts m t parts).1 := by
  unfold performParts
  suffices ∀ acc : List Host.Cell × List (Nat × List Byte), Memory.wf acc.1 →
      Memory.wf (parts.foldl (fun acc p =>
        (memWrite acc.1 (tileBase t + p.1) p.2, (p.1, memRead acc.1 (tileBase t + p.1) p.2.length) :: acc.2)) acc).1 from this _ h
  induction parts with
  | nil => exact fun _ h => h
  | cons p r ih => exact fun acc h => ih _ (memWrite_wf _ _ h)

/-- A byte of a store keeps the canonical form: it is written to memory, or it slides beneath a later store. -/
theorem performByte_fst_wf {acc : List Host.Cell × List GStore × List (Nat × List Byte)} (t a : Nat) (b : Byte) (h : Memory.wf acc.1) :
    Memory.wf (performByte t acc a b).1 := by
  unfold performByte
  split
  · exact h
  · exact memWrite_wf _ _ h

theorem performUnder_fst_wf {m : List Host.Cell} (t : Nat) (later : List GStore) (parts : List (Nat × List Byte)) (h : Memory.wf m) :
    Memory.wf (performUnder m t later parts).1 := by
  unfold performUnder
  split
  · exact performParts_fst_wf t parts h
  · suffices ∀ acc : List Host.Cell × List GStore × List (Nat × List Byte), Memory.wf acc.1 →
        Memory.wf (parts.foldl (fun acc p => (p.2.zipIdx).foldl (fun acc q => performByte t acc (p.1 + q.2) q.1) acc) acc).1 from this _ h
    induction parts with
    | nil => exact fun _ h => h
    | cons p r ih =>
      refine fun acc h => ih _ ?_
      suffices ∀ (l : List (Byte × Nat)) (acc : List Host.Cell × List GStore × List (Nat × List Byte)), Memory.wf acc.1 →
          Memory.wf (l.foldl (fun acc q => performByte t acc (p.1 + q.2) q.1) acc).1 from this _ _ h
      intro l
      induction l with
      | nil => exact fun _ h => h
      | cons q _ ih => exact fun acc h => ih _ (performByte_fst_wf t _ _ h)

theorem performStore_fst_wf {m : List Host.Cell} (t : Nat) (stores : List GStore) (g : GStore) (h : Memory.wf m) :
    Memory.wf (performStore m t stores g).1 := performUnder_fst_wf t _ _ h

theorem State.storePieces_wf {s : State} (c : Issuer) (trig : Bool) (ps : List (Piece × List Byte)) (h : s.MemOk) :
    (s.storePieces c trig ps).MemOk := by
  unfold State.storePieces State.MemOk
  dsimp only
  split
  · simpa using performStore_fst_wf _ _ _ h
  · exact h

end Sys2Proof.Machine
end

