-- ==== Sys2Proof/Laws/Sched.lean ====
section
/-! SUPPORT. What the agenda holds after an event has been put in it: the event, and every event that it held before. -/

namespace Sys2Proof.Machine

theorem mem_insertEvent {l : List (Nat × Nat × Instr × Operand)} {d e : Nat × Nat × Instr × Operand} : d ∈ insertEvent l e ↔ d = e ∨ d ∈ l := by
  induction l with
  | nil => simp [insertEvent]
  | cons a r ih =>
    unfold insertEvent
    split
    · simp
    · simp only [List.mem_cons, ih]
      constructor
      · rintro (h | h | h) <;> simp [h]
      · rintro (h | h | h) <;> simp [h]

/-! ### The event itself -/

theorem State.due_atTick (s : State) (t r : Nat) (i : Instr) (o : Operand) : (s.atTick t r i o).Due t i o := ⟨r, mem_insertEvent.2 (.inl rfl)⟩

theorem State.due_once (s : State) (t r : Nat) (i : Instr) (o : Operand) : (s.once t r i o).Due t i o := by
  unfold State.once
  split
  case isTrue h => exact ⟨r, by simpa using h⟩
  · exact s.due_atTick t r i o

theorem State.due_after (s : State) (d : Nat) (i : Instr) (o : Operand) : (s.after d i o).Due (s.tick + d) i o := s.due_atTick _ _ i o

theorem State.dueAfter_after (s : State) {d : Nat} (h : 0 < d) (i : Instr) (o : Operand) : (s.after d i o).DueAfter s.tick i o :=
  ⟨s.tick + d, by omega, s.due_after d i o⟩

/-- R4: an event of a typical latency comes after this tick, whatever the latency. -/
theorem State.dueAfter_later (s : State) (w : Nat) (i : Instr) (o : Operand) : (s.later w i o).DueAfter s.tick i o :=
  ⟨s.tick + max 1 (Config.delay s.fresh w), by omega, s.due_after _ i o⟩

/-! ### The events that were there -/

/-- A state whose agenda holds all that another's does. -/
def State.KeepsAgenda (s s' : State) : Prop := ∀ e ∈ s.agenda, e ∈ s'.agenda

theorem State.KeepsAgenda.refl (s : State) : s.KeepsAgenda s := fun _ h => h

theorem State.KeepsAgenda.trans {s t u : State} (h : s.KeepsAgenda t) (k : t.KeepsAgenda u) : s.KeepsAgenda u := fun e m => k e (h e m)

theorem State.atTick_keeps (s : State) (t r : Nat) (i : Instr) (o : Operand) : s.KeepsAgenda (s.atTick t r i o) := fun _ h => mem_insertEvent.2 (.inr h)

theorem State.once_keeps (s : State) (t r : Nat) (i : Instr) (o : Operand) : s.KeepsAgenda (s.once t r i o) := by
  unfold State.once
  split
  · exact .refl s
  · exact s.atTick_keeps t r i o

theorem State.after_keeps (s : State) (d : Nat) (i : Instr) (o : Operand) : s.KeepsAgenda (s.after d i o) := s.atTick_keeps _ _ i o

theorem State.later_keeps (s : State) (w : Nat) (i : Instr) (o : Operand) : s.KeepsAgenda (s.later w i o) := s.atTick_keeps _ _ i o

/-- What each step of a fold keeps, the fold keeps. -/
theorem State.KeepsAgenda.fold {α : Type} {s : State} (f : State → α → State) (hf : ∀ (s : State) (x : α), s.KeepsAgenda (f s x)) (l : List α) : s.KeepsAgenda (l.foldl f s) := by
  induction l generalizing s with
  | nil => exact .refl s
  | cons x r ih => exact (hf s x).trans ih

theorem State.Due.mono {s s' : State} {t : Nat} {i : Instr} {o : Operand} (h : s.Due t i o) (k : s.KeepsAgenda s') : s'.Due t i o :=
  h.elim fun r m => ⟨r, k _ m⟩

theorem State.DueAfter.mono {s s' : State} {t : Nat} {i : Instr} {o : Operand} (h : s.DueAfter t i o) (k : s.KeepsAgenda s') : s'.DueAfter t i o :=
  h.elim fun d m => ⟨d, m.1, m.2.mono k⟩

end Sys2Proof.Machine
end

