-- ==== Sys2Proof/Tests/Slice0.lean ====
section
/-! SUPPORT. The model's own tests, and for every statement with hypotheses a state and operands that meet them. -/

namespace Sys2Proof.Tests

-- One theorem at a time: many kernel evaluations at once run a build of one text out of threads.
set_option Elab.async false

open Sys2Proof.Machine

/-! ### Small states -/

/-- Strand 0 of tile 0 about to issue a word in its slot, right after reset. -/
def ready (w : MoveWord) : State := (State.reset.withFetchWord 24 w.toNat).modCore 0 fun co => { co with slot := placeOf w }

/-- Its issuer. -/
def readyBy (k : Nat) : Issuer := ⟨0, 0, k, 0, 0⟩

/-- A trigger from the source `one`. -/
def one : Trig := ⟨false, .special .one, false⟩
def oneOpnds : Opnds := ⟨0, 0, 0, 1⟩

theorem issues {s : State} {c : Issuer} {u : Nat} {n : Need} {t : Trig} {o : Opnds}
    (h : s.issuer = some c ∧ s.triggerFree c n t.sync = true ∧ s.operands c u n.use0 n.use1 n.use2 t.src = some o ∧ s.roomFor c n t.w = true) :
    s.Issues c u n t o := ⟨h.1, h.2.1, h.2.2.1, h.2.2.2⟩

/-- A kernel's header for the tests: trap vector 5, boost class 1. -/
def testHeader : KHeader := ⟨8, 0, 1, 1, [], [4], 0, true, 5, false, true, false, 0, 1, 0, 0, 0, 1, false, 0⟩

/-- A trigger from m0. -/
def fromM0 : Trig := ⟨false, .m 0, false⟩

/-- A trigger from an immediate. -/
def immTrig (k : BitVec 9) : Trig := ⟨false, .imm k, false⟩
def immOpnds (k : BitVec 9) : Opnds := ⟨0, 0, 0, narrow64 (widen (k.signExtend 64))⟩

/-- Strand 0 of tile 0 about to issue an instruction. -/
def readyI (i : Instr) : State := ready ((encode i).getD nopWord)

theorem witness_IntegerResults :
    (ready 0x070A44).Issues (readyBy 0) 2 (needResult 2 true false) one oneOpnds ∧ (ready 0x070A59).Issues (readyBy 0) 2 (needResult 2 false false) one oneOpnds
      ∧ (ready 0x070A58).Issues (readyBy 0) 2 (needResult 2 true true) one oneOpnds ∧ (ready 0x070A64).Issues (readyBy 1) 3 (needResult 3 true false) one oneOpnds
      ∧ (ready 0x070A79).Issues (readyBy 1) 3 (needResult 3 false false) one oneOpnds ∧ (ready 0x070A78).Issues (readyBy 1) 3 (needResult 3 true true) one oneOpnds := by
  refine ⟨issues ?_, issues ?_,
   issues ?_, issues ?_,
   issues ?_, issues ?_⟩ <;> decide +kernel

theorem witness_MultiplierResults :
    (ready 0x070A84).Issues (readyBy 1) 4 (needResult 4 true false) one oneOpnds ∧ (ready 0x070A8C).Issues (readyBy 1) 4 (needResult 4 true true) one oneOpnds :=
  ⟨issues (by decide +kernel), issues (by decide +kernel)⟩

/-- A division of the most negative number by -1, and one by 0. -/
def divReady (x : MoveWord) : State := (ready x).modCore 0 fun co => { co with ports := [(codePort 4 0, 0x8000000000000000)] }
theorem witness_DivisionCorners :
    (divReady 0x1FFA88).Issues (readyBy 1) 4 (needResult 4 true false) ⟨false, .imm 0x7FF, false⟩ ⟨0x8000000000000000, 0, 0, 0xFFFFFFFFFFFFFFFF⟩
      ∧ (divReady 0x100288).Issues (readyBy 1) 4 (needResult 4 true false) ⟨false, .imm 0, false⟩ ⟨0x8000000000000000, 0, 0, 0⟩
      ∧ (ready 0x070A8C).Issues (readyBy 1) 4 (needResult 4 true true) one oneOpnds :=
  ⟨issues (by decide +kernel), issues (by decide +kernel),
   issues (by decide +kernel)⟩

theorem witness_VectorArithmeticResults :
    (ready 0x070B44).Issues (readyBy 5) 10 (needResult 10 true false) one oneOpnds ∧ (ready 0x070B47).Issues (readyBy 5) 10 (needResult 10 true true) one oneOpnds
      ∧ (ready 0x070B4A).Issues (readyBy 5) 10 (needResult 10 false false) one oneOpnds :=
  ⟨issues (by decide +kernel), issues (by decide +kernel),
   issues (by decide +kernel)⟩

theorem witness_VectorCompareAndLaneResults :
    (ready 0x070B64).Issues (readyBy 5) 11 (needResult 11 true false) one oneOpnds ∧ (ready 0x070B75).Issues (readyBy 5) 11 (needResult 11 true true) one oneOpnds
      ∧ (ready 0x070B74).Issues (readyBy 5) 11 (needResult 11 false false) one oneOpnds ∧ (ready 0x070B8B).Issues (readyBy 6) 12 (needResult 12 true false) one oneOpnds := by
  refine ⟨issues ?_, issues ?_,
   issues ?_, issues ?_⟩ <;> decide +kernel

/-- A narrowing conversion with `vrc` in mode SR16. -/
def convertReady : State := (ready 0x070B6B).modStrand 0 0 fun x => { x with regs := [(codeVrc, 0x100000002)] }
theorem witness_VectorConversionResults :
    (ready 0x070B69).Issues (readyBy 5) 11 (needResult 11 false false) one oneOpnds ∧ convertReady.Issues (readyBy 5) 11 (needResult 11 false false) one oneOpnds
      ∧ regReady (convertReady.core 0) 0 (convertReady.strand 0 0) codeVrc 0 0 = true ∧ vrcMode (low64 ((convertReady.strand 0 0).regAt codeVrc 0)) = .sr16
      ∧ logRoom (convertReady.core 0) (convertReady.strand 0 0) codeVrc = true := by
  refine ⟨issues ?_, issues ?_,
   ?_, ?_, ?_⟩ <;> decide +kernel

theorem witness_SpecialFunctionResults :
    (ready 0x070B84).Issues (readyBy 6) 12 (needResult 12 false false) one oneOpnds ∧ ((ready 0x070B84).core 0).poolTill ≤ 0
      ∧ ((ready 0x070B84).modCore 0 fun co => { co with poolTill := 3 }).Issues (readyBy 6) 12 (needResult 12 false false) one oneOpnds
      ∧ (ready 0x070B8E).Issues (readyBy 6) 12 (needResult 12 true false) one oneOpnds := by
  refine ⟨issues ?_, ?_,
   issues ?_, issues ?_⟩ <;> decide +kernel

theorem witness_TransposerResults :
    (ready 0x070BA4).Issues (readyBy 6) 13 {} one oneOpnds ∧ (ready 0x101BA4).Issues (readyBy 6) 13 {} ⟨false, .imm 3, false⟩ ⟨0, 0, 0, 3⟩
      ∧ (ready 0x070BA5).Issues (readyBy 6) 13 { use0 := true } one oneOpnds ∧ (ready 0x070BA6).Issues (readyBy 6) 13 (needResult 13 false false) one oneOpnds
      ∧ (((ready 0x070BA6).core 0).trn.atStep 0).es = 32 ∧ (((ready 0x070BA6).core 0).trn.atStep 0).n = 32 := by
  refine ⟨issues ?_, issues ?_,
   issues ?_, issues ?_,
   ?_, ?_⟩ <;> decide +kernel

/-- A strand with extent 1 of 0x100 bytes, its first 0x80 pinned, and a trigger of ADR with offset v. -/
def adrReady (w : MoveWord) (v : Wide) : State :=
  ((ready w).modStrand 0 0 fun x => { x with
    extents := (List.replicate 8 ⟨0, 0, 0, 0⟩).set 1 ⟨0x10000, 0x100, 3, 0x80⟩
    extSlots := (List.replicate 8 ⟨0, 0, 0, 0, false⟩).set 0 ⟨1, 0, 0x80, 0x4000, false⟩ }).modCore 0 fun co => { co with ports := [(codePort 5 0, v)] }
theorem witness_AddressResults :
    (adrReady 0x070AA4 0x100).Issues (readyBy 2) 5 (needResult 5 true false) one ⟨0x100, 0, 0, 1⟩
      ∧ (adrReady 0x070AA4 0x7F).Issues (readyBy 2) 5 (needResult 5 true false) one ⟨0x7F, 0, 0, 1⟩
      ∧ ((adrReady 0x070AA4 0x7F).strand 0 0).slotFor 1 0x7F = some 0
      ∧ (adrReady 0x070AA4 0x80).Issues (readyBy 2) 5 (needResult 5 true false) one ⟨0x80, 0, 0, 1⟩
      ∧ (adrReady 0x070AA6 0).Issues (readyBy 2) 5 (needResult 5 false false) one ⟨0, 0, 0, 1⟩
      ∧ (adrReady 0x070AA7 2).Issues (readyBy 2) 5 (needResult 5 true true) one ⟨2, 0, 0, 1⟩
      ∧ (adrReady 0x070AA8 0).Issues (readyBy 2) 5 (needResult 5 true false) one ⟨0, 0, 0, 1⟩ := by
  refine ⟨issues ?_, issues ?_, ?_,
   issues ?_, issues ?_,
   issues ?_, issues ?_⟩ <;> decide +kernel

theorem witness_ScratchpadLoadResults :
    (ready 0x070AC4).Issues (readyBy 3) 6 (loadNeed false false) one oneOpnds
      ∧ (ready 0x070ACC).Issues (readyBy 3) 6 (loadNeed false true) one oneOpnds ∧ ((ready 0x070ACC).bankWait (readyBy 3) false (stridePieces 1 0)) = none
      ∧ (ready 0x070ACD).Issues (readyBy 3) 6 (loadNeed true false) one oneOpnds ∧ ((ready 0x070ACD).bankWait (readyBy 3) false (lanePieces 1 0)) = none
      ∧ ((ready 0x070ACC).bankWait (readyBy 3) false (stridePieces 1 128)).isSome = true := by
  refine ⟨issues ?_, issues ?_, ?_,
   issues ?_, ?_, ?_⟩ <;> decide +kernel

theorem witness_ScratchpadStoreEffects :
    (ready 0x070ACE).Issues (readyBy 3) 6 (storeNeed false false) one oneOpnds ∧ (ready 0x070AD3).Issues (readyBy 3) 6 (storeNeed false true) one oneOpnds
      ∧ (ready 0x070AD4).Issues (readyBy 3) 6 (storeNeed false true) one oneOpnds ∧ ((ready 0x070AD4).bankWait (readyBy 3) true (stridePieces 1 0)) = none
      ∧ (ready 0x070AD5).Issues (readyBy 3) 6 (storeNeed true false) one oneOpnds ∧ ((ready 0x070AD5).bankWait (readyBy 3) true (lanePieces 1 0)) = none
      ∧ ((ready 0x070AD4).bankWait (readyBy 3) true (stridePieces 1 128)).isSome = true
      ∧ ((ready 0x070ACE).modStrand 0 0 fun x => { x with depth := 1 }).Issues (readyBy 3) 6 (storeNeed false false) one oneOpnds := by
  refine ⟨issues ?_, issues ?_,
   issues ?_, ?_, issues ?_,
   ?_, ?_, issues ?_⟩ <;> decide +kernel

theorem moves {s : State} {c : Issuer} {sync : Bool} {src : Src} {reg : Option Nat} {v : Wide}
    (h : s.issuer = some c ∧ s.slotFree c sync = true ∧ s.srcValue c src = some v ∧
      (match reg with | some r => logRoom (s.core c.tile) (s.strand c.tile c.strand) r | none => true) = true) : s.Moves c sync src reg v :=
  ⟨h.1, h.2.1, h.2.2.1, fun r hr => by subst hr; exact h.2.2.2⟩
theorem controls {s : State} {c : Issuer} {sync : Bool} (h : s.issuer = some c ∧ s.slotFree c sync = true) : s.Controls c sync := ⟨h.1, h.2⟩
theorem witness_MoveWrites_controls :
    (ready 0x800000).Controls (readyBy 0) true ∧ (ready 0x800000).Controls (readyBy 0) false
      ∧ ((ready 0x800000).modCore 0 fun co => { co with busySlot := [(0, 4, 0)] }).slotFree (readyBy 0) false = false
      ∧ ((ready 0x800000).modCore 0 fun co => { co with busySlot := [(0, 4, 0)] }).issuer = some (readyBy 0) := by
  refine ⟨controls ?_, controls ?_, ?_, ?_⟩ <;> decide +kernel
theorem witness_MoveWrites :
    (∀ d ∈ [Dst.m 0, .m 127, .s 0, .s 15, .v 0, .v 31], (ready 0x070801).Moves (readyBy 0) false (.special .one) (some (dstCode d)) 1)
      ∧ (∀ b, (ready 0x070801).Moves (readyBy 0) false (.special .one) (some (codeLc b)) 1)
      ∧ (ready 0x070801).Moves (readyBy 0) false (.special .one) (some codeLk) 1 ∧ (ready 0x070801).Moves (readyBy 0) false (.special .one) (some codeKsel) 1
      ∧ (ready 0x070801).Moves (readyBy 0) false (.special .one) (some codeVrc) 1 ∧ (ready 0x070801).Moves (readyBy 0) false (.special .one) none 1 := by
  refine ⟨fun d hd => ?_, fun b => moves (by revert b; decide +kernel), moves ?_, moves ?_, moves ?_, moves ?_⟩
  · exact moves (by revert d; decide +kernel)
  all_goals decide +kernel

theorem witness_RegisterReadSeesLatestWrite :
    ∀ u ∈ [(⟨3, 1, 0, 1, 0, 5⟩ : Ver), ⟨3, 2, 1, 8, 0, 6⟩, ⟨3, 2, 0, 9, 0, 6⟩], u.reg = 3 → u.vis < 2 ∨ (u.vis = 2 ∧ (u.seq < 1 ∨ (u.seq = 1 ∧ u.slot ≤ 7 + 1))) := by decide

theorem witness_TransferEffects :
    (ready 0x070A04).Issues (readyBy 0) 0 {} one oneOpnds ∧ logRoom ((ready 0x070A04).core 0) ((ready 0x070A04).strand 0 0) codeLk = true
      ∧ regReady ((ready 0x070A04).core 0) 0 ((ready 0x070A04).strand 0 0) codeLk 0 0 = true
      ∧ (ready 0x070A05).Issues (readyBy 0) 0 { use0 := true } one oneOpnds
      ∧ ((ready 0x070A05).modCore 0 fun co => { co with ports := [(codePort 0 0, 0x8000000000000000)] }).Issues (readyBy 0) 0 { use0 := true } one ⟨0x8000000000000000, 0, 0, 1⟩ := by
  refine ⟨issues ?_, ?_, ?_, issues ?_, issues ?_⟩ <;> decide +kernel

theorem witness_LoopSetUpEffects :
    (ready 0x10020C).Issues (readyBy 0) 0 { use0 := true } ⟨false, .imm 0, false⟩ ⟨0, 0, 0, 0⟩
      ∧ (ready 0x070A0C).Issues (readyBy 0) 0 { use0 := true } one oneOpnds ∧ (ready 0x070A0D).Issues (readyBy 0) 0 { use0 := true } one oneOpnds
      ∧ ((ready 0x070A0C).modCore 0 fun co => { co with ports := [(codePort 0 0, 3)] }).Issues (readyBy 0) 0 { use0 := true } one ⟨3, 0, 0, 1⟩
      ∧ (∀ b, logRoom ((ready 0x070A0C).core 0) ((ready 0x070A0C).strand 0 0) (codeLc b) = true) := by
  refine ⟨issues ?_, issues ?_, issues ?_, issues ?_, ?_⟩ <;> decide +kernel

def loopReady (v : MoveWord) : State := (ready v).modStrand 0 0 fun x => { x with stream := { x.stream with loop0 := ⟨true, 1, 3, 1⟩ } }
theorem witness_LoopExitEffects :
    encode (.lexit ⟨false, .imm 1, false⟩) = some 0x100A0E
      ∧ (loopReady 0x10020E).Issues (readyBy 0) 0 {} ⟨false, .imm 0, false⟩ ⟨0, 0, 0, 0⟩ ∧ ((loopReady 0x10020E).strand 0 0).stream.loop0.active = true
      ∧ (loopReady 0x100A0E).Issues (readyBy 0) 0 {} ⟨false, .imm 1, false⟩ ⟨0, 0, 0, 1⟩ ∧ ((loopReady 0x100A0E).strand 0 0).stream.loop1.active = false
      ∧ (loopReady 0x10120E).Issues (readyBy 0) 0 {} ⟨false, .imm 2, false⟩ ⟨0, 0, 0, 2⟩ := by
  refine ⟨?_, issues ?_, ?_, issues ?_, ?_, issues ?_⟩ <;> decide +kernel

theorem witness_WaitAndTrapTriggerEffects :
    (ready 0x070A0F).Issues (readyBy 0) 0 {} one oneOpnds ∧ (ready 0x810000).Controls (readyBy 0) false :=
  ⟨issues (by decide +kernel), controls (by decide +kernel)⟩

theorem witness_RunEndingEffects :
    (ready 0x830000).Controls (readyBy 0) false ∧ ((ready 0x830000).strand 0 0).capVisit = none
      ∧ landsOutstanding ((ready 0x830000).core 0) 0 ((ready 0x830000).strand 0 0) = false ∧ ((ready 0x830000).core 0).pipe = []
      ∧ openOutstanding ((ready 0x830000).core 0) 0 ((ready 0x830000).strand 0 0) = false ∧ (ready 0x830000).commandsOut 0 0 = false
      ∧ (∀ j ≤ 3, regReady ((ready 0x830000).core 0) 0 ((ready 0x830000).strand 0 0) (0x080 + j) 0 0 = true)
      ∧ regReady ((ready 0x830000).core 0) 0 ((ready 0x830000).strand 0 0) 0x08F 0 0 = true
      ∧ ((ready 0x830000).modCore 0 fun co => { co with pipe := [⟨2, 0, false, 4, 0, 0, 4, 0, 0⟩] }).Controls (readyBy 0) false
      ∧ ((ready 0x830000).modStrand 0 0 fun x => { x with capVisit := some 0 }).Controls (readyBy 0) false := by
  refine ⟨controls ?_, ?_, ?_, ?_, ?_, ?_, ?_,
   ?_, controls ?_, controls ?_⟩ <;> decide +kernel

theorem witness_SystemRegisterOperations :
    (∀ k ∈ ([0, 1, 2, 3, 4, 5, 9, 0x10, 0x20, 0x27, 0x1FF, 15, 16, 31, 32] : List (BitVec 9)),
      (readyI (.rdsr (immTrig k))).Issues (readyBy 0) 1 { result := some 1 } (immTrig k) (immOpnds k)) ∧
    (∀ k ∈ ([3, 4, 9, 15, 16, 31, 32] : List (BitVec 9)),
      ((readyI (.wrsr (immTrig k))).modCore 0 fun co => { co with ports := [(codePort 1 0, 15)] }).Issues (readyBy 0) 1 { use0 := true, commit := true } (immTrig k) { immOpnds k with o0 := 15 }) ∧
    (∃ e, ((readyI (.rdsr one)).tile 0).counters[3]? = some e) ∧ (∃ e, ((readyI (.rdsr one)).dieCounters (dieOf 0))[15]? = some e) :=
  ⟨fun k hk => issues (by revert k; decide +kernel), fun k hk => issues (by revert k; decide +kernel), ⟨_, rfl⟩, ⟨_, rfl⟩⟩

theorem witness_SystemUnitEffects :
    (∀ k ∈ ([1, 2, 3, 15, 4, 16] : List (BitVec 9)), (readyI (.fence (immTrig k))).Issues (readyBy 0) 1 {} (immTrig k) (immOpnds k))
      ∧ (∀ k ∈ ([0, 128] : List (BitVec 9)), (readyI (.fmtb (immTrig k))).Issues (readyBy 0) 1 { commit := true } (immTrig k) (immOpnds k))
      ∧ ((readyI (.fmtb one)).tile 0).boostClass = 0
      ∧ ((((readyI (.bclaim one)).modTile 0 fun y => { y with kernel := some (0, testHeader) }).modCluster 0 fun k => { k with balance := 5 }).Issues (readyBy 0) 1 { commit := true } (immTrig 0) ⟨0, 0, 0, 0⟩)
      ∧ (((readyI (.bclaim one)).modTile 0 fun y => { y with kernel := some (0, testHeader) }).tile 0).boostClass ≠ 0
      ∧ (((readyI (.bclaim one)).modCluster 0 fun k => { k with balance := 5 }).cluster (clusterOf 0)).balance ≠ 0
      ∧ ((readyI (.bclaim one)).cluster (clusterOf 0)).forced = false ∧ ((readyI (.bclaim one)).strand 0 0).claims = false
      ∧ (∀ k ∈ ([0, 1, 0x0F0] : List (BitVec 9)), (readyI (.sclr (immTrig k))).Issues (readyBy 0) 1 { use0 := true, commit := true, access := true } (immTrig k) (immOpnds k))
      ∧ ((readyI (.sclr one)).modCore 0 fun co => { co with ports := [(codePort 1 0, 17)] }).Issues (readyBy 0) 1 { use0 := true, commit := true, access := true } one ⟨17, 0, 0, 1⟩
      ∧ (∀ q ∈ ([(0, .null), (0x4000000000000000, .pinned), (0x4008000000000000, .bad), (0x8000000000000000, .bad), (0xC000000000001000, .opened)] : List (W64 × HandleClass)), handleClass q.1 = q.2 ∧
        ((readyI (.openx ⟨false, .m 0, false⟩)).modStrand 0 0 fun x => { x with regs := [(0, widen q.1)] }).Issues (readyBy 2) 5 { use0 := true, result := some 5 } ⟨false, .m 0, false⟩ ⟨0, 0, 0, widen q.1⟩) :=
  ⟨fun k hk => issues (by revert k; decide +kernel), fun k hk => issues (by revert k; decide +kernel), by decide +kernel, issues (by decide +kernel),
    by decide +kernel, by decide +kernel, by decide +kernel, by decide +kernel, fun k hk => issues (by revert k; decide +kernel), issues (by decide +kernel),
    fun q hq => ⟨by revert q; decide +kernel, issues (by revert q; decide +kernel)⟩⟩
/-- A fence over a gated store with an open request under way or none, a cluster without balance, a claimed strand, and the translations of openx. -/
theorem witness_SystemUnitEffects_clauses :
    (∀ b : Bool, let s := ((readyI (.fence (immTrig 2))).modStrand 0 0 fun x => { x with stores := [⟨0, 6, 0, [(0, [1])], true, false, []⟩] }).modCore 0 fun co => { co with lands := if b then [{ lid := 3, strand := 0, reg := 2, due := 9, vis := 2, seq := 0, slot := 3, trig := 0, level := 0, data := none, parts := 1, half := 0, fills := false, late := false, lateAt := 0, isOpen := true, va := 0, key := none, frozen := none }] else [] };
      s.Issues (readyBy 0) 1 {} (immTrig 2) (immOpnds 2) ∧ ((s.strand 0 0).stores.any fun g => !g.done && decide (g.level = 0)) = true ∧ openOutstanding (s.core 0) 0 (s.strand 0 0) = b) ∧
    (let s := (readyI (.bclaim (immTrig 0))).modStrand 0 0 fun x => { x with claims := true }; s.Issues (readyBy 0) 1 { commit := true } (immTrig 0) (immOpnds 0) ∧ (s.strand 0 0).claims = true) ∧
    (let s := (readyI (.bclaim (immTrig 0))).modCluster 0 fun k => { k with balance := 0 }; s.Issues (readyBy 0) 1 { commit := true } (immTrig 0) (immOpnds 0) ∧ (s.cluster 0).balance = 0) ∧
    (let s := ((readyI (.sclr fromM0)).modStrand 0 0 fun x => { x with regs := [(0, widen (BitVec.allOnes 64))] }).modCore 0 fun co => { co with ports := [(codePort 1 0, 48)] };
      s.Issues (readyBy 0) 1 { use0 := true, commit := true, access := true } fromM0 ⟨48, 0, 0, widen (BitVec.allOnes 64)⟩) ∧
    (let a := 0xC000000000001000; let s := (readyI (.openx fromM0)).modStrand 0 0 fun x => { x with regs := [(0, widen a)] };
      (∀ q ∈ [(1, some 0x1000), (0, some 0x1000), (0, some 0x20000), (0, none)], let s := { (s.modStrand 0 0 fun x => { x with noLeaf := q.2 }) with tlb := if q.1 = 1 then [⟨0, 0, 0, 2 ^ 16, 0x1000, 7⟩] else [] };
        s.Issues (readyBy 2) 5 { use0 := true, result := some 5 } fromM0 ⟨0, 0, 0, widen a⟩ ∧ (s.tlbFind 0 (s.strand 0 0).ctx 0x1000).isSome = decide (q.1 = 1) ∧ (s.strand 0 0).noLeaf = q.2)) := by
  refine ⟨fun b => ⟨issues ?_, ?_, ?_⟩, ⟨issues ?_, ?_⟩, ⟨issues ?_, ?_⟩, issues ?_, fun q hq => ⟨issues ?_, ?_, ?_⟩⟩
  any_goals decide +kernel
  all_goals first | (revert b; decide +kernel) | (revert q; decide +kernel)

/-- A result on its way, due at once. -/
def testFlight (w : Bool) : InFlight := ⟨4, 7, w, 0, 0, 0, 2, 0, 0⟩
/-- A landing entry due at once. -/
def testLand (data : Option Wide) : Land :=
  { lid := 3, strand := 0, reg := 2, due := 0, vis := 2, seq := 0, slot := 3, trig := 0, level := 0, data := data, parts := 1, half := 0
    fills := false, late := false, lateAt := 0, isOpen := false, va := 0, key := none, frozen := none }
def withEv (o : Operand) (s : State) : State := { s with ev := o }
theorem witness_CoreStepEventEffects :
    (∀ w, ((ready 0x070A44).core 0).issuing = some 0 ∧ dueFlight { (ready 0x070A44).core 0 with pipe := [testFlight w] } = some (testFlight w)) ∧
    ((ready 0x070A44).modCore 0 fun co => { co with lands := [testLand (some 5)] }).landNow 0 = some (testLand (some 5)) ∧
    ((ready 0x070A44).modCore 0 fun co => { co with lands := [testLand none] }).landNow 0 = none ∧
    ((ready 0x070A44).modCore 0 fun co => { co with lands := [testLand none] }).landLate 0 = some (testLand none) ∧
    (let s := (withEv (opTileId 0 3) { ready 0x070A44 with tick := 5000 }).modCore 0 fun co => { co with lands := [testLand none], frozenAt := some 1 };
      s.landExpired 0 = some (testLand none) ∧ (testLand none).lid = s.ev.id ∧ (s.core 0).lands.find? (fun b => decide (b.lid = (testLand none).lid)) = some (testLand none)) ∧
    (let s := ({ ready 0x070A44 with tick := 50 }).modStrand 0 0 fun x => { x with alarm := 40, st := .sleeping, wake := .tick 50 };
      s.alarmDue 0 0 = true ∧ s.sleepDue 0 0 = true ∧ (s.strand 0 0).depth = 0) ∧
    (let s := ((ready 0x070A44).modStrand 0 0 fun x => { x with st := .yielded }).modCore 0 fun co => { co with issuing := none };
      (s.core 0).issuing = none ∧ (s.tile 0).readyStrand = some 0) ∧
    (let s := (ready 0x070A44).modCore 0 fun co => { co with fullLog := true };
      (s.core 0).issued = [] ∧ (s.core 0).fullLog = true ∧ openOutstanding (s.core 0) 0 (s.strand 0 0) = false) := by
  refine ⟨?_, ?_, ?_, ?_, ?_, ?_, ?_, ?_⟩ <;> decide +kernel

theorem witness_BundleFetchEffects :
    (let s := (ready 0x070A44).modStrand 0 0 fun x => { x with stream := { x.stream with slotSeq := List.replicate 8 1 } };
     let y := s.tile 0;
     y.core.issuing = some 0 ∧ (y.strand 0).stream.wants = true ∧ Strand.fetchWait y.core (y.strand 0) = .ready ∧
      y.core.parity.find? (fun p => ((y.strand 0).settle 0 0 y.core.stepc).stream.fetchIdx.contains p && decide (p < y.nbun)) = none ∧
      [1].find? (fun p => ((y.strand 0).settle 0 0 y.core.stepc).stream.fetchIdx.contains p && decide (p < 2)) = some 1) ∧
    (let s := (ready 0x070A44).modTile 0 fun y => { y with kernel := some (0, testHeader), core := { y.core with reload := some 0 } };
     (s.tile 0).stopped = false ∧ (s.core 0).reload = some 0 ∧ 0 = s.ev.id ∧ (s.tile 0).kernel = some (0, testHeader) ∧ (s.core 0).issuing = some 0) := by
  decide +kernel

theorem witness_TrapEntryEffects :
    (let s := ((ready 0x070A44).modTile 0 fun y => { y with kernel := some (0, testHeader) }).modStrand 0 0 fun x => { x with causes := [⟨2, 0, 0, 3⟩, ⟨6, 9, 0, 0⟩] };
     s.MemOk ∧ (s.core 0).issuing = some 0 ∧ (s.strand 0 0).nextCause = some (⟨2, 0, 0, 3⟩, [⟨6, 9, 0, 0⟩]) ∧ (s.tile 0).trapVector = some 5 ∧ (s.strand 0 0).depth < 4 ∧ pendMask [⟨6, 9, 0, 0⟩] < 2 ^ 32) ∧
    (let s := (ready 0x070A44).modStrand 0 0 fun x => { x with causes := [⟨8, 0, 0, 3⟩] };
     s.MemOk ∧ (s.core 0).issuing = some 0 ∧ (s.strand 0 0).nextCause = some (⟨8, 0, 0, 3⟩, []) ∧ (s.tile 0).trapVector = none) := by
  decide +kernel

theorem witness_ReturnFromTrapEffects :
    (readyI (.rft one)).Issues (readyBy 0) 1 {} one oneOpnds ∧ ((readyI (.rft one)).strand 0 0).depth = 0 ∧
    (let s := (readyI (.rft one)).modStrand 0 0 fun x => { x with depth := 1, asides := [⟨[], x.stream, [], [], [], 0, 0, [], [], none, 0, List.replicate 9 0⟩] };
     s.Issues (readyBy 0) 1 {} one oneOpnds ∧ frameBad (memRead s.mem (tileBase 0 + 0x70000 + 0 * 0x1000) 4096) = false ∧ frameSig (memRead s.mem (tileBase 0 + 0x70000) 4096) = List.replicate 9 0
      ∧ ((frameField (memRead s.mem (tileBase 0 + 0x70000) 4096) 0 8 / 2 ^ 32).testBit 8) = false) ∧
    (∀ m ∈ [(0 : Byte), 0x80], let s := { (readyI (.rft one)).modStrand 0 0 fun x => { x with depth := 1, asides := [⟨[], x.stream, [], [], [], 0, 0, [], [], none, 0, List.replicate 9 0⟩] } with mem := memWrite (readyI (.rft one)).mem (tileBase 0 + 0x70005) [1] };
     let s := { s with mem := memWrite s.mem (tileBase 0 + 0x7005B) [m] };
     s.Issues (readyBy 0) 1 {} one oneOpnds ∧ frameBad (memRead s.mem (tileBase 0 + 0x70000) 4096) = false ∧ ((frameField (memRead s.mem (tileBase 0 + 0x70000) 4096) 0 8 / 2 ^ 32).testBit 8) = true ∧
      ((frameField (memRead s.mem (tileBase 0 + 0x70000) 4096) 0x058 8).testBit 31) = decide (m = 0x80)) ∧
    (let s := { ready 0x070A27 with mem := [⟨tileBase 0 + 0x70050, 63⟩] };
     frameBad (memRead s.mem (tileBase 0 + 0x70000 + 0 * 0x1000) 4096) = true) := by
  refine ⟨issues ?_, ?_, ⟨issues ?_, ?_⟩, fun m hm => ⟨issues ?_, ?_⟩, ?_⟩ <;> first | decide +kernel | (revert m; decide +kernel)

/-- A state about to issue with m0 and the first three operand ports of unit u; slot 0 maps 1 MiB from the first unreserved block of die 0's
synchronisation window, and the first page of context 0 is in the TLB for reading and writing. -/
def asking (i : Instr) (u m0 a b d : Nat) : State :=
  let s := ((readyI i).modStrand 0 0 fun x => { x with regs := [(0, BitVec.ofNat 1024 m0)], extSlots := [⟨0, 0, 2 ^ 20, 0x0200_0010_0000, false⟩], extents := [⟨0, 2 ^ 20, 3, 0⟩] }).modCore 0
    fun co => { co with ports := [(codePort u 0, BitVec.ofNat 1024 a), (codePort u 1, BitVec.ofNat 1024 b), (codePort u 2, BitVec.ofNat 1024 d)] }
  { s with tlb := [⟨0, 0, 0, 2 ^ 16, 0x1000, 7⟩] }
def found {α β : Type} : Except α β → Option β | .ok x => some x | .error _ => none
def pin0 : Nat := 2 ^ 62 + 0x0200_0010_0000
def open0 : Nat := 3 * 2 ^ 62 + 0x100
/-- The landing specification of register 0 one step on. -/
def land1 : Nat := 0x10
theorem witness_RemoteAccessRequests :
    (let n := requestNeed true false false false true;
     (∀ q ∈ [(0, 0, Target.null), (0, land1, .null), (0, 0x30010, .null), (pin0, land1, .pinned 0x0200_0010_0000 false), (open0, land1, .opened 0x100), (pin0 - 1024, land1, .violation)],
      (∃ o, ((asking (.ldx fromM0) 6 q.1 q.2.1 0 0).Issues (readyBy 3) 6 n fromM0 o) ∧ low64 o.t = BitVec.ofNat 64 q.1 ∧ low64 o.o0 = BitVec.ofNat 64 q.2.1) ∧
      ((asking (.ldx fromM0) 6 q.1 q.2.1 0 0).strand 0 0).target (BitVec.ofNat 64 q.1) 3 8 .read = q.2.2 ∧
      ((asking (.ldx fromM0) 6 q.1 q.2.1 0 0).strand 0 0).target (BitVec.ofNat 64 q.1) 7 128 .read = q.2.2)) ∧
    (let n := { requestNeed true false true true false with later := true };
     (∀ q ∈ [(0, 0), (0, land1), (0, 0x30010), (pin0, land1), (open0, land1), (pin0 - 1024, land1)],
      (∃ o, ((asking (.stx fromM0) 6 q.1 9 0 q.2).Issues (readyBy 3) 6 n fromM0 o) ∧ low64 o.t = BitVec.ofNat 64 q.1 ∧ low64 o.o2 = BitVec.ofNat 64 q.2)) ∧
      found ((asking (.stx fromM0) 6 open0 9 0 land1).slotLeaves (readyBy 3) (.opened 0x100) 8 .write) = some [⟨0, 0, 0, 2 ^ 16, 0x1000, 7⟩] ∧
      gbarStore ((asking (.stx fromM0) 6 open0 9 0 land1).strand 0 0) (BitVec.ofNat 64 open0) 3 8 = false ∧
      (let s := (asking (.stx fromM0) 6 (pin0 + 16) 9 0 land1).modStrand 0 0 fun x => { x with gbar := BitVec.ofNat 64 pin0 };
       s.Issues (readyBy 3) 6 n fromM0 ⟨9, 0, BitVec.ofNat 1024 land1, BitVec.ofNat 1024 (pin0 + 16)⟩ ∧ gbarStore (s.strand 0 0) (BitVec.ofNat 64 (pin0 + 16)) 3 8 = true)) ∧
    landSpec 0 = none ∧ landSpec (BitVec.ofNat 64 land1) = some ⟨0, 0, 1, 0⟩ ∧ landSpec 0x30010 = some ⟨3, 0, 1, 0⟩ ∧
    landRoom ((asking (.ldx fromM0) 6 0 0 0 0).core 0) = true ∧ (asking (.ldx fromM0) 6 0 0 0 0).releaseReady (readyBy 3) false = true := by
  refine ⟨fun q hq => ⟨⟨⟨BitVec.ofNat 1024 q.2.1, 0, 0, BitVec.ofNat 1024 q.1⟩, issues ?_, ?_, ?_⟩, ?_, ?_⟩,
    ⟨fun q hq => ⟨⟨9, 0, BitVec.ofNat 1024 q.2, BitVec.ofNat 1024 q.1⟩, issues ?_, ?_, ?_⟩, by decide +kernel, by decide +kernel, issues ?_, by decide +kernel⟩, by decide +kernel⟩ <;>
  first | decide +kernel | (revert q; decide +kernel)

def isStop (r : SynTarget) : Bool := match r with | .stop _ => true | _ => false
def isNull (r : SynTarget) : Bool := match r with | .null => true | _ => false
def isAt (r : SynTarget) (tg : Target) (pa : Nat) (b : Bool) : Bool := match r with | .at_ a q d => decide (a = tg) && decide (q = pa) && (d == b) | _ => false
theorem isNull_of {r : SynTarget} (h : isNull r = true) : r = .null := by cases r <;> simp_all [isNull]
theorem isAt_of {r : SynTarget} {tg : Target} {pa : Nat} {b : Bool} (h : isAt r tg pa b = true) : r = .at_ tg pa b := by cases r <;> simp_all [isAt]
theorem isStop_of {r : SynTarget} (h : isStop r = true) : ∃ s, r = .stop s := by cases r <;> simp_all [isStop]
theorem witness_SynAccessRequests :
    (∀ q ∈ [(0, 0), (0, land1), (0, 0x30010), (pin0, land1), (open0, land1), (pin0 - 1024, land1)],
      ((asking (.aadd fromM0) 8 9 q.1 0 q.2).Issues (readyBy 4) 8 (requestNeed true false true true false) fromM0 ⟨BitVec.ofNat 1024 q.1, 0, BitVec.ofNat 1024 q.2, 9⟩) ∧
      ((asking (.acas fromM0) 8 9 q.1 0 q.2).Issues (readyBy 4) 8 (requestNeed true true true true false) fromM0 ⟨BitVec.ofNat 1024 q.1, 0, BitVec.ofNat 1024 q.2, 9⟩) ∧
      ((asking (.frd fromM0) 8 q.1 0 0 q.2).Issues (readyBy 4) 8 (requestNeed false false true true false) fromM0 ⟨0, 0, BitVec.ofNat 1024 q.2, BitVec.ofNat 1024 q.1⟩)) ∧
    (∀ q ∈ [(0, 0), (pin0, 0xFFFF), (pin0, 0), (open0, 0), (pin0 - 1024, 0)],
      ((asking (.red fromM0) 8 9 q.1 q.2 0).Issues (readyBy 4) 8 (requestNeed true true false true false) fromM0 ⟨BitVec.ofNat 1024 q.1, BitVec.ofNat 1024 q.2, 0, 9⟩)) ∧
    (∀ q ∈ [(3, 8), (4, 16), (4, 128)],
      (asking (.aadd fromM0) 8 9 0 0 0).synTarget (readyBy 4) 0 q.1 q.2 synHome = .null ∧
      (asking (.aadd fromM0) 8 9 0 0 0).synTarget (readyBy 4) (BitVec.ofNat 64 pin0) q.1 q.2 synHome = .at_ (.pinned 0x0200_0010_0000 false) 0x0200_0010_0000 false ∧
      (asking (.aadd fromM0) 8 9 0 0 0).synTarget (readyBy 4) (BitVec.ofNat 64 open0) q.1 q.2 synHome = .at_ (.opened 0x100) 0x100 false ∧
      ∃ s1, (asking (.aadd fromM0) 8 9 0 0 0).synTarget (readyBy 4) (BitVec.ofNat 64 (pin0 - 1024)) q.1 q.2 synHome = .stop s1) ∧
    redControl 0 = some (0, 0, 0, 0) ∧ redControl 0xFFFF = none := by
  refine ⟨fun q hq => ⟨issues ?_, issues ?_, issues ?_⟩, fun q hq => issues ?_, fun q hq => ⟨isNull_of ?_, isAt_of ?_, isAt_of ?_, isStop_of ?_⟩, by decide +kernel, by decide +kernel⟩ <;>
  (revert q; decide +kernel)

theorem witness_BarrierTriggerEffects :
    (∀ q ∈ [(0, 0), (0, land1), (0, 0x30010), (pin0, land1), (pin0 - 1024, land1)],
      ((asking (.barr fromM0) 8 q.1 7 0 q.2).Issues (readyBy 4) 8 (requestNeed false false true true false) fromM0 ⟨0, 0, BitVec.ofNat 1024 q.2, BitVec.ofNat 1024 q.1⟩) ∧
      ((asking (.barw fromM0) 8 q.1 7 0 q.2).Issues (readyBy 4) 8 (requestNeed false false false true false) fromM0 ⟨0, 0, 0, BitVec.ofNat 1024 q.1⟩) ∧
      ((asking (.bartw fromM0) 8 q.1 7 0 q.2).Issues (readyBy 4) 8 (requestNeed true false true true false) fromM0 ⟨7, 0, BitVec.ofNat 1024 q.2, BitVec.ofNat 1024 q.1⟩)) ∧
    (asking (.barr fromM0) 8 0 0 0 0).barTarget (readyBy 4) 0 = .null ∧
    (asking (.barr fromM0) 8 0 0 0 0).barTarget (readyBy 4) (BitVec.ofNat 64 pin0) = .at_ (.pinned 0x0200_0010_0000 false) 0x0200_0010_0000 false ∧
    (∃ s1, (asking (.barr fromM0) 8 0 0 0 0).barTarget (readyBy 4) (BitVec.ofNat 64 (pin0 - 1024)) = .stop s1) ∧
    (asking (.barw fromM0) 8 0 0 0 0).releaseReady (readyBy 4) true = true ∧ landSpec (BitVec.ofNat 64 land1) = some ⟨0, 0, 1, 0⟩ ∧
    ((asking (.barr fromM0) 8 0 0 0 0).strand 0 0).arrival = none := by
  refine ⟨fun q hq => ⟨issues ?_, issues ?_, issues ?_⟩, isNull_of ?_, isAt_of ?_, isStop_of ?_, ?_, ?_, ?_⟩
  all_goals first | decide +kernel | (revert q; decide +kernel)

/-- A request of strand 0 of tile 0 at the first unreserved block of die 0's synchronisation window. -/
def testReq (kind : ReqKind) (len : Nat) (stage : Nat) : Req :=
  { tile := 0, strand := 0, run := 1, seq := 0, slot := 4, level := 0, lid := some 3, kind := kind, ctx := 0, handle := BitVec.ofNat 64 pin0, opened := false
    va := 0x0200_0010_0000, pa := 0x0200_0010_0000, off := 0, len := len, comp := false, repl := false, data := List.replicate len 1, cmp := 0, rel := false, scope := 0, stage := stage, spread := 0, own := false, fences := [] }
/-- The machine after reset with a request under number 5 and memory cells, at an event of that number. -/
def atHome (r : Req) (mem : List Host.Cell) : State := withEv (opId 5) { State.reset with reqs := [(5, r)], mem := mem, ids := 9 }
theorem witness_MordantAtomicEffects :
    (∀ op ∈ [0, 1, 2, 3, 4, 5, 6, 7, 8], let r := testReq (.atomic op) 8 1; SMap.lookup (atHome r []).reqs (atHome r []).ev.id = some r ∧
      ((atHome r []).tallyMordant r).physRead r.pa 8 = some (List.replicate 8 0)) ∧
    (let r := testReq (.atomic 7) 8 1; ((atHome r [⟨0x0200_0010_0000, 1⟩]).tallyMordant r).physRead r.pa 8 = some (1 :: List.replicate 7 0)) ∧
    (let r := testReq (.red 0 0) 128 1; SMap.lookup (atHome r []).reqs (atHome r []).ev.id = some r ∧ ((atHome r []).tallyMordant r).physRead r.pa 128 = some (List.replicate 128 0) ∧
      ({ atHome r [] with badWords := [0x0200_0010_0000] }.tallyMordant r).physRead r.pa 128 = none ∧ ({ atHome r [] with badWords := [0x0200_0010_0000] }.tallyMordant r).physRead r.pa 8 = none) ∧
    (let r := testReq (.red 0 0) 64 1; (atHome r []).redTwin 5 r = none ∧
      (∀ k ∈ [1, 3], let q := { testReq (.red 0 0) 64 k with pa := 0x0200_0010_0040, off := 64 }; let s := { atHome r [] with reqs := [(5, r), (6, q)] };
        s.redTwin 5 r = some (6, q) ∧ ((s.tallyMordant { r with len := 128 }).physRead r.pa 64).isSome = true ∧ ((s.tallyMordant { r with len := 128 }).physRead q.pa 64).isSome = true)) := by
  decide +kernel

/-- Memory holding a cell's state word's top byte, and the low byte of its value. -/
def cellMem (top : Byte) : List Host.Cell := if top = 0 then [⟨0x0200_0010_0008, 9⟩] else [⟨0x0200_0010_0007, top⟩, ⟨0x0200_0010_0008, 9⟩]
theorem witness_FutureCellEffects :
    (∀ q ∈ [((0 : Byte), 0, 0), (0x40, 1, 0), (0x80, 2, 0), (0xC0, 3, 0), (0x81, 2, 256)],
      let r := testReq .frd 16 1; let s := atHome r (cellMem q.1);
      SMap.lookup s.reqs s.ev.id = some r ∧ ∃ bs, (s.tallyMordant r).physRead r.pa 16 = some bs ∧ (Cell.ofBytes bs).fst = q.2.1 ∧ (Cell.ofBytes bs).wcnt = q.2.2) := by
  intro q hq
  refine ⟨by revert q; decide +kernel, (((atHome (testReq .frd 16 1) (cellMem q.1)).tallyMordant (testReq .frd 16 1)).physRead 0x0200_0010_0000 16).getD [], ?_⟩
  revert q; decide +kernel
/-- Context 0 alive with a pool of one record at virtual address 0x10000, mapped to physical address 0x10000 of HBM by a table at 0x1000. -/
def pooled (s : State) : State :=
  { (s.modCtx 0 fun c => { c with root := 0x1000, poolBase := 0x10000, poolCount := 1 }) with
    mem := memWrite (memWrite (memWrite (memWrite s.mem 0x1000 (leBytes 8 0x2001)) 0x2000 (leBytes 8 0x3001)) 0x3000 (leBytes 8 0x4001)) 0x4008 (leBytes 8 0x1010F)
    tags := (List.range 5).flatMap fun k => [(0x20 * (k + 1), 0)] ++ if k = 4 then [(0x200, 0)] else [] }
/-- A bundle reload of a kernel whose code stands in a mapped page. -/
theorem witness_BundleFetchEffects_reload :
    let h := { testHeader with base := 0xF000, nslt := 0 };
    let s := withEv (opTileId 0 0) (pooled ((ready 0x070A44).modTile 0 fun y => { y with kernel := some (0, h), core := { y.core with reload := some 0 } }));
    (s.tile 0).stopped = false ∧ (s.core 0).reload = some 0 ∧ 0 = s.ev.id ∧ (s.tile 0).kernel = some (0, h) ∧ (s.core 0).issuing = some 0 ∧
    (match (s.modCore 0 fun co => { co with reload := none }).imageRead (dieOf 0) 0 (h.base + 0x1000 + h.nslt * 0x1000 + 24 * 0) .code 2 24 with | .ok _ => true | .failed _ => false) = true := by
  decide +kernel
theorem witness_FutureCellEffects_lists :
    (let r := testReq (.defer 0) 16 1; ∀ top ∈ [(0 : Byte), 0x40, 0x80], ((pooled (atHome r (cellMem top))).tallyMordant r).ctxPa r.ctx ((((pooled (atHome r (cellMem top))).tallyMordant r).ctx r.ctx).recVa 0) = some 0x10000) ∧
    (∀ b ∈ [(1 : Byte), 2], let s := { pooled { State.reset with mem := memWrite (memWrite [] 0x0200_0010_0000 (leBytes 8 (2 * 2 ^ 62 + b.toNat * 2 ^ 48 + 0x10000))) 0x10000 (leBytes 8 (2 ^ 47)) } with ev := { Operand.zero with word := 0x0200_0010_0000 } };
      (s.markShared s.ev.id ((List.range 4).map fun k => 4 * homeDie s.ev.word.toNat + k)).listed 0x10000 0 = some (0, 0) ∧ ∃ bs, s.physRead s.ev.word.toNat 16 = some bs ∧ (Cell.ofBytes bs).fst = 2 ∧ (Cell.ofBytes bs).wcnt = b.toNat ∧ (Cell.ofBytes bs).head = 0x10000) ∧
    (let r := testReq (.defer 0) 16 1; let s := atHome r [⟨0x0200_0010_0006, 0xFF⟩, ⟨0x0200_0010_0007, 0x7F⟩]; let c := Cell.ofBytes (((s.tallyMordant r).physRead r.pa 16).getD []); s.ev.flag = false ∧ c.fst = 1 ∧ c.wcnt = 16383) := by
  refine ⟨by decide +kernel, fun b hb => ⟨by revert b; decide +kernel, ({ pooled { State.reset with mem := memWrite (memWrite [] 0x0200_0010_0000 (leBytes 8 (2 * 2 ^ 62 + b.toNat * 2 ^ 48 + 0x10000))) 0x10000 (leBytes 8 (2 ^ 47)) } with ev := { Operand.zero with word := 0x0200_0010_0000 } }.physRead 0x0200_0010_0000 16).getD [], ?_⟩, by decide +kernel⟩
  revert b; decide +kernel

/-- A burst from die 0 to die 1. -/
def testBurst (n : Nat) : Burst :=
  { origin := 0, dest := 1, num := n, stamp := [n, 0, 0, 0, 0, 0, 0, 0], tile := 0, strand := 0, level := 0, here := true, done := false, seq := 0, zport := true, group := 0, seq0 := 0, sent := 0, act := .clockGate, op := Operand.zero }
theorem witness_HomeAccessEffects :
    (∀ kind ∈ [ReqKind.load, .ltag, .store], let r := testReq kind 8 0; let s := atHome r [];
      SMap.lookup s.reqs s.ev.id = some r ∧ r.stage = 0 ∧ (s.tile r.tile).stopped = false ∧ r.own = false ∧ s.ownWaits r = false ∧ r.opened = false ∧ s.withheld s.ev.id r = false ∧ s.sameLocation s.ev.id r (some r.pa) = false ∧ homeDie r.pa = dieOf r.tile ∧
      throughHbm r.pa = false ∧ r.kind.plain = true ∧ r.repl = false) ∧
    (let r := testReq .load 8 1; let s := atHome r [];
      (s.tallyRead (some r.tile) r.pa r.len).physRead r.pa r.len = some (List.replicate 8 0) ∧ ({ s with badWords := [r.pa] }.tallyRead (some r.tile) r.pa r.len).physRead r.pa r.len = none ∧
      s.ev.flag = false ∧ s.ev.arg < 2 ∧ s.ev.node = 0 ∧ ((ready 0x070AD6).strand 0 0).st ≠ .free ∧ ((ready 0x070AD6).strand 0 0).st ≠ .suspended) ∧
    (∀ kind ∈ [ReqKind.load, .store], let r := { testReq kind 8 1 with own := true, pa := tileBase 0 + 64 }; physKind r.pa = .window 0 64 ∧ (atHome r []).ownWaits r = false ∧ throughHbm r.pa = false) ∧
    runsOf 11 ((List.replicate 8 0 ++ [3, 1, 7] : List Byte).drop 8) = [(3, [7])] ∧ windowReaches 0x1000 = true ∧ windowReaches 0x0200_0000_0000 = false ∧
    (let x := (ready 0x070AD6).strand 0 0; x.run = frameField (leBytes 8 x.run) 0 8) ∧
    throughHbm 0x1000 = true ∧ (let s := { atHome (testReq .store 8 2) [] with bursts := [(7, { testBurst 1 with group := 4 })] }; s.spreading 4 = true ∧ s.spreading 0 = false) := by
  decide +kernel

/-- An active group-scope barrier block expecting e arrivals with a of them come. -/
def barMem (a e : Nat) : List Host.Cell := memWrite (memWrite [] 0x0200_0010_0000 (leBytes 8 (3 * 2 ^ 32 + 2 ^ 30 + a))) 0x0200_0010_0008 (leBytes 8 e)
def barBytesOf (s : State) : List Byte := (s.barBytes 0x0200_0010_0000).getD []
/-- The state in which an arrival is judged. -/
def judged (s : State) (r : Req) : State := { s.tallyMordant r with barMarks := SMap.set (s.tallyMordant r).barMarks r.pa r.ctx }
theorem witness_BarrierEventEffects :
    (∀ kind ∈ [ReqKind.arrive, .drop, .arriveWait], ∀ q ∈ [(0, 3, false), (2, 3, true), (0, 1, true)],
      let r := testReq kind 8 1; let s := atHome r (barMem q.1 q.2.1); let b := Bar.ofBytes (barBytesOf s);
      SMap.lookup s.reqs s.ev.id = some r ∧ r.run ≠ 0 ∧ (judged s r).barBytes r.pa = some (barBytesOf s) ∧ (judged s r).barError r b = none ∧ decide (b.e ≤ b.a + 1) = q.2.2 ∧
      (let s2 := (judged s r).putBar r.pa b.phase (b.a + 1) (if r.kind = .drop then b.drp + 1 else b.drp) b.e; let c := Bar.ofBytes (barBytesOf s2);
        s2.barBytes r.pa = some (barBytesOf s2) ∧ c.bst = 1 ∧ 0 < c.e ∧ decide (c.e ≤ c.a) = q.2.2)) ∧
    (let r := testReq .arrive 8 1; let s := atHome r []; (judged s r).barError r (Bar.ofBytes (barBytesOf s)) = some 0x10) := by
  decide +kernel
theorem witness_BarrierEventEffects_tiles :
    (let w : Waiter := ⟨0x0200_0010_0000, 3, 50, 0, 0, 5, 0⟩; let s := withEv (opId 5) { State.reset with waiters := [w] };
      s.waiters.find? (fun w => decide (w.rid = s.ev.id)) = some w ∧ (s.ctx w.ctx).st ≠ .evicted) ∧
    (let s : State := { State.reset with windows := [(0, 0)] }; SMap.lookup s.windows s.ev.word.toNat = some 0 ∧ 0 ≤ s.tick) ∧
    (let g : Region := ⟨0, 0, 1, 1⟩; let s := State.reset.modCtx 0 fun c => { c with region := some g }; (s.ctx 0).st ≠ .evicted ∧ (s.ctx 0).region = some g ∧ g.holds 0 = true) ∧
    (∀ p ∈ [none, some 3], ∀ d ∈ [0, 1], let w : BarWait := ⟨0x0200_0010_0000, true, 5, 0, 50, 2, 0, 4, p, none, none⟩;
      let s := withEv { Operand.zero with word := 0x0200_0010_0000, arg := 3 } ((ready 0x070B10).modStrand 0 0 fun x => { x with barWaits := [w], depth := d, st := .sleeping, wake := .barrier true });
      (s.tile 0).stopped = false ∧ (s.strand 0 0).barWaits = [] ++ [w] ∧ w.bar = s.ev.word.toNat ∧ decide (w.level = (s.strand 0 0).depth) = decide (d = 0) ∧
      (s.strand 0 0).st = .sleeping ∧ (s.strand 0 0).wake = .barrier w.timed ∧ s.timeouts.contains w.rid = false ∧ s.noticeHeld (homeDie s.ev.word.toNat) s.ev.node = false ∧ (s.ev.arg + 2 ^ 32 - 3) % 2 ^ 32 < 2 ^ 31) := by
  decide +kernel

/-- A tensor record of 16 bytes at a virtual address. -/
def recBytesOf (base : Nat) : List Byte := leBytes 8 base ++ leBytes 24 16 ++ leBytes 30 1 ++ [3, 1]
/-- A parameter block of one burst of one token of four words. -/
def blkBytesOf (base ring pep : Nat) : List Byte :=
  leBytes 8 base ++ leBytes 8 (4 + 2 ^ 16 + 2 ^ 32 + 2 ^ 48) ++ leBytes 8 (1 + 2 ^ 16) ++ leBytes 24 4 ++ leBytes 8 (2 * 2 ^ 60 + ring * 2 ^ 53 + 2 * 2 ^ 44 + 2 ^ 32) ++ leBytes 8 (pep * 2 ^ 48)
/-- A gather list of one row of 16 bytes at an address. -/
def listBytesOf (src : Nat) : List Byte := leBytes 8 src ++ leBytes 8 1 ++ leBytes 8 0 ++ leBytes 8 16 ++ leBytes 4 0
/-- Tile 0 in the region of context 0, the records, blocks and lists of the tests in its scratchpad. -/
def messaging (i : Instr) (m0 a b : Nat) : State :=
  let s := asking i 7 m0 a b 0
  (({ s with mem := ([(0x1000, recBytesOf 0x10000), (0x1040, recBytesOf 0x20000), (0x1080, blkBytesOf 0x2000 1 0), (0x10C0, blkBytesOf (3 * 2 ^ 62 + 0x1000) 0 0), (0x1100, blkBytesOf 0x2000 1 1),
      (0x1140, listBytesOf (3 * 2 ^ 62)), (0x11C0, listBytesOf 0), (0x1240, listBytesOf (2 ^ 63))] : List (Nat × List Byte)).foldl (fun m (p : Nat × List Byte) => memWrite m (tileBase 0 + p.1) p.2) [] }).modCtx 0 fun c => { c with region := some ⟨0, 0, 1, 1⟩ })
theorem witness_MessageCommandEffects :
    (∀ q ∈ [(0, 0), (16, 0), (0, 8191 * 2 ^ 32)], (messaging (.send fromM0) q.1 q.2 0).Issues (readyBy 4) 7 (msgNeed true true false true) fromM0 ⟨BitVec.ofNat 1024 q.2, 0, 0, BitVec.ofNat 1024 q.1⟩) ∧
    (∀ q ∈ [(0, 0x1000, 0x1040), (8, 0x1000, 0x1040), (0x80, 0x1000, 0x1040), (0, 0x1080, 0x1040), (0, 0x1000, 0x1080), (0, 0x1140, 0x1040), (0, 0x11C0, 0x1040), (0, 0x1240, 0x1040), (0, 0x10C0, 0x1080), (0, 0, 0x1100), (0x80, 0, 0x1100)],
      (messaging (.copy fromM0) q.1 q.2.1 q.2.2).Issues (readyBy 4) 7 (msgNeed true true false true) fromM0 ⟨BitVec.ofNat 1024 q.2.1, BitVec.ofNat 1024 q.2.2, 0, BitVec.ofNat 1024 q.1⟩) ∧
    (∀ v ∈ [(0 : Nat), 1, 64], (messaging (.qfence fromM0) v 0 0).Issues (readyBy 4) 7 (msgNeed false false false false) fromM0 ⟨0, 0, 0, BitVec.ofNat 1024 v⟩) := by
  refine ⟨fun q hq => issues ?_, fun q hq => issues ?_, fun v hv => issues ?_⟩
  · revert q; decide +kernel
  · revert q; decide +kernel
  · revert v; decide +kernel
theorem witness_MessageCommandEffects_records :
    (let s := messaging (.copy fromM0) 0 0 0; let x := s.strand 0 0; let record (a : W64) : TensorRec := tensorRecOf (s.descriptor (readyBy 4) a 6 64).1;
      (s.ctx x.ctx).holds 0 = true ∧ (s.ctx x.ctx).holds 8191 = false ∧ copyArgOk 0 = true ∧ copyArgOk 0x80 = false ∧ s.queueRoom 0 0 = true ∧ s.queueRoom 0 5 = true ∧ 5 < (s.engines 0).queues.length ∧
      s.recordRefusal x (record 0x1000) false = 0 ∧ s.recordRefusal x (record 0x1040) true = 0 ∧ s.recordRefusal x (record 0x1080) false ≠ 0 ∧ s.recordRefusal x (record 0x1080) true ≠ 0 ∧
      (record 0x1000).esize = 1 ∧ (record 0x1040).esize = 1 ∧ (record 0x1000).count = 16 ∧ (record 0x1040).count = 16 ∧ (x.key 0).st = .plain ∧ (x.key 0).entries = [] ∧
      ((x.key 0).expect 0 1).isSome = true ∧ ({ x.key 0 with entries := List.replicate 4 ⟨9, 0, 0, false⟩ } : Key).expect 0 1 = none) ∧
    (let s := messaging (.gathr fromM0) 0 0 0; ∀ q ∈ [((0x1140 : W64), HandleClass.opened), (0x11C0, .null), (0x1240, .bad)], let l := gatherListOf (s.descriptor (readyBy 4) q.1 6 64).1;
      handleClass l.src = q.2 ∧ l.rsv = false ∧ l.nrow = 1 ∧ l.rb = 16) ∧
    (let s := messaging (.stream fromM0) 0 0 0; let blk (a : W64) : Blk := blkOf (s.descriptor (readyBy 4) a 6 64).1;
      (blk 0x1080).ring = true ∧ (blk 0x1080).refusal .ring true none = 0 ∧ (blk 0x10C0).pep = 0 ∧ (blk 0x10C0).refusal .memory false none = 0 ∧ (blk 0x10C0).tokens = (blk 0x1080).tokens ∧ (blk 0x10C0).blen = (blk 0x1080).blen ∧
      (blk 0x1100).ring = true ∧ (blk 0x1100).refusal .ring true none = 0 ∧ (blk 0x1100).pep = 1 ∧ 0 < (s.strand 0 0).keys.length ∧ s.crediting 0 0 (s.strand 0 0).run 0 = []) := by
  decide +kernel

/-- Keys: 0 plain, 1 a ring with one slot filled, 2 an empty ring at its end, 3 closing, 4 faulted. -/
def testKeys : List Key :=
  [Key.empty, { Key.empty with st := .ring, ring := some ⟨0x2000, 2, 1, 4, 0, 1, 1, 9⟩ }, { Key.empty with st := .ring, endF := true, ring := some ⟨0x2000, 2, 1, 4, 0, 0, 4, 9⟩ }, { Key.empty with st := .closing },
   { Key.empty with st := .faulted }, { Key.empty with entries := [⟨3, 2, 1, true⟩] }, Key.empty, Key.empty]
def keyed (i : Instr) (m0 a b d : Nat) : State := (asking i 7 m0 a b d).modStrand 0 0 fun x => { x with keys := testKeys }
theorem witness_KeyTriggerEffects :
    (∀ v ∈ [(0 : Nat), 1, 2, 3, 0x21, 4, 14], (keyed (.free fromM0) v 0 0 0).Issues (readyBy 4) 7 (msgNeed false false false false) fromM0 ⟨0, 0, 0, BitVec.ofNat 1024 v⟩ ∧
      (keyed (.krd fromM0) v 0 0 0).Issues (readyBy 4) 7 { msgNeed false false false false with result := some 7 } fromM0 ⟨0, 0, 0, BitVec.ofNat 1024 v⟩ ∧
      (keyed (.kexp fromM0) v 0xFFFFFFFFFFFF0003 7 0).Issues (readyBy 4) 7 (msgNeed true true false false) fromM0 ⟨BitVec.ofNat 1024 0xFFFFFFFFFFFF0003, 7, 0, BitVec.ofNat 1024 v⟩ ∧
      (keyed (.promise fromM0) v 0 0 land1).Issues (readyBy 4) 7 (msgNeed false false true false) fromM0 ⟨0, 0, BitVec.ofNat 1024 land1, BitVec.ofNat 1024 v⟩) ∧
    (let s := keyed (.waitk false 1) 0 0 0 0; s.issuer = some (readyBy 0) ∧ s.slotFree (readyBy 0) false = true) ∧
    ((let x : Strand := { Strand.reset with keys := testKeys };
      (x.key 0).complete = true ∧ (x.key 1).complete = true ∧ (x.key 1).st = .ring ∧ (x.key 2).endF = true ∧ (x.key 3).st = .closing ∧ (x.key 4).st = .faulted ∧ (x.key 5).complete = false ∧ x.keys.length = 8)) := by
  refine ⟨fun v hv => ⟨issues ?_, issues ?_, issues ?_, issues ?_⟩, by decide +kernel, by decide +kernel⟩ <;> (revert v; decide +kernel)
/-- kexp of two producers, a new and a known one; of a fifth; and a promise with a bad specification or without room. -/
theorem witness_KeyTriggerEffects_expect :
    (let o0 := 0xFFFF_FFFF_0004_0003; (keyed (.kexp fromM0) 5 o0 0x0002_0007 0).Issues (readyBy 4) 7 (msgNeed true true false false) fromM0 ⟨BitVec.ofNat 1024 o0, 0x0002_0007, 0, 5⟩) ∧
    (let s := (keyed (.kexp fromM0) 0 0xFFFF_FFFF_FFFF_0009 1 0).modKey 0 0 0 fun k => { k with entries := (List.range 4).map fun i => ⟨i, 1, 0, true⟩ };
      s.Issues (readyBy 4) 7 (msgNeed true true false false) fromM0 ⟨BitVec.ofNat 1024 0xFFFF_FFFF_FFFF_0009, 1, 0, 0⟩ ∧ ((s.strand 0 0).key 0).entries.all (fun e => decide (e.pid ≠ 9)) = true) ∧
    (∀ v ∈ [0x3_0000, 2 ^ 40], (keyed (.promise fromM0) 0 0 0 v).Issues (readyBy 4) 7 (msgNeed false false true false) fromM0 ⟨0, 0, BitVec.ofNat 1024 v, 0⟩ ∧
      (landSpec (BitVec.ofNat 64 v) = none ∨ (landSpec (BitVec.ofNat 64 v)).any (fun p => decide (p.ord ≠ 0)) = true)) ∧
    (let s := (keyed (.promise fromM0) 0 0 0 land1).modCore 0 fun co => { co with lands := List.replicate 64 ⟨0, 1, 0, 9, 9, 0, 0, 0, 0, none, 1, 0, false, false, 0, false, 0, none, none⟩ };
      s.Issues (readyBy 4) 7 (msgNeed false false true false) fromM0 ⟨0, 0, BitVec.ofNat 1024 land1, 0⟩ ∧ landRoom (s.core 0) = false) ∧ (∀ b ∈ ((keyed (.promise fromM0) 0 0 0 land1).core 0).lands, b.lid ≠ ((keyed (.promise fromM0) 0 0 0 land1).core 0).nextLid) := by
  refine ⟨issues ?_, ⟨issues ?_, ?_⟩, fun v hv => ⟨issues ?_, ?_⟩, ⟨issues ?_, ?_⟩, ?_⟩
  any_goals decide +kernel
  all_goals (revert v; decide +kernel)
theorem witness_KeyTriggerEffects_promise :
    (let a := { testLand (some 5) with key := some 5 }; ((keyed (.promise fromM0) 0 0 0 0).modCore 0 fun co => { co with lands := [a] }).landNow 0 = some a ∧ 5 < testKeys.length) ∧
    (keyed (.waitk false 1) 0 0 0 0 |>.strand 0 0).stream.unissuedBelow 0 isFree = false ∧
        (let s := (keyed (.promise fromM0) 5 0 0 land1).modKey 0 0 5 fun k => { k with revised := some 77 }; s.promiseOf 0 0 5 = 77) ∧ (keyed (.promise fromM0) 5 0 0 land1).promiseOf 0 0 0 = 0 := by
  decide +kernel

def testShape (p : Place) : Shape := { place := p, ext := [16], str := [1], esize := 1, tq := false, tiles := [0], dk := none }
def testCmd (q : Nat) (kind : CmdKind) : Cmd :=
  { tile := 0, strand := 0, run := 0, ctx := 0, q := q, key := 0, scope := 0, kind := kind, after := [], begun := false, next := 0, reads := none, slots := [(0, 1)], read := false, failed := false, promise := 0, lines := 0 }
def testStream : StreamW :=
  { tile := 0, eng := 0, writer := true, blk := blkOf (blkBytesOf 0 0 0), ctx := 0, cid := none, other := .port 0, credit := 0, next := 0, begun := false, reads := none, held := [], busy := false, pend := 0, got := 0,
    stuck := false, whole := false, part := false, spread := [], strand := 0, run := 0, promise := 0 }
def testCopy : CmdKind := .copy (testShape (.va 0)) (testShape (.scratch 0 0x100))
/-- The core about to issue, with keys, a command 7 at the head of a queue, a stream 8, and an event. -/
def engaged (q : Nat) (kind : CmdKind) (o : Operand) : State :=
  withEv o (({ keyed (.free fromM0) 0 0 0 0 with cmds := [(7, testCmd q kind)], streams := [(8, testStream)], ids := 9 }).modEngines 0 fun e => { e with queues := e.queues.modify q fun _ => [7] })
/-- A walk of a PORT that the stream of engine 8 feeds, or whose consumer it is. -/
def testWalk : Walk :=
  { blk := blkOf (blkBytesOf 0 0 0), elem := 0, tok := 0, acc := [], begun := false, start := 0, buf := [], got := 0, credit := 0, sent := 0, eng := 8, closed := false, scl := none }
def portState (dir : Nat) : State :=
  State.reset.modNode 0 48 fun nd => { nd with st := .active, dones := [255, 0, 0, 0, 0], walk := some testWalk, active := { nd.active with p := [BitVec.ofNat 64 (dir * 2 ^ 61 + 2 ^ 59)], dst := [3] } }
theorem witness_EngineEventEffects :
    (let s := engaged 0 testCopy { Operand.zero with id := 3, arg := 2 }; let x := s.strand 0 0;
      x.st ≠ .free ∧ x.st ≠ .suspended ∧ ((x.key 0).credit 3 2).isSome = true ∧ ({ x.key 0 with entries := List.replicate 4 ⟨9, 0, 0, false⟩ } : Key).credit 3 2 = none ∧ (s.tile 0).stopped = false ∧
      (s.strand 0 1).st = .free ∧ (s.engines 0).queues.getD 0 [] = [7] ∧ SMap.lookup s.cmds 7 = some (testCmd 0 testCopy) ∧ s.creditWaits 4 = false ∧ s.spreading 0 = false ∧
      s.MemOk ∧ s.ev.node ≠ 1 ∧ SMap.lookup s.streams 8 = some testStream ∧ (s.node 0 48).dones.getD 0 0 < 255 ∧ 5 < x.keys.length ∧ ({ x.key 5 with watch := some 9 } : Key).complete = false) ∧
    (let s := engaged 5 (.send 0 0x100 none (List.replicate 16 1)) { Operand.zero with id := 7, arg := 5 }; (s.engines 0).queues.getD 5 [] = [7]) ∧
    (let s := (engaged 0 testCopy { Operand.zero with id := 9, node := 3 }).modKey 0 0 3 fun k => { k with ring := some ⟨0, 2, 1, 4, 0, 0, 0, 9⟩ };
      ((s.strand 0 0).key 3).st = .closing ∧ (((s.strand 0 0).key 3).ring.map Ring.source) = some 9 ∧ s.burstsUnderWay s.ev = false) ∧
    (let s := withEv { Operand.zero with id := 8, node := 48 } (portState 3);
      255 ≤ (s.node 0 48).dones.getD 0 0 ∧ (s.node 0 48).st ≠ .off ∧ (s.node 0 48).active.dir = 3 ∧ (s.node 0 48).active.idle = false ∧ (s.node 0 48).active.fnet = true ∧ portSource s.ev.word.toNat 0 ∉ (s.node 0 48).stopping ∧ (s.node 0 48).dones.getD 4 0 < 255 ∧ testWalk.names s.ev 0 = true) ∧
    (let s := portState 4; (s.node 0 48).active.dir = 4 ∧ testWalk.closed = false) := by
  decide +kernel
theorem witness_EngineEventEffects_last :
    (let s := engaged 0 testCopy { Operand.zero with id := 7, bytes := List.replicate 16 1 }; let m := { testCmd 0 testCopy with read := true }; let y := s.strand 0 0;
      m.slots = [(s.ev.arg, 1)] ∧ y.run = m.run ∧ ((y.key m.key).credit (m.tile * 8 + m.q) 1).isSome = true ∧ m.kind.dest = some (testShape (.scratch 0 0x100)) ∧ s.ev.bytes.length = 16 * (testShape (.va 0)).esize) ∧
    (let s := withEv { Operand.zero with arg := 4, word := 0x1000, bytes := leBytes 8 128 ++ [0] } State.reset;
      s.ev.asksScratch = false ∧ (s.tallyRead (some 0) 0x1000 128).physRead 0x1000 128 = some (List.replicate 128 0)) ∧
    (let s := keyed (.free fromM0) 0 0 0 0; (s.strand 0 0).passed 1 0 = true ∧ (s.strand 0 0).storedBelow 1 1 = true) := by
  decide +kernel

/-- A launch of a resident kernel with an identifier left. -/
def testLaunch : Launch := ⟨0, 0, 0, 0, 0, 0, [], none, 2 ^ 60, 2 ^ 56, some 5, 0, 1, 0, [], true, true⟩
/-- A state about to issue a WRK trigger: a resident or plain kernel in tile 0, its launch, tile 0 in the region of context 0, with one launch queue and
a pool of n records. -/
def working (i : Instr) (res : Bool) (n m0 a d : Nat) : State :=
  let s := ((asking i 9 m0 a 0 d).modStrand 0 0 fun x => { x with launch := 1, widths := [8] }).modTile 0 fun y => { y with kernel := some (0, { testHeader with nf := 1, gang := 7, widths := [8], res := res }) }
  ({ s with launches := [(0, testLaunch)] } : State).modCtx 0 fun c => { c with st := .running, region := some ⟨0, 0, 1, 1⟩, launchQs := [LaunchQ.reset], poolCount := n, kernels := [(0, ⟨0, testHeader, .installed, 0, 0, [], 0⟩)] }
theorem witness_WorkTriggerEffects :
    (∀ d ∈ [(0 : Nat), 0x20010, land1], (working (.nextw fromM0) true 0 0 0 d).Issues (readyBy 4) 9 (requestNeed false false true true true) fromM0 ⟨0, 0, BitVec.ofNat 1024 d, 0⟩) ∧
    (∀ v ∈ [(8 : Nat), 0, 2 ^ 32, 2 ^ 40], (working (.spawn fromM0) true 0 v 5 0).Issues (readyBy 4) 9 (capNeed true true) fromM0 ⟨5, 0, 0, BitVec.ofNat 1024 v⟩) ∧
    (∀ v ∈ [(0 : Nat), 1], (working (.regroup fromM0) false 0 v 5 0).Issues (readyBy 4) 9 { use0 := true, access := true } fromM0 ⟨5, 0, 0, BitVec.ofNat 1024 v⟩) ∧
    (∀ v ∈ [(0 : Nat), 2 ^ 20, 2 ^ 16, 2 ^ 17, 2 ^ 17 + 8191, 2 ^ 16 + 2 ^ 13], (working (.enq fromM0) false 0 v 0 0).Issues (readyBy 4) 9 (capNeed true false) fromM0 ⟨0, 0, 0, BitVec.ofNat 1024 v⟩) := by
  refine ⟨fun d hd => issues ?_, fun v hv => issues ?_, fun v hv => issues ?_, fun v hv => issues ?_⟩
  · revert d; decide +kernel
  · revert v; decide +kernel
  · revert v; decide +kernel
  · revert v; decide +kernel
/-- Slot 0 of the pool of context 0 taken for a record of a priority. -/
def taken (s : State) (prio : Nat) : Bool := match s.newRecord 0 0 0 0 { Record.ofBytes [] with ctx := 0, prio := prio } with
  | some (slot, s1) => decide (slot = 0) && decide ((s1.record 0 slot).prio = prio) && decide (prio < (s1.ctx 0).ready.length)
  | none => false
theorem witness_WorkTriggerEffects_work :
    (let s := working (.nextw fromM0) true 0 0 0 land1; let x := s.strand 0 0; landRoom (s.core 0) = true ∧ (∃ k, (s.tile 0).kernel = some k ∧ k.2.res = true) ∧ x.launch = 1 ∧ s.launch 0 = some testLaunch ∧
      testLaunch.next = some 5 ∧ s.moduleRelease (readyBy 4) = true ∧ s.spawns = [] ∧ regReady (s.core 0) 0 x codeKsel (readyBy 4).seq (readyBy 4).step = true ∧ s.mayEnd (readyBy 4) = true ∧
      s.carried (readyBy 4) 0 = some [0, 0, 0, 0] ∧ x.visits = false) ∧
    (let s := working (.enq fromM0) false 0 0 0 0; (s.ctx 0).launchQs.length = 1 ∧ (s.ctx 0).st ≠ .destroyed ∧ (s.ctx 0).holds 0 = true ∧ (s.ctx 0).holds 8191 = false ∧ ((s.scanRings 0).ctx 0).freeSlot = none) ∧
    (let s := pooled (working (.enq fromM0) false 1 0 0 0); taken s 1 = true ∧ ((s.ctx 0).kernel 0).isSome = true) ∧
    (∀ k ∈ [(3 : Nat), 4], (working (.enq fromM0) false 0 (k * 2 ^ 16) 0 0).Issues (readyBy 4) 9 (capNeed true false) fromM0 ⟨0, 0, 0, BitVec.ofNat 1024 (k * 2 ^ 16)⟩) ∧
    (let s := pooled (working (.enq fromM0) false 1 0 0 0); ∀ cap ∈ [0, 6], let s := s.modCtx 0 fun c => { c with fcap := cap, rings := [1, 1] };
      (s.newRecord 0 0 0 0 { Record.ofBytes [] with ctx := 0 }).any (fun q => decide (q.2.ringFull 0 false = decide (cap = 0))) = true ∧ ((s.ctx 0).held.any fun h => h.park == false) = false) := by
  refine ⟨by decide +kernel, by decide +kernel, by decide +kernel, fun k hk => issues ?_, by decide +kernel⟩
  revert k; decide +kernel

/-- A record of context 0 sent to strand 2 of tile 0 and not yet arrived. -/
def testSent : Sent := ⟨0, 0, 0, 2, List.replicate 8 ⟨0, 0, 0, 0⟩, List.replicate 8 ⟨0, 0, 0, 0, false⟩, []⟩
theorem witness_RunEventEffects :
    (let s := withEv (opTileId 0 7) ({ State.reset with sends := [(7, testSent)] }.modTile 0 fun y => { y with kernel := some (0, testHeader) });
      (s.tile 0).stopped = false ∧ SMap.lookup s.sends s.ev.id = some testSent ∧ (s.tile 0).kernel = some (0, testHeader)) ∧
    (let s := withEv (opTileId 0 7) ({ State.reset with sends := [(7, testSent)] }.modTile 0 fun y => { y with loading := some (0, testHeader) });
      (s.tile 0).kernel = none ∧ (s.tile 0).loading = some (0, testHeader) ∧ s.imageRead (dieOf 0) 0 testHeader.codeAt .code 4 (24 * testHeader.nbun) = .failed 8 ∧ s.ev.flag = false) ∧
    (let h := { testHeader with nbun := 0, base := 0x10000 }; let s := ((withEv (opTile 0) (pooled State.reset)).modTile 0 fun y => { y with loading := some (0, h) }).modCtx 0 fun c => { c with kernels := [(h.kslot, ⟨0, h, .installed, 0, 0, [], 0⟩)] };
      (((s.ctx 0).kernel h.kslot).any fun k => decide (k.hdr = h)) = true ∧ ((State.reset.ctx 0).kernel h.kslot).isNone = true ∧
      s.imageRead (dieOf 0) 0 h.codeAt .code 4 (24 * h.nbun) = .ok [] ∧ (match s.imageRead (dieOf 0) 0 h.base .read 4 (0x1000 + 0x1000 * h.nslt) with | .ok _ => true | .failed _ => false) = true ∧
      ∀ i, i < 2 → ((s.tile 0).capSlots.getD i none).any (fun x => !x.ready) = false) ∧
    (let s := withEv (opStrand 0 2) (State.reset.modStrand 0 2 fun x => { x with st := .suspended, ending := some ⟨.exit, 0, [], 0, 0⟩ }); s.releasable 0 2 = true ∧ (s.strand 0 2).capVisit = none) ∧
    (let l := { testLaunch with gen := false, recs := 0 }; let s := withEv (opId 3) ({ State.reset with launches := [(3, l)] }.modCtx 0 fun c => { c with kernels := [(0, ⟨0, testHeader, .draining, 1, 0, [], 0⟩)] });
      s.launch 3 = some l ∧ (s.spawns.any fun e => decide (e.launch = s.ev.id + 1)) = false ∧ ((s.ctx l.ctx).kernel l.kslot).isSome = true ∧ l.counted = true) := by
  decide +kernel

/-- A context with one launch queue that holds an entry of zeros, a kernel of slot k and a pool of n records. -/
def launching (k n : Nat) : State :=
  withEv { Operand.zero with node := 0, arg := 0 } (State.reset.modCtx 0 fun c => { c with st := .running, region := some ⟨0, 0, 1, 1⟩, poolCount := n, launchQs := [{ LaunchQ.reset with pidx := 1 }], kernels := [(k, ⟨0, { testHeader with kslot := k }, .installed, 0, 0, [], 0⟩)] })
theorem witness_DispatcherEventEffects_launch :
    (∀ k, k < 2 → let s := launching k 1; (s.ctx 0).paused = false ∧ s.launchRefusal 0 (List.replicate 64 0) = (if k = 0 then none else some 2) ∧ (s.takeSlot 0 0 0).isSome = true ∧ (k = 0 → ((s.ctx 0).kernel 0).isSome = true)) ∧
    (let s := withEv { Operand.zero with node := 0 } (State.reset.modCtx 0 fun c => { c with fcap := 1, held := [⟨false, 0, 0, 0, []⟩] }); (s.ctx 0).held = [⟨false, 0, 0, 0, []⟩] ∧ (s.scanRings 0).ringFull 0 false = false) ∧
    (let s := withEv { Operand.zero with node := 0 } (State.reset.modCtx 0 fun c => { c with rings := [1, 0], held := [⟨false, 0, 0, 0, []⟩] }); (s.scanRings 0).ringFull 0 false = true) ∧
    (let s := { pooled (launching 0 1) with tick := 2 ^ 21 }; let s := s.modCtx 0 fun c => { c with aging := 12, ready := [[0], [], [], [], [], [], [], []] }; let r := s.record 0 0;
      ((s.ctx 0).ready.getD r.prio []).contains 0 = true ∧ r.age < 2 ∧ r.prio < 7 ∧ 2 ^ (s.ctx 0).aging / 1024 ≤ (s.etk + 2 ^ 23 - r.etk) % 2 ^ 23 ∧ (s.ctx 0).st = .running ∧ (s.ctx 0).ready.length = 8 ∧
      (((s.readyRemove 0 r.prio 0).writeRecord 0 0 { r with prio := r.prio + 1, age := r.age + 1, etk := s.etk, link := 0 }).record 0 0).prio = r.prio + 1) := by
  decide +kernel
theorem witness_DispatcherEventEffects_send :
    (let s := { (withEv (opId 3) (pooled (launching 0 1))) with launches := [(3, { testLaunch with next := some 0 })] }; ∃ l k, s.launch 3 = some l ∧ (s.ctx l.ctx).paused = false ∧ l.gen = true ∧ (s.ctx l.ctx).kernel l.kslot = some k ∧
      k.hdr.res = false ∧ k.hdr.isGang = false ∧ l.next = some 0 ∧ (s.ctx l.ctx).ahead 3 = false ∧ (s.spread 3 k.hdr 0).strandFor l.ctx 4 k.hdr 0 l.prio = true ∧
      ∃ slot s2, (s.spread 3 k.hdr 0).newRecord l.ctx 4 0 3 (l.record 0 l.entry) = some (slot, s2) ∧ (s2.record l.ctx slot).prio < (s2.ctx l.ctx).ready.length ∧ (s2.launch 3).isSome = true) := by
  refine ⟨{ testLaunch with next := some 0 }, ⟨0, { testHeader with kslot := 0 }, .installed, 0, 0, [], 0⟩, ?_, ?_, ?_, ?_, ?_, ?_, ?_,
    ?_, ?_, 0, _, rfl, ?_, ?_⟩ <;> decide +kernel
/-- A pool slot of context 0 in the ready queue, with an extent list that reads as zeros. -/
def readyRecord : State := (pooled (launching 0 1)).modCtx 0 fun c => { c with ready := [[0], [], [], [], [], [], [], []], pool := [(0, ⟨0, 0, 0, 0, 0⟩)], kernels := [(0, ⟨0, { testHeader with base := 0x10000, kslot := 0 }, .installed, 0, 0, [], 0⟩)] }
/-- A gang of one record that waits. -/
def waitingGang : State := withEv (opId 4) ({ readyRecord with gangs := [(4, ⟨0, 0, 0, 0, .waiting, [0], 1, 0⟩)] }.modCtx 0 fun c => { c with ready := List.replicate 8 [] })
theorem witness_DispatcherEventEffects_choose :
    ((match readyRecord.dropOrphans.cands 0 with
      | d :: _ => (match readyRecord.dropOrphans.pinPlan d.ctx 0 d.hdr (readyRecord.dropOrphans.record d.ctx d.slot).xl with | .ok _ _ _ => true | _ => false)
      | [] => false) = true) ∧ SMap.get readyRecord.dispNext 0 0 ≤ readyRecord.tick ∧ (launching 0 1).dropOrphans.cands 0 = [] ∧
    (let s := waitingGang; s.gangPlan 4 ⟨0, 0, 0, 0, .waiting, [0], 1, 0⟩ = [(0, 0, 0)] ∧ SMap.get s.dispNext 0 0 ≤ s.tick ∧ s.readyAbove 0 0 = [] ∧ (s.freeBarrier 0).isSome = true ∧
      (match s.planPins 0 [(0, 0, 0)] with | .ok [.ok _ _ _] => true | _ => false) = true) := by
  decide +kernel

/-- A sound head of stops, the current one at `cur`, without data, and its one stop of a kind to tile or die d. -/
def headBytes (stops cur kind d : Nat) : List Byte :=
  leBytes 8 (stops * 2 ^ 11 + cur * 2 ^ 7) ++ leBytes 8 0 ++ leBytes 8 0 ++ leBytes 8 0 ++ leBytes 8 (2 ^ 16) ++ leBytes 24 0 ++ leBytes 8 0 ++ leBytes 8 (kind * 2 ^ 61 + d * 2 ^ 45) ++ List.replicate 176 0
/-- A state about to issue a WRK trigger with head bytes at 0x1000 current, or none; of strand 7's visit the arrival head's slot. -/
def editing (i : Instr) (cur : Bool) (head : List Byte) (m0 a b : Nat) : State :=
  let s := (asking i 9 m0 a b 0).modStrand 0 0 fun x => { x with ccap := if cur then 0x1000 else 0 }
  ({ s with mem := memWrite s.mem (tileBase 0 + 0x1000) head }).modCtx 0 fun c => { c with st := .running, region := some ⟨0, 0, 1, 1⟩ }
theorem witness_CapsuleTriggerEffects :
    (∀ q ∈ [(0x1000, 0), (0x1001, 0), (0x7FFC0, 16)], (editing (.capnew fromM0) false [] q.1 q.2 0).Issues (readyBy 4) 9 { capNeed true false with result := some 9 } fromM0 ⟨BitVec.ofNat 1024 q.2, 0, 0, BitVec.ofNat 1024 q.1⟩) ∧
    (∀ cur : Bool, ∀ v ∈ [(0 : Nat), 1, 0x1000], (editing (.capins fromM0) cur (headBytes 1 0 0 0) v 5 6).Issues (readyBy 4) 9 (capNeed true true) fromM0 ⟨5, 6, 0, BitVec.ofNat 1024 v⟩ ∧
      (editing (.capdel fromM0) cur (headBytes 1 0 0 0) v 0 0).Issues (readyBy 4) 9 (capNeed false false) fromM0 ⟨0, 0, 0, BitVec.ofNat 1024 v⟩ ∧
      (editing (.caprd fromM0) cur (headBytes 1 0 0 0) v 0 0).Issues (readyBy 4) 9 { access := true, loads := true, result := some 9 } fromM0 ⟨0, 0, 0, BitVec.ofNat 1024 v⟩ ∧
      (editing (.capnxt fromM0) cur (headBytes 1 0 0 0) v 0 0).Issues (readyBy 4) 9 { capNeed false false with commit := false } fromM0 ⟨0, 0, 0, BitVec.ofNat 1024 v⟩) ∧
    (∀ q ∈ [(0 : Nat), 10, 0x10, 0x30, 2 ^ 32 + 0x2000, 0], (editing (.capset fromM0) true (headBytes 1 0 0 0) 0x1000 q 0).Issues (readyBy 4) 9 (capNeed true false) fromM0 ⟨BitVec.ofNat 1024 q, 0, 0, 0x1000⟩) := by
  refine ⟨fun q hq => issues ?_, fun cur v hv => ?_, fun q hq => issues ?_⟩
  · revert q; decide +kernel
  · refine ⟨issues ?_, issues ?_, issues ?_, issues ?_⟩ <;> (revert cur v; decide +kernel)
  · revert q; decide +kernel
theorem witness_CapsuleTriggerEffects_heads :
    (∀ q ∈ [(0, 0), (1, 0), (2, 0), (3, 0)], let s := editing (.capsend fromM0) true (headBytes 1 0 q.1 0) 0x1000 0 0; let cap := s.capsuleAt (readyBy 4) 0x1000;
      headOk cap 0x1000 = true ∧ stopRefusal (s.ctx 0) (setHead (setHead cap 0 20 12 0) 0 20 12 0) (capCur cap) = none ∧ stopKind cap (capCur cap) = q.1 ∧ s.moduleRelease (readyBy 4) = true ∧ s.capsulesQueued 0 < 16 ∧ (s.ctx 0).st ≠ .destroyed) ∧
    (let s := editing (.capins fromM0) true (headBytes 1 0 0 0) 0 0 0; let bs := s.capRead (readyBy 4) 0x1000 320; let x := s.strand 0 0; x.lowStop bs = 0 ∧ capStops bs = 1 ∧ descriptorOk 0 = true ∧
      regReady (s.core 0) 0 x codeKsel (readyBy 4).seq (readyBy 4).step = true ∧ capField 0 = some (0, 17, 3) ∧ capField 10 = some (0, 7, 4) ∧ capField 0x30 = none ∧ capAccepts bs false 0 7 = true ∧ capAccepts bs false 0 8 = false ∧
      capAccepts bs false 0x10 7 = true ∧ capFork (s.capsuleAt (readyBy 4) 0x1000) = 0 ∧ headOk (s.capsuleAt (readyBy 4) 0x1000) 0x1040 = true ∧ headOk (s.capsuleAt (readyBy 4) 0x1000) 0x1001 = false) ∧
    (let s := editing (.capsend fromM0) true (headBytes 1 1 0 0) 0x1000 0 0; let cap := s.capsuleAt (readyBy 4) 0x1000; stopRefusal (s.ctx 0) (setHead (setHead cap 0 20 12 0) 0 20 12 0) (capCur cap) = some 2) ∧
    (let s := (editing (.capnxt fromM0) false (headBytes 1 0 0 0) (arrivalBase 0) 0 0).modStrand 0 0 fun x => { x with capVisit := some 0 }; let x := s.strand 0 0; x.visits = true ∧ some (arrivalBase 0) = x.arrivalHead ∧
      headOk (s.capRead (readyBy 4) (arrivalBase 0) 256) (arrivalBase 0) = true ∧ s.mayEnd (readyBy 4) = true ∧ s.moduleRelease (readyBy 4) = true ∧ s.visitBusy 0 = false) := by
  decide +kernel

/-- Tile 0 with a kernel for capsules, its handler 0 at bundle 3, at an event that brings a capsule. -/
def receiving (bs : List Byte) : State :=
  let h := { testHeader with caps := true, kslot := 0 }
  withEv { opTile 0 with bytes := bs } ((State.reset.modTile 0 fun y => { y with kernel := some (0, h), handlers := [0x8003] }).modCtx 0 fun c => { c with st := .running, region := some ⟨0, 0, 1, 1⟩, kernels := [(0, ⟨0, h, .running, 1, 0, [], 0⟩)] })
theorem witness_CapsuleEventEffects_arrival :
    (let s := receiving (headBytes 1 0 0 0); let m := memWrite s.mem (tileBase 0 + arrivalBase 0) ((headBytes 1 0 0 0).take 256 ++ capData (headBytes 1 0 0 0)); let bs := (s.setMem m).slotCapsule 0 0;
      (s.tile 0).stopped = false ∧ (s.ctx 0).st ≠ .destroyed ∧ capCtx bs = 0 ∧ (s.tile 0).capWait = [] ∧ (s.tile 0).capSlots.findIdx? (fun q => q.isNone) = some 0 ∧ capKernel bs = 0 ∧
      (SMap.lookup (s.ctx (capCtx bs)).kernels (capKernel bs)).isSome = true ∧ ((s.tile 0).handler (stopHandler bs (capCur bs))).isSome = true) ∧
    (let s := (receiving (headBytes 1 0 0 0)).modTile 0 fun y => { y with capSlots := [some ⟨0, true, true⟩, some ⟨1, false, true⟩] }; (s.tile 0).capSlots.findIdx? (fun q => q.isNone) = none ∧
      (s.strand 0 7).st = .free ∧ (s.tile 0).oldestArrived = some 1 ∧ ((s.tile 0).capSlots.getD 1 none).any CapSlot.ready = true ∧ capKernel (s.slotCapsule 0 1) = 0 ∧ capCtx (s.slotCapsule 0 1) = 0 ∧ (s.tile 0).handler (stopHandler (s.slotCapsule 0 1) (capCur (s.slotCapsule 0 1))) = some 3) := by
  decide +kernel
/-- A message packet at a router. -/
def testPkt (at_ dst : Nat) : Packet :=
  { src := at_, at_ := at_, dst := dst, more := [], num := 3, vn := vnMessage, plane := 0, prio := 0, ready := 0, since := 0, headAt := none, ctx := 0, inn := 4, tunnel := [], flit := none, sent := 0, burst := none, kept := none,
    act := .clockGate, op := opTile dst }
theorem witness_CapsuleEventEffects_meet :
    (∀ q ∈ [(1, true), (2, false)], let bs := setHead (headBytes 2 0 1 0) 4 16 8 q.1; meetFits bs none = true ∧ (∃ g w, meetFormat (capFmt bs) = some (g, w)) ∧ decide (capForks bs ≤ 1) = q.2 ∧ capCtx bs = 0) ∧
    (let bs := setHead (headBytes 2 0 1 0) 4 16 8 0; meetFits bs none = false) ∧
    (let s := receiving []; let m : Meet := ⟨0, 0, 0, 1, some 0, [⟨0, headBytes 2 0 1 0, [], none⟩]⟩; let out := setHead (m.combine 1) 0 7 4 (capCur (m.combine 1) + 1); let sent := setHead out 0 20 12 0;
      stopRefusal (s.ctx 0) sent (capCur sent) = none ∧ stopKind sent (capCur sent) = 0) ∧
    (let p := { testPkt 0 1 with vn := vnCapsule, act := .capsuleArrival, headAt := some 0 }; let s := { (((receiving []).modCtx 0 fun c => { c with region := some ⟨0, 0, 2, 1⟩ }).modTile 1 fun y => { y with stopped := true }) with pkts := [(3, p)] };
      SMap.lookup s.pkts 3 = some p ∧ p.frozenAhead s = true ∧ p.queued = true ∧ p.carrier = false ∧ (s.tile p.at_).stopped = false) := by
  refine ⟨fun q hq => ⟨?_, ⟨fp32, 4, ?_⟩, ?_, ?_⟩, by decide +kernel⟩ <;> (revert q; decide +kernel)

/-- A state about to issue an MTX trigger, with a live slate or none and n tokens at every entry lane and the north port. -/
def arraying (i : Instr) (act : Bool) (n m0 a : Nat) : State :=
  (asking i 14 m0 a 0 0).modCollar 0 fun k => { k with act := act, lanes := List.replicate 4 (List.replicate n (dataTok true true true 3 0xFF 0 5)), wport := List.replicate n (dataTok true true true 3 0xFF 0 5) }
theorem witness_ArrayTriggerEffects :
    (∀ act : Bool, ∀ v ∈ [(5 : Nat), 1024, 0x50005, 2 ^ 19, 6, 7, 2 ^ 33], (arraying (.push fromM0) act 2 v 0).Issues (readyBy 7) 14 (mtxNeed false) fromM0 ⟨0, 0, 0, BitVec.ofNat 1024 v⟩) ∧
    (arraying (.loadm fromM0) true 2 9 3).Issues (readyBy 7) 14 (mtxNeed true) fromM0 ⟨3, 0, 0, 9⟩ ∧
    (let s := arraying (.push fromM0) true 2 5 0; (s.collar 0).live = true ∧ (s.arr 0).hasCredit = true ∧ s.tooClose (readyBy 7) = false ∧ (s.collar 0).lanes.any List.isEmpty = false ∧ (s.collar 0).wport.length = 2 ∧
      (s.arr 0).weights.length = 2 ∧ (s.arr 0).meta_.length = 2 ∧ (s.arr 0).turn = 0 ∧ modeH 6 ≠ modeH (s.arr 0).mode ∧ (s.arr 0).busyFor (readyBy 7).step = false ∧ { s.arr 0 with lastIn := some (readyBy 7).step }.busyFor (readyBy 7).step = true) := by
  refine ⟨fun act v hv => issues ?_, issues ?_, by decide +kernel⟩
  · revert act v; decide +kernel
  · decide +kernel

/-- An entry of row 2 of a kind, at PROMOTE 12 of tile 0, which is active or off. -/
def promoting (on : Bool) (kind : ArrKind) : State :=
  withEv (opNode 0 12) (State.reset.modNode 0 12 fun nd => { nd with st := if on then .active else .off, entries := [⟨0, 1, kind, 2, 7, 0, 0, 0, [], 0x3F800000, 0x3F800000, List.replicate 32 0, 0, none⟩], store := [(8, 5)] })
theorem witness_ArrayEventEffects : ∀ on : Bool, ∀ kind ∈ [ArrKind.push, .pusha, .drain, .aclr], ∃ e, ((promoting on kind).node 0 12).entries = [e] ∧ e.kind = kind ∧
    ((promoting on kind).node 0 12).st = (if on then .active else .off) ∧ ((promoting on kind).node 0 12).active.bad = false := by
  intro on kind hk; exact ⟨_, rfl, rfl, by revert on kind; decide +kernel, by revert on kind; decide +kernel⟩

/-- A state about to issue a COL trigger: slot 1 of the slate store valid, an active slate, the latest switch token of pass 3, and node 1 held by a cause, and raised. -/
def collaring (i : Instr) (sst : ShadowState) (cause m0 a : Nat) : State :=
  ((asking i 15 m0 a 0 0).modCollar 0 fun k => { k with act := true, sst := sst, slates := [(1, { Slate.reset with valid := true })], last := some (switchTok 7 3 0 3 1 false), raised := some 1, num := 1 }).modNode 0 1
    fun nd => { nd with st := .held, hold := some ⟨cause, 5, false⟩ }
theorem witness_CollarTriggerEffects :
    (∀ sst ∈ [ShadowState.empty, .loading, .failed], ∀ v ∈ [(1 : Nat), 0, 4, 257, 2 ^ 52], (collaring (.sload fromM0) sst 1 v 0).Issues (readyBy 7) 15 (colNeed false true) fromM0 ⟨0, 0, 0, BitVec.ofNat 1024 v⟩ ∧
      (collaring (.fire fromM0) sst 1 v 0).Issues (readyBy 7) 15 { colNeed false true with loads := true, access := true } fromM0 ⟨0, 0, 0, BitVec.ofNat 1024 v⟩ ∧
      (collaring (.cstat fromM0) sst 1 v 0).Issues (readyBy 7) 15 { colNeed false false with result := some 15 } fromM0 ⟨0, 0, 0, BitVec.ofNat 1024 v⟩) ∧
    (∀ q ∈ [(1, 3), (0, 1), (2, 2 ^ 52), (1, 0), (256, 0x8001), (5, 0x101), (1, 63)], (collaring (.spart fromM0) .empty 1 q.1 q.2).Issues (readyBy 7) 15 (colNeed true true) fromM0 ⟨BitVec.ofNat 1024 q.2, 0, 0, BitVec.ofNat 1024 q.1⟩) := by
  refine ⟨fun sst hs v hv => ⟨issues ?_, issues ?_, issues ?_⟩, fun q hq => issues ?_⟩
  · revert sst v; decide +kernel
  · revert sst v; decide +kernel
  · revert sst v; decide +kernel
  · revert q; decide +kernel
theorem witness_CollarTriggerEffects_collar :
    (let s := collaring (.fire fromM0) .empty 1 5 0; let k := s.collar 0; s.switchHeld (readyBy 7) 3 = false ∧ s.switchHeld (readyBy 7) 0 = false ∧ k.act = true ∧ k.last = some (switchTok 7 3 0 3 1 false) ∧
      (k.slate 1).valid = true ∧ (k.slate 0).valid = false ∧ (s.specialValue (readyBy 7) .lc0).isSome = true ∧ s.formatBase (readyBy 7) = some 0 ∧ k.raised = some 1 ∧ (s.node 0 1).hold = some ⟨1, 5, false⟩ ∧
      nodeKind 1 ≠ .port ∧ (s.node 0 1).shadow.p.length = 8 ∧ k.lidx < 32 ∧ k.rcnt < 2 ^ 16 ∧ k.pass < 2 ^ 16) ∧
    ((collaring (.fire fromM0) .failed 1 5 0).switchHeld (readyBy 7) 0 = false) ∧
    (let s := (collaring (.fire fromM0) .empty 1 5 0).modCollar 0 fun k => { k with act := false }; (s.collar 0).act = false ∧ s.switchHeld (readyBy 7) 0 = false) := by
  decide +kernel

/-- FP32 token of ones, with a tail mark or not. -/
def tok32 (h t : Bool) : Tok := dataTok h t false 0 0xF 0 (packData 32 [0x3F800000, 0x3F800000, 0x3F800000, 0x3F800000])
/-- Node n of tile 0 ACTIVE with parameter P0 and a token at every input. -/
def noding (n : Nat) (p0 : W64) (x : Tok) : State :=
  withEv (opNode 0 n) (State.reset.modNode 0 n fun nd => { nd with st := .active, active := { Plane.reset with p := p0 :: List.replicate 7 0 }, ins := List.replicate 4 [x] })
/-- The one condition of every node: it may work. -/
def works (n : Nat) (p0 : W64) (x : Tok) : Bool :=
  let s := noding n p0 x; let nd := s.node 0 n
  decide (nd.st = .active) && !nd.active.bad && decide (nd.ins.length = 4) && nd.flows (s.core 0).stepc (nodeSteps n nd.active) && !nd.forced && decide (nd.headOf 0 = some x) && decide (nd.headOf 1 = some x)
theorem witness_CollarTokenEffects :
    (∀ q ∈ [(0, (0 : W64)), (2, 0), (13, 0), (13, 2), (14, 0), (15, 0), (45, 0xF0), (45, 0x14), (46, 0), (47, 0), (47, 2), (13, 0x8000000000000000)], works q.1 q.2 (tok32 true true) = true) ∧
    ((noding 13 0x8000000000000000 (tok32 true true)).node 0 13).active.byp = true ∧ ((noding 14 0 (tok32 true true)).node 0 14).active.byp = false ∧ ((noding 45 0x14 (tok32 true true)).node 0 45).active.along = true ∧
    ((noding 47 2 (tok32 true true)).node 0 47).active.jm = 2 ∧ ((noding 45 0xF0 (tok32 true true)).node 0 45).active.inm = 15 ∧ marksAgree (List.replicate 4 (tok32 true true)) = true ∧
    (let nd := { (noding 1 0 (tok32 true true)).node 0 1 with row := [dataTok true true false 1 0 0 0] }; nd.rowWhole = true ∧ nd.active.coop = false ∧ (nd.normScale nd.normSquares.1.toNat).1 = none) ∧
    (let nd := { (noding 44 0 (tok32 true true)).node 0 44 with row := List.replicate 4 (tok32 true true) }; nd.row.length = cornerTokens nd.active ∧ nd.out.length ≤ routeSteps 44 ∧ (∀ i ∈ [0, 1, 2, 3], ((nd.headOf i).any fun y => decide (y.kind = 1)) = false)) := by
  decide +kernel

theorem witness_PortAndSlateEffects_switch :
    (let x := switchTok 7 3 0 1 4 false; let s := (withEv { opNode 0 44 with arg := 2 } State.reset).modCollar 0 fun k => { k with offers := [(44, x)] };
      (s.collar 0).offers.find? (fun q => decide (q.1 = 44)) = some (44, x) ∧ (s.node 0 44).took < x.num ∧ (s.node 0 44).st = .off ∧ nodeKind 44 ≠ .port ∧ (s.node 0 44).sval = false ∧
      (let s := s.modNode 0 44 fun nd => { nd with sval := true }; s.switchRefusal 0 44 (s.node 0 44) x = none ∧ (s.node 0 44).shadow.bad = false) ∧
      (let s := s.modNode 0 44 fun nd => { nd with sval := true, shadow := { Plane.reset with p := [12], sel := [(4, 48)] } }; s.switchRefusal 0 44 (s.node 0 44) x = some (5, 0))) ∧
    (let s := (withEv (opNode 0 0) State.reset).modNode 0 0 fun nd => { nd with st := .repairing }; (s.tile 0).stopped = false ∧ (s.node 0 0).st = .repairing ∧ (s.node 0 0).active.ovl = false ∧ (s.node 0 0).since ≤ 64 ∧
      ((s.collar 0).slate (s.node 0 0).active.slot).badFor 0 = false) ∧
    (∀ coord ∈ [0, 1], ∀ sst ∈ [ShadowState.loading, .prepared], let s := (withEv { opTile 0 with id := 9 } State.reset).modCollar 0 fun k => { k with sst := sst, load := some ⟨9, 0, [1, 2], coord, false⟩ };
      ∃ l, (s.collar 0).load = some l ∧ l.id = s.ev.id ∧ l.coord = coord ∧ (s.collar 0).sst = sst ∧ (s.collar 0).queued = []) ∧
    (let s := (withEv { opTile 0 with id := 9, word := 1 } State.reset).modCollar 0 fun k => { k with regions := [⟨8, [2], [0, 2], false⟩, ⟨9, [1], [0, 1], false⟩], abort := true }; ∃ g, (s.collar 0).regions.find? (fun h => decide (h.id = s.ev.id)) = some g ∧
      (g.left.filter fun d => decide (d ≠ s.ev.word.toNat)) = [] ∧ (s.collar 0).abort = true) ∧
    ((State.reset.modTile 0 fun y => { y with stopped := true }).tile 0).stopped = true := by
  refine ⟨by decide +kernel, by decide +kernel, fun coord _ sst hs => ⟨_, rfl, rfl, rfl, rfl, rfl⟩, ⟨_, rfl, by decide +kernel, by decide +kernel⟩, by decide +kernel⟩
/-- A walk of one burst of two tokens of four words each, from 0x100. -/
def portWalk (begun : Bool) (buf : List Tok) : Walk :=
  { blk := ⟨0x100, [8, 1, 1, 1, 1, 1], [4, 0, 0, 0, 0, 0], 2, 0, 0, false, 0, 2, 0, 3, 1, 0, 0, false⟩, elem := 0, tok := 0, acc := [], begun := begun, start := 0, buf := buf, got := 0, credit := 1, sent := 0, eng := 0, closed := false, scl := none }
/-- PORT 48 of tile 0 with that walk. -/
def porting (dir arg : Nat) (begun : Bool) (buf : List Tok) (x : Tok) : State :=
  withEv { opNode 0 48 with arg := arg } ((State.reset.modNode 0 48 fun nd => { nd with st := .active, active := { Plane.reset with p := [BitVec.ofNat 64 (dir * 2 ^ 61)] }, ins := List.replicate 4 [x], walk := some (portWalk begun buf) }).modCore 0
    fun co => { co with stepc := 5 })
theorem witness_PortAndSlateEffects_port :
    (∀ dir ∈ [1, 2], let s := porting dir 0xFF false [] (tok32 false false); let nd := s.node 0 48; let w := portWalk false []; nd.walk = some w ∧ s.portGoes 0 48 = true ∧ s.ev.flag = false ∧
      w.elem < (nd.walkReach w fun b => s.ev.arg.testBit b).1 ∧ nd.headOf 0 = some (tok32 false false) ∧ w.tok < w.blk.tokens ∧ (nd.walkReach w fun b => s.ev.arg.testBit b).1 ≠ (nd.walkSpan w).1) ∧
    (∀ tl : Bool, let s := porting 4 0 true [] (tok32 false tl); let nd := s.node 0 48; let w := portWalk true []; nd.walk = some w ∧ w.closed = false ∧ nd.holdsTail tl = false ∧ w.buf.length + 1 < w.blk.blen ∧ nd.active.ordt = false ∧ w.blk.pep = 1) ∧
    (let s := porting 3 0 true [tok32 false false] (tok32 false false); let nd := s.node 0 48; let w := portWalk true [tok32 false false]; nd.walk = some w ∧ nd.out = [] ∧ nd.forced = false ∧ nd.holdsTail false = false) := by
  decide +kernel

def linked (st : LinkState) (dirs : List LinkDir) : Link := { Link.reset with st := st, dirs := dirs }
/-- Every link carries. -/
def allUp : State := { State.reset with linkBase := linked .up (List.replicate 8 .fresh) }
/-- A packet whose one flit is on a link. -/
def onLink : State := withEv { opId 0 with word := 3 } { State.reset with linkBase := linked .up ({ LinkDir.fresh with nextSeq := 1, unacked := [(0, 3)] } :: List.replicate 7 .fresh), pkts := [(3, { testPkt 31 1024 with flit := some (0, 0, 0) })] }
theorem witness_NetworkEventEffects :
    (∀ q ∈ [(5, 5), (5, 6), (31, 32 * 32), (4095, 4095 + 1024)], let p := testPkt q.1 q.2; let s := withEv (opId 3) { allUp with pkts := [(3, p)] }; SMap.lookup s.pkts 3 = some p ∧ p.carrier = false ∧
      s.pickPacket p.key = some 3 ∧ SMap.get s.linkTick 0 p.key ≤ s.tick ∧ s.atHead 3 p = true ∧ s.outOfOrder p = false) ∧
    crossesDie 5 (routeDir 5 6) = false ∧ crossesDie 31 (routeDir 31 1024) = true ∧
    (let p := testPkt 31 1024; let id := (linkOut 31 (routeDir 31 1024)).1;
      (let s := { State.reset with pkts := [(3, p)] }; (s.link id).st = .down ∧ s.mayLeave p = false ∧ s.pickPacket p.key ≠ some 3) ∧
      (let s := { State.reset with linkBase := linked .fenced (List.replicate 8 .fresh), pkts := [(3, p)] }; (s.link id).carries = false ∧ s.pickPacket p.key = some 3) ∧
      linkIsZ id = false ∧ ((allUp.link id).dir 0).restart = false ∧ (allUp.link id).dirs.length = 8) ∧
    (linked .down []).carries = false ∧ (linked .degraded []).passes = true ∧
    ((0, 3) ∈ ((onLink.link 0).dir 0).unacked ∧ (onLink.flitOf 0 0 3 == some (true, true, 1, 0, 1, [])) = true ∧ 2048 ≤ (4095 + 4096 - 0) % 4096) ∧
    (let l := linked .training []; (l.retire false).2 = true ∧ l.fails < 2 ∧ l.laneUsed false 0 5 = true ∧ ({ l with halves := [some 0, none] } : Link).laneUsed false 0 5 = false) ∧ ((List.replicate 8 LinkDir.fresh).all fun d => d.unacked.isEmpty) = true ∧
    (∀ n ∈ [1, 2], let b := { testBurst n with here := false }; let s := withEv (opId 4) { State.reset with bursts := [(4, b)] }; SMap.lookup s.bursts 4 = some b ∧ b.done = false ∧ b.here = false ∧ stampOk (s.clock 1) b = decide (n = 1) ∧
      s.predecessor 4 b = false) ∧
    State.reset.noticeHeld 0 4 = true ∧ allUp.noticeHeld 0 4 = false ∧ State.reset.noticeHeld 0 1 = false ∧ (State.reset.clock 0).length = 8 := by
  refine ⟨?_, ?_, ?_, ?_, ?_, ?_, ?_, ?_, ?_, ?_, ?_⟩ <;> decide +kernel
/-- A flit that no bit of which is turned is sound. -/
theorem witness_NetworkEventEffects_sound (h : Config.corrupt 0 = 0) :
    flitSound (leBytes 128 (BitVec.ofNat 1024 (leNat (flitBytes (flitHeader 0 0 1 3 true true) [])) ^^^ Config.corrupt 0).toNat) true true = true := by
  rw [h]; decide +kernel
/-- A Z port that carries is reached wherever the ring has more modules than one. -/
theorem witness_NetworkEventEffects_ring (h : 1 < moduleCount) :
    let s := { allUp with bursts := [(4, testBurst 1)] }
    s.zReaches 1 = true ∧ ((s.link (zPort 1)).dir 0).unacked = [] ∧ (s.link (zPort 1)).dirs ≠ [] :=
  ⟨(by simp only [State.zReaches, decide_eq_true h, Bool.true_and]; decide +kernel), by decide +kernel, by decide +kernel⟩

/-- The module up, owned by master 0, with a running context 1 of one launch ring of 64 entries. -/
def owning (o : Operand) (w : Owner) : State :=
  withEv o ({ State.reset with phase := 5, owner := w }.modCtx 1 fun c => { c with st := .running, qcap := 6, launchQs := [LaunchQ.reset] })
theorem witness_HostEventEffects :
    (∀ p ∈ [0, 3, 4], (withEv Operand.zero { State.reset with phase := p }).phase < 5) ∧
    (let s := { owning Operand.zero (.electing []) with waiting := [⟨2, 0, [BitVec.ofNat 64 (2 ^ 48)], false⟩, ⟨0, 0, [BitVec.ofNat 64 (2 ^ 48)], false⟩] }; s.waiting.filter (fun c => decide (c.opcode = 1)) ≠ [] ∧ (∀ c ∈ s.waiting, c.gone = false) ∧ State.reset.waiting.filter (fun c => decide (c.opcode = 1)) = []) ∧
    (let s := { owning { Operand.zero with flag := true } (.owned 0) with upPorts := [0] }; s.owner = .owned s.ev.node ∧ s.ev.node < 2 ∧ s.ev.node ∈ s.upPorts ∧ State.reset.linkLost 0 = false ∧ s.masterPresent 0 = true ∧ 0 ∉ State.reset.upPorts ∧ 0 ∉ State.reset.d3hot) ∧
    (∀ q ∈ [(0, 8, true), (0, 0x1008, true), (0, 0x8000, true), (2, 0x8000, false), (0, 0x2000, true), (0, 0x10F8, true), (0, 0x11F8, true)], State.reset.reaches q.1 q.2.1 = q.2.2) ∧
    (let s := { owning { Operand.zero with id := 0x8008 } (.owned 0) with pba := [0] }; (({ s with msix := SMap.setD s.msix 0 1 5 } : State).msixWord 0 1).testBit 32 = false ∧ 0 ∈ s.pba) ∧
    (owning (opId 0x40040) (.owned 0)).aperture 0x40040 = some (1, 0) ∧ windowReaches 8 = true ∧ State.reset.physRead 8 1 = some [0] ∧
    (State.reset.master 0).mbst.getLsbD 1 = false ∧ (({ State.reset with masters := [(0, { Master.reset with mbst := 2 })] } : State).master 0).mbst.getLsbD 1 = true ∧ commandOf ⟨0, 0, [BitVec.ofNat 64 (2 ^ 48)], false⟩ = some .claim ∧ commandOf ⟨0, 0, [], false⟩ = none ∧
    (let s := owning (opId 0x40000) (.owned 0); s.aperture 0x40000 = some (1, 0) ∧ (s.ctx 1).st ≠ .destroyed ∧ ((s.ctx 1).launchQs.getD 0 LaunchQ.reset).pidx - ((s.ctx 1).launchQs.getD 0 LaunchQ.reset).cidx < 2 ^ (s.ctx 1).qcap) ∧
    (owning (opId 0x40020) (.owned 0)).aperture 0x40020 = some (1, 0) ∧ (owning (opId 0x40020) .unowned).aperture 0x40020 = some (1, 0) ∧
    (let s := (owning (opId 0x40000) (.owned 0)).modCtx 1 fun c => { c with launchQs := [{ LaunchQ.reset with pidx := 64 }] }; s.aperture 0x40000 = some (1, 0) ∧ 2 ^ (s.ctx 1).qcap ≤ ((s.ctx 1).launchQs.getD 0 LaunchQ.reset).pidx - ((s.ctx 1).launchQs.getD 0 LaunchQ.reset).cidx) := by
  decide +kernel

/-- A page job under number 3, of the page at 0x10000 of context 0. -/
def paging (k : PageJobKind) (pin : Nat) : State :=
  withEv (opId 3) { pooled State.reset with pageJobs := [(3, ⟨k, 0, 0x10000, 0x4008, 0x10000, 2, false, some 0⟩)], pins := if pin = 0 then [] else [(0x4008, pin)] }
theorem witness_PageEventEffects :
    (∀ va ∈ [0x10000, 0x20000], let w : PWalk := ⟨0, 0, va, true, [(.hbmRead, opId 4)], [(0, 1)], true⟩; let s := withEv (opId 3) { pooled State.reset with walks := [(3, w)] }; let s1 := { s with walks := SMap.erase s.walks 3 };
      SMap.lookup s.walks s.ev.id = some w ∧ (s1.pageWalk w.ctx w.va).isSome = decide (va = 0x10000)) ∧
    (∀ q ∈ [(none, 0, 0), (some 3, 0, 1), (some 3, 0, 0), (some 3, 1, 1)], let r := { testReq .load 8 0 with lid := q.1, level := q.2.1 };
      let s := withEv (opId 3) (({ State.reset with reqs := [(3, r)] }.modCore 0 fun co => { co with lands := [testLand none] }).modStrand 0 r.strand fun x => { x with depth := q.2.2 });
      SMap.lookup s.reqs s.ev.id = some r ∧ ((s.core r.tile).lands.any fun a => decide (some a.lid = r.lid) && decide (a.strand = r.strand)) = q.1.isSome ∧ (s.strand r.tile r.strand).depth = q.2.2) ∧
    (∀ k ∈ [PageJobKind.revive, .reclaim, .drain, .copy], ∀ pin ∈ [0, 1], let s := paging k pin; (SMap.lookup s.pageJobs s.ev.id).map (fun j => j.kind) = some k ∧ leafV (s.leafWord 0x4008) = true ∧ s.reqsIn (s.leafWord 0x4008) 0x10000 true = false ∧ s.held = [] ∧
      s.reqsIn (s.leafWord 0x4008) 0x10000 false = false ∧ SMap.get s.pins 0 0x4008 = pin ∧ pageCopies (s.leafWord 0x4008) = [0]) ∧
    (let r := testReq .arrive 8 0; let s := withEv (opId 3) (({ State.reset with reqs := [(3, r)] }.modCore 0 fun co => { co with lands := [testLand none] }).modStrand 0 r.strand fun x => { x with arrival := some ⟨8, 3, 0, true⟩ });
      SMap.lookup s.reqs s.ev.id = some r ∧ ((s.core r.tile).lands.any fun a => decide (some a.lid = r.lid) && decide (a.strand = r.strand)) = true ∧ r.kind.replyKind ≠ 0) ∧
    (let s := { paging .reclaim 0 with reqs := [(9, { testReq .load 8 1 with pa := 0x10008 })] }; s.reqsIn (s.leafWord 0x4008) 0x10000 false = true) := by
  decide +kernel

/-- Cluster 3 with a claim the arbiter has seen, and fields. -/
def boosting (g f z r : Bool) (b : Nat) : State := State.reset.modCluster 3 fun k => { k with claims := [⟨7, 1, 2, 0⟩], seen := if z then [] else [⟨7, 1, 2, 0⟩], grant := g, fall := f, raised := r, balance := b }
theorem witness_PowerEventEffects :
    (let s := withEv (opTile 9) (State.reset.modTile 9 fun y => { y with quiet := 64, gated := false, poked := false }); 64 ≤ (s.tile 9).quiet ∧ (s.tile 9).gated = false ∧ (s.tile 9).poked = false) ∧
    (let s := withEv (opTile 9) (State.reset.modTile 9 fun y => { y with gated := true, wakeAt := none }); (s.tile 9).gated = true ∧ (s.tile 9).wakeAt = none ∧ 9 ∉ SMap.get s.inrush [] (clusterOf 9)) ∧
    (let s := { State.reset with inrush := [(0, List.range 9)] }; 8 < (SMap.get s.inrush [] 0).length) ∧ (State.reset.cluster 5).sensors.length = 8 ∧
    (let s := boosting false false false false 1; ((s.cluster 3).claims.any fun d => d.sameAs ⟨7, 1, 2, 0⟩) = true) ∧
    (∀ q ∈ [(true, false, true, false), (true, true, false, true), (true, false, false, true), (false, false, false, false), (false, false, true, false)],
      let s := (boosting q.1 q.2.1 q.2.2.1 q.2.2.2 1).modTile 6 (fun y => { y with gated := false }); let k := s.cluster 3; k.grant = q.1 ∧ k.fall = q.2.1 ∧ k.seen.isEmpty = q.2.2.1 ∧ k.raised = q.2.2.2 ∧ k.forced = false ∧ k.balance = 1 ∧ s.rail = .low ∧
        s.clusterGated 0 = false ∧ (∀ j ∈ List.range 32, j ≠ 3 → (s.cluster j).seen = [] ∧ (s.cluster j).grant = false)) ∧
    ((boosting true false false true 0).cluster 3).balance = 0 ∧ (boosting false false false false 1).bestClaimant = some 3 ∧ ({ State.reset with rail := .rising 5 } : State).rail = .rising 5 := by
  decide +kernel

/-- A command of master 0 with arguments. -/
def cmd0 (op : Nat) (args : List Nat) : Command := ⟨0, 7, BitVec.ofNat 64 (op * 2 ^ 48 + args.length * 2 ^ 40) :: args.map (BitVec.ofNat 64), false⟩
/-- The module owned by master 0, carrying out a command, with context 1 in a state on the first cluster. -/
def carrying (c : Command) (st : CtxState) (ws : List Wave) : State :=
  { (withEv (opId 1) { State.reset with phase := 5, owner := .owned 0, mcp := some c, waves := ws }).modCtx 1 fun x => { x with st := st, region := if st = .created ∨ st = .none then none else some ⟨0, 0, 1, 1⟩, launchQs := [LaunchQ.reset], qcap := 6 } with tick := 100 }
theorem carries_of {c : Command} {i : Instr} {own : Bool} {ms : List Nat} {st : CtxState} {ws : List Wave}
    (h : commandOf c = some i ∧ c.clean ms = true ∧ c.master = 0) : (carrying c st ws).Commands c i own ms :=
  ⟨rfl, h.1, h.2.1, rfl, fun _ => by rw [h.2.2]; rfl⟩
theorem witness_ContextLifecycleEffects :
    (let c := cmd0 0x10 [1, 0x0600, 0x0606, 0x10000, 0x100000, 16, 0x200000, 12]; ∀ st ∈ [CtxState.none, .destroyed, .bound], (carrying c st []).Commands c .ctxCreate true [0x7FFF, 0x1F3F, 0x1F1F, mask64, mask64, mask64, mask64, mask64] ∧
      c.arg 4 + ringAreaSize 1 6 6 6 ≤ 2 ^ 52 ∧ c.arg 7 + 0x4000 * (2 ^ 6 + 2 ^ 6) ≤ 2 ^ 52) ∧
    (∀ a ∈ [0, 1], let c := cmd0 0x11 [1, a]; ∀ st ∈ [CtxState.created, .frozen], let s := (carrying c st []).modCtx 2 fun x => { x with region := some ⟨1, 0, 1, 1⟩ }; s.Commands c .ctxBind true [mask64, 0x3737, mask64] ∧ (st = .created → s.regionTaken ⟨a, 0, 1, 1⟩ = decide (a = 1))) ∧
    (let c := cmd0 0x12 [1, 50]; ∀ st ∈ [CtxState.running, .frozen], (carrying c st []).Commands c .ctxFreeze true [mask64, mask64] ∧ (carrying c st []).waveOf 1 = none ∧ ((carrying c st []).ctx 1).st = st) ∧
    (∀ b ∈ [true, false], let w : Wave := ⟨1, 100, b, [], false⟩; let s := carrying (cmd0 0x12 [1, 0]) .running [w]; s.waveOf s.ev.id = some w ∧ (s.ctx 1).region = some ⟨0, 0, 1, 1⟩ ∧ s.underWay 1 = false ∧ (s.tile 0).stopped = false) ∧
    (let s := { carrying (cmd0 0x12 [1, 0]) .running [] with pkts := [(0, { testPkt 1 2 with ctx := 1 })] }; s.underWay 1 = true) ∧
    (let c := cmd0 0x14 [1, 0x10000]; ∀ st ∈ [CtxState.running, .frozen], (carrying c st []).Commands c .ctxEvict true [mask64, mask64]) ∧
    (let c := cmd0 0x13 [1]; ∀ st ∈ [CtxState.running, .frozen, .bound], (carrying c st []).Commands c .ctxThaw true [mask64]) ∧
    (let c := cmd0 0x15 [1]; ∀ st ∈ [CtxState.none, .destroyed, .frozen, .running], (carrying c st []).Commands c .ctxDestroy true [mask64]) ∧
    (let s := carrying (cmd0 0x14 [1, 0x10000]) .frozen []; (s.ctx s.ev.id).st = .frozen ∧ (s.ctx s.ev.id).region = some ⟨0, 0, 1, 1⟩ ∧ s.phase = 5 ∧ s.owner = .owned s.ev.strand) := by
  refine ⟨fun st _ => ⟨carries_of (by decide +kernel), by decide +kernel⟩, fun a ha st hst => ⟨?_, ?_⟩, fun st hst => ⟨carries_of (by decide +kernel), ?_⟩, by decide +kernel, by decide +kernel,
    fun _ _ => carries_of (by decide +kernel), fun _ _ => carries_of (by decide +kernel), fun _ _ => carries_of (by decide +kernel), by decide +kernel⟩
  · exact ⟨rfl, by revert a; decide +kernel, by revert a; decide +kernel, rfl, fun _ => rfl⟩
  · revert a st; decide +kernel
  · revert st; decide +kernel

theorem witness_MailboxCommandEffects :
    (∀ st own, (∀ q ∈ [(0x01, [], Instr.claim, []), (0x02, [2], .handover, [mask64]), (0x03, [], .reset, []), (0x04, [1], .status, [mask64]), (0x16, [1, 1], .queuePause, [mask64, mask64]), (0x17, [1, 1], .queueResume, [mask64, mask64]), (0x30, [1, 0x1000], .ptRoot, [mask64, mask64]),
        (0x31, [1, 0, 0], .tlbShootdown, [mask64, mask64, mask64]), (0x34, [128], .rawRead, [mask64]), (0x40, [3], .sensorRead, [mask64]), (0x41, [0, 1], .counterRead, [mask64, mask64, mask64]), (0x41, [1, 0x400, 3], .counterRead, [mask64, mask64, mask64]), (0x42, [], .eventRead, []),
        (0x20, [1, 0x10000, 0], .kernelInstall, [mask64, mask64, 0x7_7FF1_FF37]), (0x21, [1, 0], .kernelRemove, [mask64, mask64]), (0x60, [1], .attest, List.replicate 6 mask64), (0x61, [], .identityCert, []), (0x6F, [0], .outputRead, [mask64]),
        (0x32, [1, 0x10000, 2], .pageMigrate, [mask64, mask64, mask64]), (0x33, [1, 0x10000], .pageReclaim, [mask64, mask64])], let s := carrying (cmd0 q.1 q.2.1) st []; s.Commands (cmd0 q.1 q.2.1) q.2.2.1 own q.2.2.2 ∧ s.mcpQ = [])) ∧
    (let c := cmd0 0x02 [2]; State.reset.masterPresent 2 = true ∧ State.reset.masterPresent 7 = false ∧ c.gone = false ∧ 2 ∉ State.reset.d3hot ∧ State.reset.linkLost 2 = false ∧ (cmd0 0x02 [2, 5]).clean [mask64] = false ∧ c.arg 1 = 2) ∧ isUsableHbm 0x1000 = true ∧ isUsableHbm 128 = true ∧ canonicalLink 0x400 = some 0x400 ∧
    (∀ ds ∈ [0x1010F, 0x1011F], let s := { (carrying (cmd0 0x32 [1, 0x10000, 2]) .running []).modCtx 1 fun x => { x with root := 0x1000 } with
        mem := memWrite (memWrite (memWrite (memWrite [] 0x1000 (leBytes 8 0x2001)) 0x2000 (leBytes 8 0x3001)) 0x3000 (leBytes 8 0x4001)) 0x4008 (leBytes 8 ds), tags := (pooled State.reset).tags };
      s.pageWalk 1 0x10000 = some (0x4008, BitVec.ofNat 64 ds, 3) ∧ leafDS (BitVec.ofNat 64 ds) = (if ds = 0x1010F then 0 else 1) ∧ leafMig (BitVec.ofNat 64 ds) = 0 ∧ leafP (BitVec.ofNat 64 ds) = false ∧ s.jobOf 0x4008 = none ∧ SMap.get s.pins 0 0x4008 = 0 ∧
      frameOk 2 (levelSize 3) = true ∧ (s.ctxRead 1 0x10000 4096).isSome = decide (ds = 0x1010F ∨ ds = 0x1011F)) ∧
    (let bs := setWord (setWord (setWord (List.replicate 4096 0) 0 (0x5637 * 2 ^ 48 + 2 ^ 40 + 2 ^ 16)) 1 (2 ^ 61 + 7 * 2 ^ 58 + 64)) 3 0; headerRefusal bs = 0 ∧ (headerOf bs).nslt = 0 ∧ headerRefusal (List.replicate 4096 0) = 1) := by
  refine ⟨fun st own q hq => ⟨carries_of ?_, rfl⟩, by decide +kernel⟩
  revert q; decide +kernel

theorem witness_LinkCommandEffects :
    (∀ st, (∀ q ∈ [(0, 0, Instr.linkTrain, 0), (1, 0, .linkRetrain, 0), (2, 0, .linkRetrainLaneReset, 0), (3, 0, .linkDrain, 0), (4, 2 ^ 32 + 2 ^ 16, .linkSetRwinRthr, mask64), (4, 1024 * 2 ^ 32 + 2 ^ 26, .linkSetRwinRthr, mask64), (5, 0x801, .linkEventMsixEnable, 0xFFF)],
      let c := cmd0 0x50 [0x400, q.1, q.2.1]; (carrying c st []).Commands c q.2.2.1 true [mask64, mask64, q.2.2.2])) ∧
    canonicalLink 0x400 = some 0x400 ∧ canonicalLink 1 = none ∧ linkIsY 0x400 = false ∧ linkIsY 0x800 = true ∧ (State.reset.link 0x400).st = .down ∧ (linked .fenced []).st = .fenced ∧ (linked .up []).carries = true ∧ (linked .up []).dirs = [] ∧
    (let c := cmd0 0x50 [0x400, 4, 1024 * 2 ^ 32 + 2 ^ 26]; c.arg 3 % 2 ^ 32 = 2 ^ (16 + 10) ∧ c.arg 3 / 2 ^ 32 = 1024) := by
  refine ⟨fun st q hq => carries_of ?_, by decide +kernel⟩
  revert q; decide +kernel

theorem witness_InstructionsNeverRefused : isMove (.nop false) = true ∧ isMove .claim = false ∧ (ready 0x800000).issuer ≠ none ∧ State.reset.issuer = none := by decide +kernel

theorem witness_StepRunsDecoded :
    (∀ q ∈ [((0x800000 : MoveWord), 1, 0, Instr.nop false), (0x070AC4, 2, 3, .ldb one)], let s := State.reset.withFetchWord 24 q.1.toNat; s.cur = some 0 ∧ (s.core 0).phase = .issue q.2.1 q.2.2.1 ∧ (s.core 0).issuing = some 0 ∧
      s.wordOf 0 0 q.2.2.1 = some q.1 ∧ isTriggerWord q.1 = decide (q.2.1 = 2) ∧ (s.core 0).issued = [] ∧ (decodeMove q.1).toOption = some q.2.2.2) ∧
    (let s := { State.reset with tick := 1 }; s.cur = none ∧ (s.agenda.headD (9, 0, .reset, Operand.zero)).1 ≤ s.tick) ∧
    (∀ p ∈ [Phase.start, .finish], let s := { State.reset with cur := some 0 }.modCore 0 fun co => { co with phase := p, todo := [(.resultEmerge, opTile 0)] }; (s.core 0).phase = p ∧ (s.core 0).todo = [(.resultEmerge, opTile 0)]) := by
  decide +kernel

theorem witness_DecodeAndEncodeAgree :
    (∀ i ∈ [Instr.suspendF true 3 3, .move false (.imm 511) (.v 31), .bfi ⟨true, .special .metaWord, true⟩ true, .npar ⟨false, .l 15, false⟩], i.wellFormed = true ∧ (encode i).isSome = true) ∧
    (decodeMove 0x047B0E).toOption = some (.frd ⟨false, .s 15, false⟩) := by decide +kernel

theorem witness_MemoryFormKept : State.reset.MemOk ∧ (match step State.reset with | .next _ => true | _ => false) = true := by decide +kernel

theorem witness_ComputeFrame : (∀ i ∈ [Instr.add one false, .sub one true, .mul one, .xa one, .addF32 one], (readyI i).issuer.isSome = true ∧ (match exec i (readyI i) with | .next _ => true | _ => false) = true) := by decide +kernel

theorem witness_LoadStoreFrame :
    (∀ d ∈ [0, 1], ((ready 0x070ACE).modStrand 0 0 fun x => { x with depth := d }).MemOk ∧ ((ready 0x070ACE).modStrand 0 0 fun x => { x with depth := d }).Issues (readyBy 3) 6 (storeNeed false false) one oneOpnds) ∧
    (∀ i ∈ [Instr.ldb one, .ldvs one, .ldvg one, .stb one, .stvm one, .stvs one, .stvx one], (match exec i (readyI i) with | .next _ => true | _ => false) = true) := by
  refine ⟨fun d hd => ⟨by revert d; decide +kernel, issues (by revert d; decide +kernel)⟩, by decide +kernel⟩

theorem witness_LineReadAfterWrite : State.reset.MemOk ∧ isUsableHbm (5 * 128) = true ∧ (List.replicate 128 (7 : Byte)).length = 128 := by decide +kernel

/-! ### Decoding: the words of R55-R63 and of the port tables R88-R103 -/

/-- A word decodes to an instruction, and the instruction encodes to the word. -/
def both (w : MoveWord) (i : Instr) : Bool :=
  (match decodeMove w with | .ok j => decide (j = i) | .error _ => false) && decide (encode i = some w)

/-- A word decodes to a trap. -/
def traps (w : MoveWord) (e : DecodeError) : Bool := match decodeMove w with | .ok _ => false | .error f => decide (f = e)

/-- CTL's assigned trigger ports, with the source `one` (0x0E1). -/
theorem test_decode_ctl : (
    [(0x070A04, .br one), (0x070A05, .brz one), (0x070A06, .brnz one), (0x070A07, .brn one), (0x070A08, .brnn one),
     (0x070A09, .jmp one), (0x070A0A, .call one), (0x070A0B, .ret one), (0x070A0C, .loop0 one), (0x070A0D, .loop1 one),
     (0x070A0E, .lexit one), (0x070A0F, .trap one), (0x070A10, .brk one), (0x070A11, .sleep one), (0x070A12, .waitl one)] :
    List (MoveWord × Instr)).all (fun q => both q.1 q.2) = true := by decide +kernel

/-- SYS's assigned trigger ports, with the source `one` (0x0E1). -/
theorem test_decode_sys : (
    [(0x070A24, .fence one), (0x070A25, .rdsr one), (0x070A26, .wrsr one), (0x070A27, .rft one), (0x070A28, .sclr one),
     (0x070A29, .fmtb one), (0x070A2A, .bclaim one), (0x070A2B, .brel one), (0x070A2C, .evsel one), (0x070A2D, .evrd one)] :
    List (MoveWord × Instr)).all (fun q => both q.1 q.2) = true := by decide +kernel

/-- INA's assigned trigger ports, with the source `one` (0x0E1). -/
theorem test_decode_ina : (
    [(0x070A44, .add one false), (0x070A45, .sub one false), (0x070A46, .and one false), (0x070A47, .or one false),
     (0x070A48, .xor one false), (0x070A49, .andn one false), (0x070A4A, .shl one false), (0x070A4B, .shr one false),
     (0x070A4C, .sar one false), (0x070A4D, .rol one false), (0x070A4E, .min one false), (0x070A4F, .max one false),
     (0x070A50, .minu one false), (0x070A51, .maxu one false), (0x070A52, .ceq one false), (0x070A53, .cne one false),
     (0x070A54, .clt one false), (0x070A55, .cltu one false), (0x070A56, .cle one false), (0x070A57, .cleu one false),
     (0x070A58, .sel one false), (0x070A59, .mov one false), (0x070A5A, .clz one false), (0x070A5B, .popc one false),
     (0x070A5C, .addw one false), (0x070A5D, .subw one false), (0x070A5E, .bfx one false), (0x070A5F, .bfi one false)] :
    List (MoveWord × Instr)).all (fun q => both q.1 q.2) = true := by decide +kernel

/-- INB's assigned trigger ports, with the source `one` (0x0E1). -/
theorem test_decode_inb : (
    [(0x070A64, .add one true), (0x070A65, .sub one true), (0x070A66, .and one true), (0x070A67, .or one true),
     (0x070A68, .xor one true), (0x070A69, .andn one true), (0x070A6A, .shl one true), (0x070A6B, .shr one true),
     (0x070A6C, .sar one true), (0x070A6D, .rol one true), (0x070A6E, .min one true), (0x070A6F, .max one true),
     (0x070A70, .minu one true), (0x070A71, .maxu one true), (0x070A72, .ceq one true), (0x070A73, .cne one true),
     (0x070A74, .clt one true), (0x070A75, .cltu one true), (0x070A76, .cle one true), (0x070A77, .cleu one true),
     (0x070A78, .sel one true), (0x070A79, .mov one true), (0x070A7A, .clz one true), (0x070A7B, .popc one true),
     (0x070A7C, .addw one true), (0x070A7D, .subw one true), (0x070A7E, .bfx one true), (0x070A7F, .bfi one true)] :
    List (MoveWord × Instr)).all (fun q => both q.1 q.2) = true := by decide +kernel

/-- IMD's assigned trigger ports, with the source `one` (0x0E1). -/
theorem test_decode_imd : (
    [(0x070A84, .mul one), (0x070A85, .mulh one), (0x070A86, .mulhu one), (0x070A87, .mulw one), (0x070A88, .div one),
     (0x070A89, .divu one), (0x070A8A, .rem one), (0x070A8B, .remu one), (0x070A8C, .mad one)] :
    List (MoveWord × Instr)).all (fun q => both q.1 q.2) = true := by decide +kernel

/-- ADR's assigned trigger ports, with the source `one` (0x0E1). -/
theorem test_decode_adr : (
    [(0x070AA4, .xa one), (0x070AA5, .xab one), (0x070AA6, .xlen one), (0x070AA7, .idx one), (0x070AA8, .openx one),
     (0x070AA9, .hdl one)] :
    List (MoveWord × Instr)).all (fun q => both q.1 q.2) = true := by decide +kernel

/-- LDS's assigned trigger ports, with the source `one` (0x0E1). -/
theorem test_decode_lds : (
    [(0x070AC4, .ldb one), (0x070AC5, .ldbs one), (0x070AC6, .ldh one), (0x070AC7, .ldhs one), (0x070AC8, .ldw one),
     (0x070AC9, .ldws one), (0x070ACA, .ldd one), (0x070ACB, .ldv one), (0x070ACC, .ldvs one), (0x070ACD, .ldvg one),
     (0x070ACE, .stb one), (0x070ACF, .sth one), (0x070AD0, .stw one), (0x070AD1, .std one), (0x070AD2, .stv one),
     (0x070AD3, .stvm one), (0x070AD4, .stvs one), (0x070AD5, .stvx one), (0x070AD6, .ldx one), (0x070AD7, .ldxv one),
     (0x070AD8, .stx one), (0x070AD9, .stxv one), (0x070ADA, .ltag one)] :
    List (MoveWord × Instr)).all (fun q => both q.1 q.2) = true := by decide +kernel

/-- MSG's assigned trigger ports, with the source `one` (0x0E1). -/
theorem test_decode_msg : (
    [(0x070AE4, .send one), (0x070AE5, .copy one), (0x070AE6, .stream one), (0x070AE7, .free one), (0x070AE8, .close one),
     (0x070AE9, .gathr one), (0x070AEA, .kexp one), (0x070AEB, .kclr one), (0x070AEC, .krd one), (0x070AED, .qfence one),
     (0x070AEE, .promise one)] :
    List (MoveWord × Instr)).all (fun q => both q.1 q.2) = true := by decide +kernel

/-- SYN's assigned trigger ports, with the source `one` (0x0E1). -/
theorem test_decode_syn : (
    [(0x070B04, .aadd one), (0x070B05, .amin one), (0x070B06, .amax one), (0x070B07, .aand one), (0x070B08, .aor one),
     (0x070B09, .axor one), (0x070B0A, .aswp one), (0x070B0B, .acas one), (0x070B0C, .afadd one), (0x070B0D, .red one),
     (0x070B0E, .frd one), (0x070B0F, .fwr one), (0x070B10, .frst one), (0x070B11, .barr one), (0x070B12, .barw one),
     (0x070B13, .bard one), (0x070B14, .bartw one), (0x070B15, .barq one)] :
    List (MoveWord × Instr)).all (fun q => both q.1 q.2) = true := by decide +kernel

/-- WRK's assigned trigger ports, with the source `one` (0x0E1). -/
theorem test_decode_wrk : (
    [(0x070B24, .capnew one), (0x070B25, .capsend one), (0x070B26, .capins one), (0x070B27, .capdel one), (0x070B28, .capset one),
     (0x070B29, .capfork one), (0x070B2A, .capnxt one), (0x070B2B, .capfin one), (0x070B2C, .caprd one), (0x070B2D, .nextw one),
     (0x070B2E, .spawn one), (0x070B2F, .regroup one), (0x070B30, .enq one)] :
    List (MoveWord × Instr)).all (fun q => both q.1 q.2) = true := by decide +kernel

/-- VEC's assigned trigger ports, with the source `one` (0x0E1). -/
theorem test_decode_vec : (
    [(0x070B44, .addF32 one), (0x070B45, .subF32 one), (0x070B46, .mulF32 one), (0x070B47, .fmaF32 one), (0x070B48, .minF32 one),
     (0x070B49, .maxF32 one), (0x070B4A, .absF32 one), (0x070B4B, .addH one), (0x070B4C, .mulH one), (0x070B4D, .fmaH one),
     (0x070B4E, .mulwlH one), (0x070B4F, .mulwhH one), (0x070B50, .addB one), (0x070B51, .fmaB one), (0x070B52, .addI32 one),
     (0x070B53, .subI32 one), (0x070B54, .mulI32 one), (0x070B55, .dot4I8 one), (0x070B56, .addsI8 one), (0x070B57, .vecAnd one),
     (0x070B58, .vecOr one), (0x070B59, .vecXor one), (0x070B5A, .vecShl one), (0x070B5B, .vecShr one), (0x070B5C, .vecSar one),
     (0x070B5D, .vecSel one)] :
    List (MoveWord × Instr)).all (fun q => both q.1 q.2) = true := by decide +kernel

/-- VCV's assigned trigger ports, with the source `one` (0x0E1). -/
theorem test_decode_vcv : (
    [(0x070B64, .cmpeqF32 one), (0x070B65, .cmpltF32 one), (0x070B66, .cmpleF32 one), (0x070B67, .cmpeqI32 one),
     (0x070B68, .cmpltI32 one), (0x070B69, .cvtlF32H one), (0x070B6A, .cvthF32H one), (0x070B6B, .cvtHF32 one),
     (0x070B6C, .cvtBF32 one), (0x070B6D, .cvtE4F32 one), (0x070B6E, .cvtF32E4 one), (0x070B6F, .cvtI32F32 one),
     (0x070B70, .cvtF32I32 one), (0x070B71, .rsumF32 one), (0x070B72, .rmaxF32 one), (0x070B73, .rsumI32 one), (0x070B74, .bcast one),
     (0x070B75, .ins one), (0x070B76, .ext one), (0x070B77, .iota one), (0x070B78, .msk one)] :
    List (MoveWord × Instr)).all (fun q => both q.1 q.2) = true := by decide +kernel

/-- VAX's assigned trigger ports, with the source `one` (0x0E1). -/
theorem test_decode_vax : (
    [(0x070B84, .rsq one), (0x070B85, .rcp one), (0x070B86, .exp2 one), (0x070B87, .log2 one), (0x070B88, .tanh one),
     (0x070B89, .sigm one), (0x070B8A, .perm one), (0x070B8B, .rot one), (0x070B8C, .cmp24 one), (0x070B8D, .cmp48 one),
     (0x070B8E, .expd one)] :
    List (MoveWord × Instr)).all (fun q => both q.1 q.2) = true := by decide +kernel

/-- TRN's assigned trigger ports, with the source `one` (0x0E1). -/
theorem test_decode_trn : (
    [(0x070BA4, .trset one), (0x070BA5, .trin one), (0x070BA6, .trout one)] :
    List (MoveWord × Instr)).all (fun q => both q.1 q.2) = true := by decide +kernel

/-- MTX's assigned trigger ports, with the source `one` (0x0E1). -/
theorem test_decode_mtx : (
    [(0x070BC4, .push one), (0x070BC5, .pusha one), (0x070BC6, .shift one), (0x070BC7, .loadw one), (0x070BC8, .loadm one),
     (0x070BC9, .swap one), (0x070BCA, .drain one), (0x070BCB, .aclr one), (0x070BCC, .amode one), (0x070BCD, .scala one),
     (0x070BCE, .scalw one)] :
    List (MoveWord × Instr)).all (fun q => both q.1 q.2) = true := by decide +kernel

/-- COL's assigned trigger ports, with the source `one` (0x0E1). -/
theorem test_decode_col : (
    [(0x070BE4, .sload one), (0x070BE5, .spart one), (0x070BE6, .fire one), (0x070BE7, .swtok one), (0x070BE8, .cdrain one),
     (0x070BE9, .ctrap one), (0x070BEA, .cres one), (0x070BEB, .cabort one), (0x070BEC, .cstat one), (0x070BED, .npar one)] :
    List (MoveWord × Instr)).all (fun q => both q.1 q.2) = true := by decide +kernel

/-- Moves to registers, to the writable specials and to an operand port, the prefix and the control items: fields of R55-R63. -/
theorem test_decode_moves : ([(0x03F88F, .move false (.m 127) (.s 15)), (0x07A8DF, .move false (.special .metaWord) (.v 31)),
    (0x276000, .move true (.special .wf5) (.m 0)), (0x04F8E0, .loopCounterWrite false (.l 15) false), (0x0710E1, .loopCounterWrite false (.special .tick) true),
    (0x1800E2, .lkWrite false (.imm 0x100)), (0x0500E3, .flagsWrite false (.b 0)), (0x05F8E4, .vrcWrite false (.w 15)),
    (0x06F8E5, .alarmWrite false (.v 31)), (0x07A0E6, .kselWrite false (.special .ksel)), (0x070BE3, .operandPortWrite false (.special .one) 15 3),
    (0x7FFFFF, .longImmediatePrefix 0x3FFFFF), (0xA00000, .nop true), (0x810000, .yield false), (0x820008, .suspendR false 2),
    (0x820019, .suspendF false 2 1), (0x82000E, .suspendP false 3), (0x830000, .exit false), (0x840000, .mark false), (0x8500FF, .waitk false 0xFF)] :
    List (MoveWord × Instr)).all (fun q => both q.1 q.2) = true := by decide +kernel

/-- Words that the spec writes out: after R65 and R85, and in the sections of the scalar units, the group, streams and the page. -/
theorem test_decode_examples : ([(0x850003, .waitk false 3), (0x412345, .longImmediatePrefix 0x12345), (0x079007, .move false (.special .limm) (.m 7)),
    (0x060B40, .operandPortWrite false (.v 1) 10 0), (0x061341, .operandPortWrite false (.v 2) 10 1), (0x061B47, .fmaF32 ⟨false, .v 3, false⟩),
    (0x061F47, .fmaF32 ⟨false, .v 3, true⟩), (0x001A88, .div ⟨false, .m 3, false⟩), (0x062B84, .rsq ⟨false, .v 5, false⟩),
    (0x047B0E, .frd ⟨false, .s 15, false⟩), (0x001265, .sub ⟨false, .m 2, false⟩ true), (0x1FFA48, .xor ⟨false, .imm 0x1FF, false⟩ false),
    (0x000AE5, .copy ⟨false, .m 1, false⟩), (0x100AEB, .kclr ⟨false, .imm 1, false⟩), (0x0012EC, .krd ⟨false, .m 2, false⟩),
    (0x120B2F, .regroup ⟨false, .imm 65, false⟩), (0x0012D9, .stxv ⟨false, .m 2, false⟩), (0x100A12, .waitl ⟨false, .imm 1, false⟩),
    (0x0012DA, .ltag ⟨false, .m 2, false⟩), (0x124AE5, .copy ⟨false, .imm 73, false⟩), (0x0492D7, .ldxv ⟨false, .l 2, false⟩), (0x820015, .suspendF false 1 1),
    (0x108225, .rdsr ⟨false, .imm 16, false⟩), (0x004B30, .enq ⟨false, .m 9, false⟩)] :
    List (MoveWord × Instr)).all (fun q => both q.1 q.2) = true := by decide +kernel

/-- R64: FORM 11, a reserved op, arguments that must be 0, mode 0b11, a receive slot not below the carried count. -/
theorem test_decode_illegal_form : ([0xC00000, 0x860000, 0x9F0000, 0x800001, 0x810001, 0x820003, 0x820025, 0x820010, 0x820012, 0x820040,
    0x830001, 0x848000, 0x850100] : List MoveWord).all (fun w => traps w .illegalForm) = true := by decide +kernel

/-- R64: the first and the last reserved source. -/
theorem test_decode_illegal_source : ([0x07B000, 0x0FF800] : List MoveWord).all (fun w => traps w .illegalSource) = true := by decide +kernel

/-- R64: reserved destinations, an unassigned port of every unit that has one, W on a plain move and on an operand port. -/
theorem test_decode_illegal_destination : ([0x090, 0x0BF, 0x0E7, 0x1FF, 0x213, 0x22E, 0x28D, 0x2AA, 0x2DB, 0x2EF, 0x316, 0x331, 0x35E, 0x379, 0x38F,
    0x3A7, 0x3CF, 0x3EE, 0x400, 0x600] : List Nat).all (fun d => traps (0x070800 + BitVec.ofNat 24 d) .illegalDestination) = true := by decide +kernel

/-- R64, R65, R85: the bundle after R65 is legal; `ina.add` in slot 1 is a slot-ownership trap; `yield` outside slot 0, a prefix with no
`limm` above it, a `limm` with no prefix and two transfers are illegal forms; the lowest-numbered offending slot stands. -/
theorem test_bundle_faults :
    bundleFault (packBundle [0x850003, 0x412345, 0x079007, 0x060B40, 0x061341, 0x061B47, 0x800000, 0x800000]) ⟨false, false⟩ = none ∧
    bundleFault (packBundle [0x800000, 0x000A44, 0x800000, 0x800000, 0x800000, 0x800000, 0x800000, 0x800000]) ⟨false, false⟩ = some (1, .slotOwnership) ∧
    bundleFault (packBundle [0x800000, 0x810000, 0xC00000, 0x800000, 0x800000, 0x800000, 0x800000, 0x800000]) ⟨false, false⟩ = some (1, .illegalForm) ∧
    bundleFault (packBundle [0x412345, 0x800000, 0x800000, 0x800000, 0x800000, 0x800000, 0x800000, 0x800000]) ⟨false, false⟩ = some (0, .illegalForm) ∧
    bundleFault (packBundle [0x800000, 0x079007, 0x800000, 0x800000, 0x800000, 0x800000, 0x800000, 0x800000]) ⟨false, false⟩ = some (1, .illegalForm) ∧
    bundleFault (packBundle [0x100209, 0x800000, 0x800000, 0x800000, 0x800000, 0x800000, 0x800000, 0x800000]) ⟨true, false⟩ = some (0, .illegalForm) := by
  decide +kernel

/-! ### Well-formedness -/

/-- R63: a receive slot that is not below the carried count is refused by the check, and nothing decodes to it. -/
theorem test_ill_formed_suspend : (Instr.suspendF true 1 2).wellFormed = false ∧ (Instr.suspendF true 1 1).wellFormed = true ∧
    (match encode (.suspendF true 1 2) with | some w => traps w .illegalForm | none => true) = true := by decide +kernel

/-! ### Values that the spec works out -/

/-- R61: a chain of one, two and three prefixes. -/
theorem test_limm : limmValue (packBundle [0x412345, 0x079007]) 1 = 0x12345 ∧ limmValue (packBundle [0x7FFFFF, 0x7FFFFE, 0x079007]) 2 = 0xFFFFFFFFFFFFFFFE ∧
    limmValue (packBundle [0x400001, 0x400000, 0x400003, 0x079007]) 3 = 0x100000000003 := by decide +kernel

/-- The examples after R160 and R161: a run whose entry 0 has two contiguous pages and whose entry 1 has one. -/
def handleStrand : Strand :=
  { State.reset.strand 0 0 with extents := [⟨0x10_0000_0000, 0x3_0000, 3, 0x2_0000⟩, ⟨0x20_0000_0000, 0x100, 1, 0x100⟩],
                                extSlots := [⟨0, 0, 0x2_0000, 0x02_4000_0000, false⟩, ⟨1, 0, 0x100, 0x07_0001_0000, false⟩] }
theorem test_handles :
    handleStrand.xaOf 0 0x1_2345 = (0x4000_0002_4001_2345, 0xDCBB, 0) ∧ handleStrand.xaOf 0 0x2_0010 = (0xC000_0010_0002_0010, 0xFFF0, 0) ∧
    (handleStrand.xaOf 1 0x80).1 = 0x4001_0007_0001_0080 ∧ handleStrand.xaOf 1 0x100 = (0, 0, flagNUL) ∧
    handleStrand.hdlOf 8 0x10_0001_FFFC = (0xC000_0010_0001_FFFC, 0) := by decide +kernel

/-- The example of R135: gang widths 4, 12 and 16. -/
def widHeader : KHeader := { testHeader with nf := 3, gang := 0, widths := [4, 12, 16], res := false }
theorem test_regroup :
    regroupWid widHeader 1 0x3005_0007_0000_0000 0x12 = 0x3005_0012_0000_0000 ∧ regroupWid widHeader 2 0x3005_0007_0000_0000 0x40_0001 = 0x3040_0001_0000_0000 ∧
    regroupRefused widHeader 0x42 0x40_0001 = false ∧ regroupRefused { widHeader with gang := 1 } 0x42 0x40_0001 = true ∧ regroupRefused widHeader 0x41 0x1_0000 = true := by
  decide +kernel

/-- The landing specifications worked out in the section on ordering. -/
theorem test_landing_specs : landSpec 0x6_0320 = some ⟨2, 1, 50, 0⟩ ∧ landSpec 0x5_12C1 = some ⟨1, 1, 300, 1⟩ ∧ landSpec 0xA_0320 = some ⟨2, 2, 50, 0⟩ ∧
    landSpec 0x9_12C1 = some ⟨1, 2, 300, 1⟩ ∧ landSpec 0x6_000F = none := by decide +kernel

/-- R11: from tile 0x00A3 a packet for 0x0E9E goes west through the wrap link, then south, in 20 hops; at a distance of 64 it goes east. -/
theorem test_route : routeDir 0x00A3 0x0E9E = .west ∧ hops 0x00A3 0x0E9E = 20 ∧ tileGx (neighbour (tileAt 0 5) .west) = 127 ∧
    routeDir (tileAt 126 5) 0x0E9E = .south ∧ routeDir (tileAt 10 0) (tileAt 74 0) = .east ∧ routeDir 7 7 = .here := by decide +kernel

/-- The table after R171, from the base 0x1_0000: the steps that the busiest bank needs. -/
theorem test_bank_steps :
    bankSteps (lanePieces 0x1_0000 (ofElems 32 32 fun i => BitVec.ofNat 32 (4 * i))) = 1 ∧ bankSteps (lanePieces 0x1_0000 0) = 1 ∧
    bankSteps (lanePieces 0x1_0000 (ofElems 32 32 fun i => BitVec.ofNat 32 (16 * (i % 8) + 512 * (i / 8)))) = 4 ∧
    bankSteps (lanePieces 0x1_0000 (ofElems 32 32 fun i => BitVec.ofNat 32 (128 * i))) = 32 ∧
    bankSteps (stridePieces 0x1_0000 16) = 1 ∧ bankSteps (stridePieces 0x1_0000 128) = 8 := by decide +kernel

/-- The example after R183: 2^24, then three ones. -/
theorem test_rsum : (treeReduce fp32.add 5 (lanes32 (ofElems 32 32 fun i => if i = 0 then 0x4B800000 else if i < 4 then 0x3F800000 else 0))).1 = [0x4B800001] := by
  decide +kernel

/-- The worked example of `cmp24`. -/
def sparseColumn : Wide := 0x7E00_0000_3800_FC00_4200_4200_C200_3C00
theorem test_cmp24 : (List.range 32).map (fun i => (elem 32 (compress 4 2 sparseColumn) i)) =
    [0x4200_C200, 0x7E00_FC00] ++ List.replicate 14 0 ++ [0x4444_44C9, 0x4444_4444] ++ List.replicate 14 0 := by decide +kernel

/-- The example after R39: exact 2^-18 in column 0, scales 4.0 and 0.5, on an accumulator at +0. -/
theorem test_accumulate : accUpdate ⟨0, 1, .push, 0, 0, 0, 0, 0, [], 0x40800000, 0x3F000000, [1], 0, none⟩ 0 0 = (0x37000000, 0) := by decide +kernel

/-- The MX example after R34: 1.5 of E4M3 times 2^-5 is 0x14, exact. -/
theorem test_mx_element : e4m3.narrow .rne false 0 (scaleNum (e4m3.decode 0x3C) (-5)) = (0x14, 0) := by decide +kernel

/-- The lines of the example of R417-R419: line 3 takes tag 0x6 and stores 00 40 00 00, then 02, 04, … 3E; with element 1 at 0x4400 it takes
tag 0x7, and its deltas follow from the fifth byte. -/
def lineThree (e1 : Nat) : List Byte := (List.range 32).flatMap fun i => leBytes 4 (0x4000 + if i = 1 then e1 else 2 * i)
theorem test_line_tags :
    encodeLine true (lineThree 2) = (6, [0x00, 0x40, 0x00, 0x00] ++ (List.range 31).map (fun i => BitVec.ofNat 8 (2 * i + 2)) ++ List.replicate 29 0) ∧
    (encodeLine true (lineThree 0x400)).1 = 7 ∧ ((encodeLine true (lineThree 0x400)).2.take 10) = [0x00, 0x40, 0x00, 0x00, 0x00, 0x04, 0x04, 0x00, 0x06, 0x00] ∧
    (encodeLine true (lineThree 0x400)).2.length = 96 ∧ encodeLine true (List.replicate 128 0) = (1, []) ∧ (encodeLine false (lineThree 2)).1 = 0 := by
  decide +kernel

/-! ### One step -/

/-- The result that a step puts on its way in tile 0: its unit, its value, its latency and its flags. -/
def resultOf (r : Host.Outcome State Fault Refusal) : List (Nat × Nat × Nat × BitVec 10) :=
  match r with
  | .next s => (s.core 0).pipe.map fun p => (p.unit, p.val.toNat, p.due, p.flags)
  | _ => []

/-- A word about to issue with an operand port of its unit at a value. -/
def withO0 (w : MoveWord) (v : Wide) : State := (ready w).modCore 0 fun co => { co with ports := [(codePort (wordUnit w) 0, v)] }

/-- R154: 2^64 - 1 plus one wraps; `ina.sub` takes t from o0. -/
theorem test_add_wraps : resultOf (step (withO0 0x070A44 0xFFFFFFFFFFFFFFFF)) = [(2, 0, 1, 0)] := by decide +kernel
theorem test_sub_order : resultOf (step (withO0 0x070A45 5)) = [(2, 4, 1, 0)] := by decide +kernel

/-- R156: 7 divided by 0 is -1 with `DZ`, after 20 steps; the remainder is 7. -/
theorem test_div_zero : resultOf (step (withO0 0x070288 7)) = [(4, 0xFFFFFFFFFFFFFFFF, 20, flagDZ)] ∧ resultOf (step (withO0 0x07028A 7)) = [(4, 7, 20, flagDZ)] := by
  decide +kernel

/-- The example of R171: `stv` at 0x7_FFC0 drops four granules, sets `OOR` and puts 0x8_0000 into `oar`. -/
def edgeStore : State := ((ready 0x0002D2).modStrand 0 0 fun x => { x with regs := [(0, 0x7FFC0)] }).modCore 0 fun co => { co with ports := [(codePort 6 0, 7)] }
theorem test_store_past_the_end :
    (match step edgeStore with
     | .next s => ((s.strand 0 0).flagEvs.map fun e => (e.set, e.oar), (s.strand 0 0).stores.map fun g => g.parts.map fun p => (p.1, p.2.length))
     | _ => ([], [])) = ([(flagOOR, 0x80000)], [[(0x7FFC0, 16), (0x7FFD0, 16), (0x7FFE0, 16), (0x7FFF0, 16)]]) := by decide +kernel

/-- R55: a plain move writes its register and touches no other. -/
theorem test_move : (match step (ready 0x070805) with
    | .next s => [(s.strand 0 0).regAt 5 0, (s.strand 0 0).regAt 5 1, (s.strand 0 0).regAt 6 1]
    | _ => []) = [0, 1, 0] := by decide +kernel

end Sys2Proof.Tests
end

section
/-! Every instruction answers (R4, R53, R64): a move through the shared operation it is made of, an event or a command of the
host in every branch of its definition. -/

namespace Sys2Proof.Machine

/-- The instruction has been performed: its outcome is neither a fault nor a refusal. -/
def IsNext (r : Host.Outcome State Fault Refusal) : Prop := ∃ t, r = .next t

theorem IsNext.intro (t : State) : IsNext (.next t) := ⟨t, rfl⟩

/-- What a move may answer: a next state when a strand issues on the current tile, the model's own fault when none does. -/
def State.AnswersMove (s : State) (r : Host.Outcome State Fault Refusal) : Prop :=
  (s.issuer ≠ none → IsNext r) ∧ (s.issuer = none → r = .fault .noIssuer)

theorem State.AnswersMove.noIssuer {s : State} (h : s.issuer = none) : s.AnswersMove (.fault .noIssuer) := ⟨fun h' => absurd h h', fun _ => rfl⟩

theorem State.AnswersMove.next {s : State} {c : Issuer} (h : s.issuer = some c) (t : State) : s.AnswersMove (.next t) :=
  ⟨fun _ => .intro t, fun h' => by simp [h] at h'⟩

/-! ### The shared operations of moves -/

theorem State.trigger_answersMove (s : State) {u : Nat} {n : Need} {t : Trig} {eff : Issuer → Opnds → State → Option (Except State State)} :
    s.AnswersMove (s.trigger u n t eff) := by
  fun_cases State.trigger
  case case1 h => exact .noIssuer h
  all_goals exact .next ‹_› _

theorem State.plainMove_answersMove (s : State) {sync : Bool} {src : Src} {reg : Option Nat} {eff : Issuer → Wide → State → State} :
    s.AnswersMove (s.plainMove sync src reg eff) := by
  fun_cases State.plainMove
  case case1 h => exact .noIssuer h
  all_goals exact .next ‹_› _

theorem State.control_answersMove (s : State) {sync : Bool} {ready : Issuer → State → Bool} {eff : Issuer → State → State} :
    s.AnswersMove (s.control sync ready eff) := by
  fun_cases State.control
  case case1 h => exact .noIssuer h
  all_goals exact .next ‹_› _

theorem State.endControl_answersMove (s : State) {sync : Bool} {ready : Issuer → State → Bool} {eff : Issuer → State → State} :
    s.AnswersMove (s.endControl sync ready eff) := by
  fun_cases State.endControl
  case case1 h => exact .noIssuer h
  case case2 h _ _ => exact .next h _
  case case3 => exact s.control_answersMove

theorem execWaitk_answersMove (sync : Bool) (mask : BitVec 8) (s : State) : s.AnswersMove (execWaitk sync mask s) := by
  fun_cases execWaitk
  case case1 h => exact .noIssuer h
  all_goals exact .next ‹_› _

/-! ### The operations made of them -/

theorem State.compute_answersMove (s : State) (u lat n t f) : s.AnswersMove (s.compute u lat n t f) := s.trigger_answersMove ..
theorem State.branch_answersMove (s : State) (use0 t taken target) : s.AnswersMove (s.branch use0 t taken target) := s.trigger_answersMove ..
theorem State.setLoop_answersMove (s : State) (second t) : s.AnswersMove (s.setLoop second t) := s.trigger_answersMove ..
theorem State.softTrap_answersMove (s : State) (cause t) : s.AnswersMove (s.softTrap cause t) := s.trigger_answersMove ..
theorem State.adr_answersMove (s : State) (use0 use1 t f) : s.AnswersMove (s.adr use0 use1 t f) := s.trigger_answersMove ..
theorem State.int1_answersMove (s : State) (inb t f) : s.AnswersMove (s.int1 inb t f) := s.compute_answersMove ..
theorem State.int2_answersMove (s : State) (inb t f) : s.AnswersMove (s.int2 inb t f) := s.compute_answersMove ..
theorem State.int3_answersMove (s : State) (inb t f) : s.AnswersMove (s.int3 inb t f) := s.compute_answersMove ..
theorem State.imd2_answersMove (s : State) (lat t f) : s.AnswersMove (s.imd2 lat t f) := s.compute_answersMove ..
theorem State.scalarLoad_answersMove (s : State) (k signed t) : s.AnswersMove (s.scalarLoad k signed t) := s.trigger_answersMove ..
theorem State.scalarStore_answersMove (s : State) (k t) : s.AnswersMove (s.scalarStore k t) := s.trigger_answersMove ..
theorem State.landTrigger_answersMove (s : State) (u n t spec ords eff) : s.AnswersMove (s.landTrigger u n t spec ords eff) := s.trigger_answersMove ..
theorem State.remoteLoad_answersMove (s : State) (kind size k ords mis t) : s.AnswersMove (s.remoteLoad kind size k ords mis t) := s.landTrigger_answersMove ..
theorem State.remoteStore_answersMove (s : State) (size k t) : s.AnswersMove (s.remoteStore size k t) := s.landTrigger_answersMove ..
theorem State.atomic_answersMove (s : State) (op t) : s.AnswersMove (s.atomic op t) := s.landTrigger_answersMove ..
theorem State.cellTrigger_answersMove (s : State) (kind byO0 ords nullValue t) : s.AnswersMove (s.cellTrigger kind byO0 ords nullValue t) := s.landTrigger_answersMove ..
theorem State.barTrigger_answersMove (s : State) (t ords kind) : s.AnswersMove (s.barTrigger t ords kind) := s.landTrigger_answersMove ..
theorem State.onCapsule_answersMove (s : State) (n t eff) : s.AnswersMove (s.onCapsule n t eff) := s.trigger_answersMove ..
theorem State.endVisit_answersMove (s : State) (next t) : s.AnswersMove (s.endVisit next t) := s.trigger_answersMove ..
theorem State.vec2_answersMove (s : State) (lat t f) : s.AnswersMove (s.vec2 lat t f) := s.compute_answersMove ..
theorem State.vec3_answersMove (s : State) (lat t f) : s.AnswersMove (s.vec3 lat t f) := s.compute_answersMove ..
theorem State.compare_answersMove (s : State) (t f) : s.AnswersMove (s.compare t f) := s.compute_answersMove ..
theorem State.widenLanes_answersMove (s : State) (t f) : s.AnswersMove (s.widenLanes t f) := s.compute_answersMove ..
theorem State.convert_answersMove (s : State) (w t f) : s.AnswersMove (s.convert w t f) := s.trigger_answersMove ..
theorem State.special_answersMove (s : State) (t f) : s.AnswersMove (s.special t f) := s.trigger_answersMove ..
theorem State.mtx_answersMove (s : State) (use0 t eff) : s.AnswersMove (s.mtx use0 t eff) := s.trigger_answersMove ..
theorem State.pushBeat_answersMove (s : State) (kind t) : s.AnswersMove (s.pushBeat kind t) := s.mtx_answersMove ..
theorem State.suspend_answersMove (s : State) (sync n k kind) : s.AnswersMove (s.suspend sync n k kind) := s.endControl_answersMove ..

/-- Every instruction that has a word is made of one shared operation of moves. -/
theorem exec_answersMove {i : Instr} (hi : isMove i = true) (s : State) : s.AnswersMove (exec i s) := by
  unfold exec
  cases i with
  | move | operandPortWrite | loopCounterWrite | lkWrite | flagsWrite | vrcWrite | alarmWrite | kselWrite => exact s.plainMove_answersMove ..
  | longImmediatePrefix | nop | yield | mark => exact s.control_answersMove ..
  | exit => exact s.endControl_answersMove ..
  | suspendR | suspendF | suspendP => exact s.suspend_answersMove ..
  | call | ret | lexit | sleep | waitl | fence | rdsr | wrsr | rft | sclr | fmtb | bclaim | brel | evsel | evrd | openx | ldv | ldvs | ldvg
  | stv | stvm | stvs | stvx | send | copy | stream | free | close | gathr | kexp | kclr | krd | qfence | red | barw | capnew | capsend
  | capfork | spawn | regroup | enq | trset | trin | trout | sload | spart | fire | swtok | cdrain | ctrap | cres | cabort | cstat | npar =>
    exact s.trigger_answersMove ..
  | mad | absF32 | rsumF32 | rmaxF32 | rsumI32 | bcast | ins | ext | iota | msk | perm | rot | cmp24 | cmp48 | expd => exact s.compute_answersMove ..
  | br | brz | brnz | brn | brnn | jmp => exact s.branch_answersMove ..
  | loop0 | loop1 => exact s.setLoop_answersMove ..
  | trap | brk => exact s.softTrap_answersMove ..
  | xa | xab | xlen | idx | hdl => exact s.adr_answersMove ..
  | mov | clz | popc => exact s.int1_answersMove ..
  | add | sub | and | or | xor | andn | shl | shr | sar | rol | min | max | minu | maxu | ceq | cne | clt | cltu | cle | cleu | addw | subw
  | bfx => exact s.int2_answersMove ..
  | sel | bfi => exact s.int3_answersMove ..
  | mul | mulh | mulhu | mulw | div | divu | rem | remu => exact s.imd2_answersMove ..
  | ldb | ldbs | ldh | ldhs | ldw | ldws | ldd => exact s.scalarLoad_answersMove ..
  | stb | sth | stw | std => exact s.scalarStore_answersMove ..
  | promise | bartw | nextw => exact s.landTrigger_answersMove ..
  | ldx | ldxv | ltag => exact s.remoteLoad_answersMove ..
  | stx | stxv => exact s.remoteStore_answersMove ..
  | aadd | amin | amax | aand | aor | axor | aswp | acas | afadd => exact s.atomic_answersMove ..
  | frd | fwr | frst => exact s.cellTrigger_answersMove ..
  | barr | bard | barq => exact s.barTrigger_answersMove ..
  | capins | capdel | capset | caprd => exact s.onCapsule_answersMove ..
  | capnxt | capfin => exact s.endVisit_answersMove ..
  | addF32 | subF32 | mulF32 | minF32 | maxF32 | addH | mulH | mulwlH | mulwhH | addB | addI32 | subI32 | mulI32 | dot4I8 | addsI8 | vecAnd
  | vecOr | vecXor | vecShl | vecShr | vecSar => exact s.vec2_answersMove ..
  | fmaF32 | fmaH | fmaB | vecSel => exact s.vec3_answersMove ..
  | cmpeqF32 | cmpltF32 | cmpleF32 | cmpeqI32 | cmpltI32 => exact s.compare_answersMove ..
  | cvtlF32H | cvthF32H | cvtF32E4 => exact s.widenLanes_answersMove ..
  | cvtHF32 | cvtBF32 | cvtE4F32 | cvtI32F32 | cvtF32I32 => exact s.convert_answersMove ..
  | rsq | rcp | exp2 | log2 | tanh | sigm => exact s.special_answersMove ..
  | shift | loadw | loadm | swap | drain | aclr | amode | scala | scalw => exact s.mtx_answersMove ..
  | push | pusha => exact s.pushBeat_answersMove ..
  | waitk => exact execWaitk_answersMove ..
  | _ => cases hi

/-! ### The shared operations of events and commands -/

theorem State.unlessStopped_isNext {s : State} {t : Nat} {i : Instr} {k : State → Host.Outcome State Fault Refusal} (h : IsNext (k s)) :
    IsNext (s.unlessStopped t i k) := by
  unfold State.unlessStopped
  split
  · exact .intro _
  · exact h

theorem State.atNode_isNext {s : State} {f : Nat → Nat → Node → Host.Outcome State Fault Refusal} (h : ∀ t n nd, IsNext (f t n nd)) :
    IsNext (s.atNode f) := by
  fun_cases State.atNode
  · exact .intro s
  · exact .intro _
  · exact h ..

theorem State.streamNode_isNext (s : State) {f : Node → Tok → NodeStep} : IsNext (s.streamNode f) :=
  State.atNode_isNext fun t n nd => by
    dsimp only
    split
    · split <;> exact .intro _
    · exact .intro s

theorem State.takeEntry_isNext (s : State) {ok : ArrEntry → Bool} {f : Nat → Nat → ArrEntry → State → State} : IsNext (s.takeEntry ok f) := by
  fun_cases State.takeEntry
  case case3 => exact State.atNode_isNext fun _ _ _ => .intro _
  all_goals exact .intro _

theorem State.atCell_isNext (s : State) {k : Nat → Req → Cell → List Byte → State} : IsNext (s.atCell k) := by
  fun_cases State.atCell <;> exact .intro _

theorem State.command_isNext (s : State) {i : Instr} {owner : Bool} {masks : List Nat} {body : Command → State → State} :
    IsNext (s.command i owner masks body) := by
  fun_cases State.command <;> exact .intro _

theorem State.linkCommand_isNext (s : State) {i : Instr} {params : Nat} {body : Nat → Command → State → State} : IsNext (s.linkCommand i params body) :=
  s.command_isNext

/-! ### Events of many branches -/

@[simp] theorem execSwitchTokenTake_isNext (s : State) : IsNext (execSwitchTokenTake s) := by fun_cases execSwitchTokenTake <;> exact .intro _
@[simp] theorem execRouterForward_isNext (s : State) : IsNext (execRouterForward s) := by fun_cases execRouterForward <;> exact .intro _
@[simp] theorem execMeetArrival_isNext (s : State) : IsNext (execMeetArrival s) := by fun_cases execMeetArrival <;> exact .intro _
@[simp] theorem execHbmWrite_isNext (s : State) : IsNext (execHbmWrite s) := by fun_cases execHbmWrite <;> exact .intro _
@[simp] theorem execFlitReceive_isNext (s : State) : IsNext (execFlitReceive s) := by fun_cases execFlitReceive <;> exact .intro _
@[simp] theorem execBringupStepDone_isNext (s : State) : IsNext (execBringupStepDone s) := by fun_cases execBringupStepDone <;> exact .intro _

@[simp] theorem execGangDispatch_isNext (s : State) : IsNext (execGangDispatch s) := by
  dsimp only [execGangDispatch]
  split
  · exact .intro s
  next g _ =>
  split
  · exact .intro s
  split
  · exact .intro s
  next first rest _ =>
  split
  · exact .intro s
  cases s.freeBarrier (dieOf first.2.1) with
  | none => exact .intro s
  | some bar =>
    cases s.planPins g.ctx (first :: rest) with
    | ok pins => exact .intro _
    | error p => cases p <;> exact .intro _

/-! ### Events that pass to a shared operation on some of their branches -/

@[simp] theorem execRemoteAccessPerform_isNext (s : State) : IsNext (execRemoteAccessPerform s) := by
  fun_cases execRemoteAccessPerform
  case case2 => exact State.unlessStopped_isNext (.intro _)
  all_goals exact .intro _

@[simp] theorem execLandingDataArrival_isNext (s : State) : IsNext (execLandingDataArrival s) := by
  fun_cases execLandingDataArrival
  case case3 | case4 => exact State.unlessStopped_isNext (.intro _)
  all_goals exact .intro _

@[simp] theorem execWalkBurst_isNext (s : State) : IsNext (execWalkBurst s) := by
  fun_cases execWalkBurst
  · exact .intro _
  · refine State.unlessStopped_isNext ?_
    repeat' split
    all_goals exact .intro _

@[simp] theorem execStreamBurstArrival_isNext (s : State) : IsNext (execStreamBurstArrival s) := by
  fun_cases execStreamBurstArrival
  case case5 => exact State.unlessStopped_isNext (.intro _)
  all_goals exact .intro _

@[simp] theorem execNormRow_isNext (s : State) : IsNext (execNormRow s) := by
  fun_cases execNormRow
  · exact s.streamNode_isNext
  · refine State.atNode_isNext fun t n nd => ?_
    dsimp only
    repeat' split
    all_goals exact .intro _

/-! ### PORT nodes -/

@[simp] theorem execPortScratchpadRead_isNext (s : State) : IsNext (execPortScratchpadRead s) := by
  refine State.atNode_isNext fun t n nd => ?_
  dsimp only
  repeat' split
  all_goals exact .intro _

@[simp] theorem execPortScratchpadWrite_isNext (s : State) : IsNext (execPortScratchpadWrite s) := by
  refine State.atNode_isNext fun t n nd => ?_
  dsimp only
  repeat' split
  all_goals exact .intro _

@[simp] theorem execPortNetworkIn_isNext (s : State) : IsNext (execPortNetworkIn s) := by
  refine State.atNode_isNext fun t n nd => ?_
  dsimp only
  repeat' split
  all_goals exact .intro _

@[simp] theorem execPortNetworkOut_isNext (s : State) : IsNext (execPortNetworkOut s) := by
  refine State.atNode_isNext fun t n nd => ?_
  dsimp only
  repeat' split
  all_goals exact .intro _

/-- Every event and every command of the host ends in a next state, whichever branch of its definition it takes. -/
theorem exec_isNext {i : Instr} (hi : isMove i = false) (s : State) : IsNext (exec i s) := by
  unfold exec
  cases i with
  -- events of one branch
  | swapAtPe | capsuleReturnDelivery | releaseNoticeEmit | shootdownComplete | freezeMarker | inrushAdmit | currentSample | boostClaimArrival
  | boostBoundary | sensorSample | moduleReset | hostLinkDown => exact .intro _
  -- events and commands that are a shared operation
  | decodeToken | gateToken | affineToken | activateToken | convertToken => exact State.streamNode_isNext _
  | promoteEntry | drainAtPromote | aclrAtPromote => exact s.takeEntry_isNext
  | frdPerform | fwrPerform | frstPerform => exact s.atCell_isNext
  | claim | handover | reset | status | ctxCreate | ctxBind | ctxFreeze | ctxThaw | ctxEvict | ctxDestroy | queuePause | queueResume
  | kernelInstall | kernelRemove | ptRoot | tlbShootdown | pageMigrate | pageReclaim | rawRead | sensorRead | counterRead | eventRead | attest
  | identityCert | outputRead =>
    exact s.command_isNext
  | linkTrain | linkRetrain | linkRetrainLaneReset | linkDrain | linkSetRwinRthr | linkEventMsixEnable =>
    exact s.linkCommand_isNext
  | regionCommit | regionWithhold | cabortComplete => exact State.unlessStopped_isNext (.intro _)
  -- what a shared operation passes on to branches by itself
  | bundleReloadDone | recordArrival | codeLoadDone | parityRepairDone | doneToken | orderingToken | slateLoadDone | regionLoadRequest
  | regionLoadReport | walkCommandStart | freedSlotNotice | closeAck | promiseWatchExpiry | capsuleArrival | capsuleVisitStart | barrierWake =>
    dsimp only
    dsimp only [execBundleReloadDone, execRecordArrival, execCodeLoadDone, execParityRepairDone, execDoneToken, execOrderingToken, execSlateLoadDone,
      execRegionLoadRequest, execRegionLoadReport, execWalkCommandStart, execFreedSlotNotice, execCloseAck, execPromiseWatchExpiry,
      execCapsuleArrival, execCapsuleVisitStart, execBarrierWake]
    refine State.unlessStopped_isNext ?_
    repeat' split
    all_goals exact .intro _
  | cornerBlock | reduceToken | smaxBurst | joinToken =>
    refine State.atNode_isNext fun t n nd => ?_
    dsimp only
    repeat' split
    all_goals exact .intro _
  -- events of their own branches
  | bundleDecode | resultEmerge | landing | landingTimeout | trapEntry | pageFaultReport | alarmExpiry | sleepWake | strandSwitch
  | implicitMark | strandRelease | pageWalkComplete | hostEnqueue | qstatWrite | launchDequeue | recordGenerate | dispatch | agingPromotion
  | launchCompletion | faultRingRecheck | copyDelivery | sendDelivery | keyCredit | capsuleParkTimeout | mordantAtomic | mordantRed
  | futureDeferral | fillWalkStep | barrierArrival | barqPerform | timedWaiterDeadline | ridgeRelease | releaseWindowEnd | hbmRead | revivalDone
  | reclaimDone | migrationCopyStart | migrationCopyDone | burstApply | appliedNotice | zportBurstSend | freezeStart | freezeComplete
  | evictDone | replayRequestReceive | laneFailing | replayThresholdFence | linkTrainingDone | linkDrainAcknowledged | clockGate | wakeRequest
  | railSettled | portBReset | electionWindowEnd | ownerLost | hostMemoryRead | hostMemoryWrite | registerWrite | mbgoWrite | hostLinkUp
  | meetEntryClear =>
    dsimp only
    dsimp only [execBundleDecode, execResultEmerge, execLanding, execLandingTimeout, execTrapEntry, execPageFaultReport, execAlarmExpiry, execSleepWake,
      execStrandSwitch, execImplicitMark, execStrandRelease, execPageWalkComplete, execHostEnqueue, execQstatWrite, execLaunchDequeue,
      execRecordGenerate, execDispatch, execAgingPromotion, execLaunchCompletion, execFaultRingRecheck, execCopyDelivery, execSendDelivery,
      execKeyCredit, execCapsuleParkTimeout, execMordantAtomic, execMordantRed, execFutureDeferral, execFillWalkStep, execBarrierArrival,
      execBarqPerform, execTimedWaiterDeadline, execRidgeRelease, execReleaseWindowEnd, execHbmRead, execRevivalDone, execReclaimDone,
      execMigrationCopyStart, execMigrationCopyDone, execBurstApply, execAppliedNotice, execZportBurstSend, execFreezeStart, execFreezeComplete,
      execEvictDone, execReplayRequestReceive, execLaneFailing, execReplayThresholdFence, execLinkTrainingDone, execLinkDrainAcknowledged,
      execClockGate, execWakeRequest, execRailSettled, execPortBReset, execElectionWindowEnd, execOwnerLost, execHostMemoryRead,
      execHostMemoryWrite, execRegisterWrite, execMbgoWrite, execHostLinkUp, execMeetEntryClear]
    repeat' split
    all_goals exact .intro _
  -- events with a lemma above
  | landingDataArrival | gangDispatch | switchTokenTake | normRow | portScratchpadRead | portScratchpadWrite | portNetworkIn | portNetworkOut
  | walkBurst | streamBurstArrival | routerForward | meetArrival | remoteAccessPerform | hbmWrite | flitReceive | bringupStepDone => simp
  | _ => cases hi

end Sys2Proof.Machine

open Sys2Proof Sys2Proof.Machine

/-- Settles O52, by cases on the instruction: a move is one of the shared operations of moves, each of which faults with no issuer alone; an
event or a command of the host has a next state at the end of each branch. -/
theorem instructionsNeverRefused : Obligations.InstructionsNeverRefused := fun _ s =>
  ⟨fun hi => (exec_answersMove hi s).1, fun hi => (exec_answersMove hi s).2, fun hi => exec_isNext hi s⟩

end
